-- ==== Sys2Proof/Word.lean ====
section
/-!
DEFINITION. The word types of the HX-9620 model: an octet, a 32-bit word, a 64-bit word.
Registers are 8 bits wide at byte addresses (R4, R5); wider quantities are little-endian groups of bytes.
-/

namespace Sys2Proof

/-- One octet. -/
abbrev Byte := BitVec 8

/-- A 32-bit word: node-entry words (R176), configuration records (R72), frame counters (R300). -/
abbrev Word := BitVec 32

/-- A 64-bit quantity: EUI-64 (R173), fabric tag (R17), mesh time (R339). -/
abbrev Word64 := BitVec 64

end Sys2Proof
end

