-- ==== Sys2Proof/Syntax.lean ====
section
/-!
DEFINITION. The commands of the block, one constructor per row of spec/opcode_table.json, and the data types that
their operands and the state share (node entries, queue items, frames, messages, records).
Multi-byte layouts are given by the rules named beside each type; the byte codecs stand in Machine/Operands.lean.
-/

namespace Sys2Proof

/-! ### Names of parts of the device -/

/-- The three front-end groups (R89). -/
inductive Grp where
  | L | H | I
deriving DecidableEq, Repr

/-- The sixteen islands, in the order of their numbers 0x0 to 0xF (R13). -/
inductive Isl where
  | SYS | IRQ | FEL | FEH | FEI | GRN | PHY | NTB | SCH | CAR | KEY | TIM | ETH | HST | TWN | TST
deriving DecidableEq, Repr

/-- The two ordinary-clock instances (R348). -/
inductive Dom where
  | A | B
deriving DecidableEq, Repr

/-- The two backhaul ports (R362). -/
inductive EPort where
  | A | B
deriving DecidableEq, Repr

/-- The three sources of an update session, coded 1, 2, 3 in UPD_OWNER (R322, R337). -/
inductive SessSrc where
  | mailbox | management | twin
deriving DecidableEq, Repr

/-- The two reference clocks (R54). -/
inductive RefClk where
  | xo40 | sdref
deriving DecidableEq, Repr

/-- The causes of a device fault other than a clock loss (R64, R426). -/
inductive DevFault where
  | lifeCycle | sysFault | keyFault
deriving DecidableEq, Repr

/-- The structures a Carafe double error can lie in (R278). -/
inductive CarMem where
  | cell | link | header
deriving DecidableEq, Repr

/-! ### Keys, as terms

Each derivation of R285, R287, R289, R292 and R370 is held as the tuple of its inputs: two keys are equal exactly when their
inputs are (log entry 3). -/

/-- The keys the device derives. -/
inductive Key where
  | link (net : BitVec 256) (epoch : Byte) (eui : Word64)
  | group (secret : BitVec 256) (sgen : BitVec 16) (epoch : Byte)
  | transport (rawRoot : BitVec 256) (lc : BitVec 3) (ident : BitVec 256)
  | mgmt (rawRoot : BitVec 256) (lc : BitVec 3) (ident : BitVec 256)
  | tunnel (net : BitVec 256) (epoch : Byte) (ident : BitVec 256)
  | slot (puf : BitVec 256) (n : Nat)
  | nvm (puf : BitVec 256) (lc : BitVec 3)
deriving DecidableEq, Repr

/-- One group slot of the key store (R288): identifier, VALID, secret. -/
structure GroupRec where
  gid : Byte
  valid : Bool
  secret : BitVec 256
deriving DecidableEq, Repr

/-- The cryptographic facts of a key-update message (R304), as terms (log entry 3): the payload as it decrypts, the public key to
whose root the chains and the path of SIG lead, the key under which TAG checks. -/
structure KuTerms where
  plain : List Byte
  signer : Option (BitVec 512)
  sealedUnder : Option Key
deriving DecidableEq, Repr

/-- A key-update message (R304): its bytes, and what its ciphertext, TAG and SIG stand for. -/
structure KuMsg where
  bytes : List Byte
  terms : KuTerms
deriving DecidableEq, Repr

/-- A session command record, as its bytes (R322). -/
structure SessRec where
  bytes : List Byte
deriving DecidableEq, Repr

/-! ### Node entries -/

/-- The states of a node-table entry (R11), coded 0 to 4 in W2 (R176). -/
inductive NodeState where
  | free | joining | active | drifted | unreachable
deriving DecidableEq, Repr

/-- A node entry (R176), one field for each field of its twelve words. -/
structure Entry where
  eui : Word64
  handle : BitVec 18
  state : NodeState
  lock : Bool
  hit : Bool
  amark : Bool
  gen : Byte
  chan : Byte
  opt : BitVec 2
  mcs : BitVec 3
  tl : Bool
  tmap : BitVec 12
  nlp : BitVec 3
  pin : Bool
  wheeled : Bool
  qne : Bool
  fcntUl : Word
  dsnUl : Byte
  dsnDl : Byte
  ulSeq : BitVec 16
  lastContact : Word
  clkOfs : Word
  drift : BitVec 16
  dNode : BitVec 4
  g0 : Byte
  miss : BitVec 4
  wakeInt : BitVec 24
  repeatLim : BitVec 4
  wcls : BitVec 4
  wakePhase : BitVec 24
  mcGrp : Byte
  qHead : BitVec 16
  qTail : BitVec 16
deriving DecidableEq, Repr

/-- A slot or stash entry that is VALID (R172): the entry, its BAD bit, and the words whose parity fails. -/
structure Slot where
  entry : Entry
  bad : Bool
  perr : BitVec 12
deriving DecidableEq, Repr

/-- A VALID directory record (R180): the location in the 19-bit layout, and whether its parity fails. -/
structure DirRec where
  loc : BitVec 19
  perr : Bool
deriving DecidableEq, Repr

/-- The entry copy carried by an item of a single node (R24). -/
structure EntryCopy where
  handle : BitVec 18
  chan : Byte
  opt : BitVec 2
  mcs : BitVec 3
  tl : Bool
  tmap : BitVec 12
  dsn : Byte
  nlp : BitVec 3
  gen : Byte
  fcnt : Word
deriving DecidableEq, Repr

/-! ### Receptions and uplinks -/

/-- The metadata of a reception (R136), with the MCS of its PHR. -/
structure RxMeta where
  endTime : Nat
  chan : Byte
  opt : BitVec 2
  mcs : BitVec 3
  aerMask : BitVec 4
  metric : Byte
  rssi : List Byte
  snr : Byte
  cfo : BitVec 16
  priv : Bool
deriving DecidableEq, Repr

/-- What a received PSDU holds, after its FCS (R228, R229): source EUI-64, frame counter, DSN, the
acknowledgement-request bit, whether it is an Enh-Ack, its security level, the key under which its MIC checks, its Header IEs by
element ID, and the MPDU with its payload decrypted. -/
structure Psdu where
  eui : Word64
  fc : Word
  dsn : Byte
  ackReq : Bool
  enhAck : Bool
  level : Nat
  mic : Option Key
  ies : List (Nat × List Byte)
  body : List Byte
deriving DecidableEq, Repr

/-- What a decode lane brings to the end of a reception: the decoder's soft inputs, symbol by symbol in the order the coded
bits arrive, positive for a 1, scaled by the combined channel gain (R135, R149); the measurements of R136 and R164; the key
under which the frame's MIC checks and what its payload decrypts to (log entry 3). -/
structure Reception where
  soft : List (List Int)
  mic : Option Key
  plain : List Byte
  rssi : List Byte
  snr : Byte
  cfo : BitVec 16
  tones : List Nat            -- SNR of each data subcarrier, 0.5 dB units, before the bounds of R164
deriving DecidableEq, Repr

/-- How KEY's check of an uplink ended (R299). -/
inductive Auth where
  | unchecked | ok | failed
deriving DecidableEq, Repr

/-- An uplink on its way from PHY to CAR (UL_FRAME items). -/
structure UlItem where
  id : Nat                    -- the reception's number, which names its declared acknowledgement
  grp : Grp
  rx : RxMeta
  psdu : Psdu
  tones : List Nat
  copy : Option EntryCopy     -- none: the lookup missed
  ulSeq : BitVec 16
  epoch : Byte
  auth : Auth
  dup : Bool                  -- recognised as a duplicate (DUP of R17)
deriving DecidableEq, Repr

/-! ### Datagrams -/

/-- A datagram as it reaches the endpoint (R369): UDP port, source, the UDP payload with its ciphertext decrypted, the key under
which TAG checks, and what a KEY_UPDATE payload's own ciphertext, tag and signature stand for (log entry 3). -/
structure Dgram where
  port : Nat
  srcIp : BitVec 128
  srcPort : Nat
  bytes : List Byte
  tag : Option Key
  ku : KuTerms
deriving DecidableEq, Repr

/-! ### The Carafe -/

/-- Bytes 12 to 51 of a receive completion (R256, R276), held in the header cell of an uplink. -/
structure RxInfo where
  handle : Option (BitVec 18)
  gen : Byte
  ulSeq : BitVec 16
  nlp : BitVec 3
  epoch : Byte
  rx : RxMeta
  eui : Word64
  fcnt : Word
  dsn : Byte
deriving DecidableEq, Repr

/-- A header cell (R256). -/
structure Hdr where
  ikind : Nat
  wd : Bool
  sendMap : Bool
  handle : BitVec 18
  prio : Nat
  tlpol : BitVec 2
  ovr : Bool
  seq : BitVec 16
  ring : Nat
  desc : BitVec 16
  expiry : Word
  tries : Nat
  naks : Nat
  dsn : Byte
  skips : Nat
  smiss : Bool
  ochan : Byte
  oopt : BitVec 2
  omcs : BitVec 3
  rx : Option RxInfo
deriving DecidableEq, Repr

/-- What an item of queues 0x20 to 0x29 is, beside its bytes (log entry 18): a management request as received, where a
response goes and its TYPE, the SEQ and TYPE of an outbound tunnel datagram, a record of a mirror cycle. -/
inductive ItemNote where
  | plain
  | request (d : Dgram)
  | response (ip : BitVec 128) (port : Nat) (ver type : Byte)
  | tunnel (seq : Word) (type : Byte)
  | mirror (n : BitVec 16)
deriving DecidableEq, Repr

/-- An item of a queue (R255): a frame item has a header, a record item has none. `cells` lists its cells in link
order, the header cell first; `enq` is its position in its queue's stream (R20, class 0x7). -/
structure QItem where
  hdr : Option Hdr
  body : List Byte
  cells : List Nat
  enq : BitVec 16
  note : ItemNote
deriving DecidableEq, Repr

/-- A queue (R260): its items from HEAD on, and READ and MARK as counts of items past HEAD. -/
structure Queue where
  items : List QItem
  read : Nat
  mark : Nat
  enqs : BitVec 16
deriving DecidableEq, Repr

/-- A tone-map record (R159): `codes` holds the codes of the data subcarriers, `perr` a parity error, `dead` that one has
invalidated it and host software has not written it since (R163). -/
structure TMap where
  codes : List Nat
  opt : BitVec 2
  rate : Bool
  valid : Bool
  auto : Bool
  digest : Byte
  nCbps : Nat
  nDbps : Nat
  users : Nat
  inFlight : Nat
  perr : Bool
  dead : Bool
deriving DecidableEq, Repr

/-- A wake event of the wheel or the overflow list (R209): W_k in ms, P in mesh µs. -/
structure WEvent where
  handle : BitVec 18
  wk : Nat
  p : Int
deriving DecidableEq, Repr

/-! ### Memory test -/

/-- What an unrepaired fault of a memory leaves behind (R163, R196, R197, R257, R455): words of a node-table slot that
fail parity, by location; a directory record or a tone-map record that fails it; a single-bit error in a Carafe structure. -/
inductive Upset where
  | slot (loc : Nat) (words : BitVec 12)
  | dir (h : BitVec 18)
  | tmap (i : BitVec 12)
  | cell (c : BitVec 16) (mem : CarMem)
deriving DecidableEq, Repr

/-- A macro in which March C− found failing cells (R448): the failing rows, the failing columns that span more than
one row, and whether the retest after repair passes. -/
structure MacroFault where
  mac : Nat
  rows : List Nat
  cols : List Nat
  retestOk : Bool
deriving DecidableEq, Repr

/-- The verdict of the digest and signature checks of one image (R69, R71, R318): the SHAKE256 and XMSS computations'
outcome, taken as an operand (log entry 3). -/
structure Verdict where
  digestOk : Bool
  sigOk : Bool
deriving DecidableEq, Repr

/-! ### PTP and Ethernet -/

/-- What the ordinary clock reads of every PTP message: port of arrival, version, domain, transport (true: UDP/IPv6),
master's identity, sequenceId, correctionField in ns. -/
structure PtpHdr where
  port : EPort
  version : Nat               -- versionPTP and minorVersionPTP
  minor : Nat
  domain : Byte
  udp6 : Bool
  master : Word64
  seqId : BitVec 16
  corr : Int
deriving DecidableEq, Repr

/-- An Announce message's data set (R349): what the comparison of IEEE 1588-2019 reads. -/
structure PtpAnn where
  prio1 : Nat
  clockClass : Nat
  accuracy : Nat
  variance : Nat
  prio2 : Nat
  gmId : Word64
  stepsRemoved : Nat
  utcOffset : BitVec 16
  logInterval : Int
deriving DecidableEq, Repr

/-- What the transparent clock reads of a PTP frame (R351 to R353). -/
structure PtpFrame where
  version : Nat
  event : Bool                -- Sync or Delay_Req
  transport : Nat             -- 0 L2, 1 UDP/IPv4, 2 UDP/IPv6
  corr : Int                  -- correctionField, units of 2^-16 ns
  residence : Nat             -- egress stamp less ingress stamp, units of 2^-16 ns
  msgLen : Nat
  udpLen : Nat
  extHdr : Bool
  udpSumZero : Bool
deriving DecidableEq, Repr

/-- A UDP fragment of the endpoint's reassembly (R368). -/
structure Frag where
  id : Word
  off : Nat
  len : Nat
  more : Bool
deriving DecidableEq, Repr

/-- The payload of a received Ethernet frame, as far as the device tells payloads apart (R351, R363, R367). -/
inductive EthPayload where
  | macControl
  | ptp (p : PtpFrame)
  | solicit (target : BitVec 128)
  | echo (dst : BitVec 128)
  | udp (dst : BitVec 128) (port : Nat) (frag : Option Frag)
  | other
deriving DecidableEq, Repr

/-- A frame received on a backhaul port, with what the bridge finds of its egress at that moment: whether the egress
port is busy, and whether the frame fits in the 128 KiB buffer (R365). -/
structure EthFrame where
  len : Nat
  da : BitVec 48
  sa : BitVec 48
  vlans : List (BitVec 12)    -- VIDs of its tags with TPID 0x8100 or 0x88A8, outermost first
  fcsOk : Bool
  egressBusy : Bool
  fits : Bool
  payload : EthPayload
deriving DecidableEq, Repr

/-! ### Twins -/

/-- A heartbeat (R393): its 40 bytes, with what R404 has the receiver take from the partner beside them and R393 gives no
field: whether the partner reports TIME_SET, and the partner's rate that successive heartbeats show, in 2^-40 units (log
entry 106). -/
structure Heartbeat where
  bytes : List Byte
  timeSet : Bool
  rate : Int
deriving DecidableEq, Repr

/-- A write of 1 to PEND: the source, and whether a core's firmware makes it, after handling a delivery (R433, R436). -/
structure PendClear where
  src : Byte
  fw : Bool
deriving DecidableEq, Repr

/-- A mirror cycle (R399 to R401): what its records carry, the count its end record declares, the number of records
received, how many of them fail their CRC, its bytes, and whether it completes a full copy. In a full cycle the tables stand
whole; in a selective one they hold what changed and the structures of a full copy under way, and the `gone` lists what was
freed. -/
structure MirCycle where
  n : BitVec 16
  cutMs : Nat
  full : Bool
  endSeen : Bool
  declared : Nat
  received : Nat
  badCrc : Nat
  completesCopy : Bool
  bytes : Nat
  slots : List (Nat × Slot)
  dir : List (Nat × DirRec)
  nodeQs : List (Nat × Queue)
  sysQs : List (Nat × Queue)
  tmaps : List (Nat × TMap)
  regs : List (Nat × Nat)
  goneSlots : List Nat
  goneDir : List Nat
  goneQs : List Nat
  goneCells : List Nat
deriving DecidableEq, Repr

/-! ### Commands -/

/-- The commands: the rows of spec/opcode_table.json in the table's order. A command whose trigger is a host write
of a register carries the value written; one that the environment or an engine of the device brings about carries
what that event brings. -/
inductive Instr where
  /-- REG_WRITE (R5) -/
  | regWrite (addr : BitVec 16) (v : Byte)
  /-- GROUP_CAPTURE (R6) -/
  | groupCapture (addr : BitVec 16)
  /-- HANDSHAKE_TIMEOUT (R16): the receiving island -/
  | handshakeTimeout (isl : Isl)
  /-- FAB_TAG_CHECK_FAIL (R18): receiving island, sending island, the flit's tag -/
  | fabTagCheckFail (rcv snd : Isl) (tag : Word64)
  /-- ISLAND_STATE_PARITY (R413) -/
  | islandStateParity (isl : Isl)
  /-- ISLAND_RESTART (R417) -/
  | islandRestart (isl : Isl)
  /-- RESUME_PUBLISH (R419) -/
  | resumePublish
  /-- REC_ACK (R422) -/
  | recAck
  /-- FNC_POP (R424) -/
  | fncPop
  /-- DEVICE_FAULT_RESET (R426) -/
  | deviceFaultReset (cause : DevFault)
  /-- CLOCK_LOSS (R54) -/
  | clockLoss (which : RefClk)
  /-- CLOCK_RETURN_RESTART (R54) -/
  | clockReturnRestart
  /-- PORST_ASSERT (R55) -/
  | porstAssert
  /-- PORST_RISE (R57): the strap pins' levels -/
  | porstRise (bootMode : BitVec 2) (twinId : Bool)
  /-- PERST_ASSERT (R59) -/
  | perstAssert
  /-- PERST_RELEASE (R59) -/
  | perstRelease
  /-- AON_RETENTION_LOSS (R50) -/
  | aonRetentionLoss
  /-- DIE_TEMP_UPDATE (R63): the hottest sensor, °C -/
  | dieTempUpdate (t : Int)
  /-- STAGE1_TAMPER_READ (R77) -/
  | stage1TamperRead
  /-- STAGE2_OTP_READ (R282) -/
  | stage2OtpRead
  /-- STAGE3_BIST (R446): the macros that fail, the islands whose logic signature differs, the duration in µs -/
  | stage3Bist (faults : List MacroFault) (lbist : BitVec 16) (durUs : Nat)
  /-- STAGE4_NVM_PROBE (R66): whether the four probe steps succeed -/
  | stage4NvmProbe (probeOk : Bool)
  /-- STAGE5_STAGING_COPY (R84) -/
  | stage5StagingCopy (v : Verdict)
  /-- STAGE6_FW_VERIFY (R320): the verdict on the active firmware, whether the PUF key reconstructs and the root slot
  passes its tag check, whether slot 4 passes its own -/
  | stage6FwVerify (v : Verdict) (pufOk slot4Ok : Bool)
  /-- STAGE7_CONFIG_APPLY (R76): the verdict on the active configuration -/
  | stage7ConfigApply (v : Verdict)
  /-- STAGE8_SEAL (R85) -/
  | stage8Seal
  /-- STAGE9_SYNTH_CAL (R91): which groups lock, and the ports that fail the continuity test, 4 bits a group -/
  | stage9SynthCal (lock : BitVec 3) (portFault : BitVec 12)
  /-- STAGE10_TIME_ACQ (R357) -/
  | stage10TimeAcq
  /-- STAGE11_START_BEACONS (R221) -/
  | stage11StartBeacons
  /-- MESH_GO (R82) -/
  | meshGo
  /-- ATT_KEYGEN (R330) -/
  | attKeygen
  /-- ATT_CACHE_REBUILD_DONE (R330) -/
  | attCacheRebuildDone
  /-- CAL_CMD_GAP (R92) -/
  | calCmdGap (g : Grp)
  /-- CAL_CMD_NOW (R92) -/
  | calCmdNow (g : Grp)
  /-- GRP_TEMP_UPDATE (R91): the group temperature, two's complement °C -/
  | grpTempUpdate (g : Grp) (t : Byte)
  /-- CAL_FORCE_TIMEOUT (R92) -/
  | calForceTimeout (g : Grp)
  /-- CALIBRATION_START (R93) -/
  | calibrationStart (g : Grp)
  /-- CAL_SETTLING (R93) -/
  | calSettling (g : Grp)
  /-- SYNTH_LOCK_CHECK (R93): whether lock is detected -/
  | synthLockCheck (g : Grp) (lock : Bool)
  /-- LOSS_OF_LOCK (R95) -/
  | lossOfLock (g : Grp)
  /-- BURST_BEGIN (R100) -/
  | burstBegin (g : Grp)
  /-- FRAME_DUE (R94) -/
  | frameDue (g : Grp)
  /-- FRAME_JOIN (R99) -/
  | frameJoin (g : Grp)
  /-- GRANT_CHECK (R117): the level of the GRANT pin -/
  | grantCheck (g : Grp) (grant : Bool)
  /-- GRANT_LOW (R117) -/
  | grantLow (g : Grp)
  /-- FIRST_SYMBOL (R100) -/
  | firstSymbol (g : Grp)
  /-- LAST_SYMBOL_END (R100) -/
  | lastSymbolEnd (g : Grp)
  /-- BURST_END (R100) -/
  | burstEnd (g : Grp)
  /-- RL_MISMATCH (R113): the return loss of the window, 0.25 dB units -/
  | rlMismatch (g : Grp) (rl : Nat)
  /-- TUNE_GO (R114) -/
  | tuneGo (g : Grp) (port : BitVec 2)
  /-- TUNE_SEARCH_START (R114) -/
  | tuneSearchStart (g : Grp)
  /-- TUNE_SEARCH_END (R114): GRANT at the tone's check; the return loss measured at the 64 coarse points and at the
  25 fine ones, in turn; the lowest window of the burst (R112); 0.25 dB units -/
  | tuneSearchEnd (g : Grp) (grant : Bool) (coarse fine : List Nat) (low : Nat)
  /-- PLAN_ENT_WRITE (R124): the value written for the entry PLAN_IDX -/
  | planEntWrite (v : Word)
  /-- CAP_BOUNDARY (R223) -/
  | capBoundary
  /-- SCAN_DONE (R217) -/
  | scanDone
  /-- DETECTION (R125): plan entry, option, metric -/
  | detection (ent : Byte) (opt : BitVec 2) (metric : Byte)
  /-- ED_WINDOW (R134): plan entry, the window's power on each aerial in mdBm -/
  | edWindow (ent : Byte) (power : List Int)
  /-- QUALIFIER_END (R134): plan entry, the best option and its metric -/
  | qualifierEnd (ent : Byte) (opt : BitVec 2) (metric : Byte)
  /-- PHR_REPORT (R146): lane, the soft inputs of the PHR's first symbol, and those of its other N_PHR − 1 symbols (R149) -/
  | phrReport (lane : Nat) (first : List Int) (rest : List (List Int))
  /-- ACQ_TIMEOUT (R130) -/
  | acqTimeout (lane : Nat)
  /-- RECEPTION_END (R132) -/
  | receptionEnd (lane : Nat) (r : Reception)
  /-- UL_RELEASE (R27) -/
  | ulRelease
  /-- NF_WINDOW_DONE (R139): plan entry, mean power on each aerial in mdBm -/
  | nfWindowDone (ent : Byte) (power : List Int)
  /-- PHY_MODULATE (R150) -/
  | phyModulate
  /-- TMAP_READ (R161) -/
  | tmapRead
  /-- TMAP_WRITE (R161) -/
  | tmapWrite
  /-- TMAP_FREE (R161) -/
  | tmapFree
  /-- TONEMAP_TABLE_WRITE (R168) -/
  | tonemapTableWrite
  /-- NTB_LOOKUP (R178) -/
  | ntbLookup
  /-- TBL_INSERT (R186) -/
  | tblInsert
  /-- TBL_WRITE (R183) -/
  | tblWrite
  /-- TBL_READ (R183) -/
  | tblRead
  /-- TBL_REMOVE (R183) -/
  | tblRemove
  /-- TBL_LOCK (R183) -/
  | tblLock
  /-- TBL_LOOKUP (R183) -/
  | tblLookup
  /-- PURGE_END (R265) -/
  | purgeEnd
  /-- STASH_DRAIN_TICK (R187) -/
  | stashDrainTick
  /-- SWEEP_VISIT (R190) -/
  | sweepVisit
  /-- COMPARE_REMOVE (R190) -/
  | compareRemove
  /-- LOCK_TIMEOUT (R193): the handle -/
  | lockTimeout (handle : BitVec 18)
  /-- BUCKET_PROCESS (R212) -/
  | bucketProcess
  /-- OVERFLOW_MOVE (R209) -/
  | overflowMove
  /-- HOURLY_CONTACT_CLAMP (R206) -/
  | hourlyContactClamp
  /-- PRED_CMD (R227) -/
  | predCmd
  /-- UL_CLASSIFY (R230) -/
  | ulClassify
  /-- JOIN_INSERT (R233) -/
  | joinInsert
  /-- ACK_WINDOW_CLOSE (R241): the handle whose window closes -/
  | ackWindowClose (handle : BitVec 18)
  /-- BEACON_DISPATCH (R220): the beacon slot -/
  | beaconDispatch (slot : Fin 8)
  /-- MC_BLOCK_DISPATCH (R249): the session -/
  | mcBlockDispatch (sess : Fin 8)
  /-- ABT_FRAME (R427) -/
  | abtFrame
  /-- ABT_NODE (R427) -/
  | abtNode
  /-- ABT_TABLE (R427) -/
  | abtTable
  /-- TX_DESC_FETCH (R273): transmit ring, the 32 bytes of the descriptor, the bytes its BUF names -/
  | txDescFetch (ring : Fin 16) (desc : List Byte) (buf : List Byte)
  /-- ADMIT_RETRY (R258) -/
  | admitRetry
  /-- TBL_DESC_FETCH (R384): the 64 bytes of the command record -/
  | tblDescFetch (rec : List Byte)
  /-- RX_DELIVER (R276): receive ring, the buffer address its descriptor names -/
  | rxDeliver (ring : Fin 16) (buf : Word64)
  /-- TX_COMPLETION_WRITE (R277): transmit ring -/
  | txCompletionWrite (ring : Fin 16)
  /-- TEV_POP (R270) -/
  | tevPop
  /-- SEV_POP (R270) -/
  | sevPop
  /-- CARAFE_DOUBLE_ERROR (R278): cell index, structure -/
  | carafeDoubleError (cell : BitVec 16) (mem : CarMem)
  /-- KEY_UL_CHECK (R299) -/
  | keyUlCheck
  /-- KEY_SECURE (R298) -/
  | keySecure
  /-- EPOCH_CMD (R294) -/
  | epochCmd
  /-- EPOCH_COMPLETE (R294) -/
  | epochComplete
  /-- GRACE_EXPIRE (R296) -/
  | graceExpire
  /-- KU_DEPLOY (R307) -/
  | kuDeploy
  /-- KU_KEYS (R307) -/
  | kuKeys
  /-- KU_RMA_AUTH (R307) -/
  | kuRmaAuth
  /-- KU_SCRAP (R307) -/
  | kuScrap
  /-- TAMPER_EVENT (R310): the sources that fire, whether a key operation is under way -/
  | tamperEvent (src : BitVec 6) (keyOp : Bool)
  /-- SESSION_OPEN (R323) -/
  | sessionOpen
  /-- SESSION_DATA (R324): whether the read-back matches -/
  | sessionData (readBackOk : Bool)
  /-- SESSION_COMMIT (R325) -/
  | sessionCommit
  /-- SESSION_ABORT (R326) -/
  | sessionAbort
  /-- ATTEST (R334) -/
  | attest
  /-- ATT_SIGN_DONE (R334) -/
  | attSignDone
  /-- SESSION_IDLE_EXPIRE (R326) -/
  | sessionIdleExpire
  /-- UPD_KILL (R329) -/
  | updKill
  /-- ATT_TOKEN_TICK (R333) -/
  | attTokenTick
  /-- STEER_UPDATE (R355) -/
  | steerUpdate
  /-- TIME_ACQ_EXPIRE (R357) -/
  | timeAcqExpire
  /-- PTP_ANNOUNCE_RX (R349) -/
  | ptpAnnounceRx (d : Dom) (h : PtpHdr) (a : PtpAnn)
  /-- PTP_SYNC_RX (R348): two-step flag, originTimestamp in ns -/
  | ptpSyncRx (d : Dom) (h : PtpHdr) (twoStep : Bool) (t1 : Int)
  /-- PTP_FOLLOW_UP_RX (R348): preciseOriginTimestamp in ns -/
  | ptpFollowUpRx (d : Dom) (h : PtpHdr) (t1 : Int)
  /-- FOLLOW_UP_TIMEOUT (R348) -/
  | followUpTimeout (d : Dom)
  /-- DELAY_REQ_SEND (R348) -/
  | delayReqSend (d : Dom)
  /-- PTP_DELAY_RESP_RX (R348): receiveTimestamp in ns, the servo's rate estimate in 2^-40 units and the fitted span of
  the last QUAL_N offsets in ns (R350) -/
  | ptpDelayRespRx (d : Dom) (h : PtpHdr) (t4 : Int) (freq : Int) (span : Nat)
  /-- SYNC_TIMEOUT (R350) -/
  | syncTimeout (d : Dom)
  /-- ANNOUNCE_TIMEOUT (R350): the port on which the announcements stopped -/
  | announceTimeout (d : Dom) (port : EPort)
  /-- PPS_EDGE (R41) -/
  | ppsEdge
  /-- SPINE_TAP_ERROR (R344): the tap's island -/
  | spineTapError (isl : Isl)
  /-- LINK_CHANGE (R362): port, whether its bring-up is complete, the level of its LOS pin -/
  | linkChange (p : EPort) (up los : Bool)
  /-- BRIDGE_RX (R364): the ingress port and the frame -/
  | bridgeRx (p : EPort) (f : EthFrame)
  /-- REASSEMBLY_TIMEOUT (R368): the reassembly -/
  | reassemblyTimeout (id : Word)
  /-- DATAGRAM_RX (R371) -/
  | datagramRx (d : Dgram)
  /-- MGT_SESSION (R373) -/
  | mgtSession
  /-- MGT_KEY_UPDATE (R373) -/
  | mgtKeyUpdate
  /-- MGT_STATUS (R374) -/
  | mgtStatus
  /-- TUN_DOWN (R376) -/
  | tunDown
  /-- TUN_TABLE (R376) -/
  | tunTable
  /-- TUN_ACK_RX (R377) -/
  | tunAckRx
  /-- TUN_ACK_SEND (R376) -/
  | tunAckSend
  /-- TUN_DRAIN (R377) -/
  | tunDrain
  /-- TUN_RTO_EXPIRE (R377) -/
  | tunRtoExpire
  /-- DOORBELL (R383): RING, TBL and the new PROD -/
  | doorbell (ring : BitVec 5) (tbl : Bool) (prod : BitVec 16)
  /-- RING_EN_WRITE (R382): the value written to RING_EN of the ring RING_SEL names -/
  | ringEnWrite (en : Bool)
  /-- DMA_ERROR (R383): the ring, coded as RING_SEL -/
  | dmaError (ring : BitVec 6)
  /-- MBX_SESSION (R385): the record at MBX_ADDR -/
  | mbxSession (r : SessRec)
  /-- MBX_KEY_UPDATE (R385): the message at MBX_ADDR -/
  | mbxKeyUpdate (m : KuMsg)
  /-- HEARTBEAT_SEND (R393) -/
  | heartbeatSend
  /-- HEARTBEAT_RX (R393) -/
  | heartbeatRx (hb : Heartbeat)
  /-- HEARTBEAT_MISS (R406): XLOCK is held (false: sensed released for the claim window) -/
  | heartbeatMiss (held : Bool)
  /-- XLOCK_RELEASE_SENSED (R394) -/
  | xlockReleaseSensed
  /-- CLAIM_CHECK (R394): the sample (true: another unit drives the line low) -/
  | claimCheck (low : Bool)
  /-- TAKEOVER (R407): the time since the trigger in µs -/
  | takeover (us : Nat)
  /-- MIRROR_CUT (R399) -/
  | mirrorCut
  /-- MIRROR_CYCLE_APPLY (R402) -/
  | mirrorCycleApply (c : MirCycle)
  /-- SYNC_DONE (R402) -/
  | syncDone
  /-- TW_SWAP (R409) -/
  | twSwap
  /-- TW_CANCEL (R409) -/
  | twCancel
  /-- SWAP_ARM_TIMEOUT (R409) -/
  | swapArmTimeout
  /-- RELAY_RECORD (R410) -/
  | relayRecord (r : SessRec)
  /-- EVENT_LATCH (R433): the source -/
  | eventLatch (src : Byte)
  /-- SRC_EN_WRITE (R434): the source, the value written to EN -/
  | srcEnWrite (src : Byte) (en : Bool)
  /-- PEND_CLEAR (R433, R436): the source and who clears it -/
  | pendClear (c : PendClear)
  /-- TGT_WRITE (R441): the source, the value written to TGT -/
  | tgtWrite (src : Byte) (tgt : BitVec 5)
  /-- REPLAY (R442) -/
  | replay
  /-- SWI (R442): the bits written -/
  | swi (bits : Byte)
  /-- BIST_MEMORY (R459): BIST_GRP, and the macros that fail -/
  | bistMemory (grps : BitVec 4) (faults : List MacroFault)
  /-- BIST_LOGIC (R459): BIST_GRP, and the islands whose signature differs -/
  | bistLogic (grps : BitVec 4) (lbist : BitVec 16)
  /-- BIST_PERC_PASS (R459) -/
  | bistPercPass
  /-- FUSE (R452) -/
  | fuse
  /-- PERC_SLICE (R455): the faults the algorithm finds, and what a fault left unrepaired has upset -/
  | percSlice (faults : List MacroFault) (hurt : List Upset)
  /-- PERC_CUTOFF (R455) -/
  | percCutoff
  /-- AON_SWITCH_OVER (R49): whether bank IO4 is in its range, and whether VBAT is 1.7 V or above -/
  | aonSwitchOver (io4 vbatOk : Bool)
  /-- RC_READ (R7): the address read -/
  | rcRead (addr : BitVec 16)
  /-- PCIE_LINK_TRAINED (R462): speed and width as PCIE_STAT codes them -/
  | pcieLinkTrained (speed width : BitVec 2)
  /-- REQ_RISE (R116) -/
  | reqRise (g : Grp)
deriving DecidableEq, Repr

end Sys2Proof
end

