-- ==== Sys2Proof/Decode.lean ====
section
/-!
DEFINITION. spec/opcode_table.json gives no row any bits: every row's list of fields is empty. No word spells a command,
so the decoder of table words answers none.
-/

namespace Sys2Proof

/-- The command a word of the table's bits spells: none, since the table gives no row bits. -/
def decodeTableWord (_nbits _w : Nat) : Option Instr := none

end Sys2Proof
end

