-- ==== Sys2Proof/Config.lean ====
section
/-!
DEFINITION. What the manual leaves open, as opaque constants: nothing in Lean can evaluate one, so a statement
about a free value holds whatever the value is (log entries 1 and 2).
-/

namespace Sys2Proof.Config

/-- The n-th value of `w` bits that the device takes from a source the manual leaves open: the entropy source
(BOOT_ID of R370, the first session number of R323, the seeds of R330), the free list's choice of cells (R254), IQCAL (R119),
diagnostic measurements. Log entry 1. -/
opaque freeBits : (n w : Nat) → Nat

/-- DEV_IDENT = the first 32 bytes of SHAKE256(DIE_ID ‖ attestation public key) (R284). Log entry 2. -/
opaque devIdent : (dieId : BitVec 128) → (attRoot attSeed : BitVec 256) → BitVec 256

/-- The root of the XMSS-SHAKE256_20_256 tree that follows from the seeds of slot 4 (R330). Log entry 2. -/
opaque attRootOf : (skSeed skPrf pubSeed : BitVec 256) → BitVec 256

/-- The 32-byte words of a signature of the attestation key's leaf over the 192 bytes of a report (R317, R334): word 0 the
randomiser, words 1 to 67 the chain values, words 68 to 87 the path. Log entry 2. -/
opaque attWord : (skSeed skPrf pubSeed : BitVec 256) → (leaf : Nat) → (report : List Byte) → (i : Nat) → BitVec 256

/-- The vendor's public key, held in ROM (R317): its value is not stated. Log entry 2. -/
opaque vendorPub : BitVec 512

/-- The test root, fixed in ROM (R285): its value is not stated. Log entry 2. -/
opaque testRoot : BitVec 256

/-- The body of a mirror record of kinds 0x03, 0x05 and 0x08 over what the kind carries (R400): the table names its parts and
states no layout. Log entry 106. -/
opaque mirBody : (rkind : Nat) → (parts : List Byte) → List Byte

/-- Octet `i` of a frame secured with AES-128-CCM* under a key, with the nonce's EUI-64, frame counter and level (R298). Log
entry 3. -/
opaque ccmOctet : (k : Key) → (eui : Word64) → (fc : Word) → (level : Nat) → (frame : List Byte) → (i : Nat) → Byte

/-- Samples of symbol `symbol` of a PPDU of an option: the IFFT of its data tones, each a coordinate pair with the square of
the reciprocal of its normalisation, raised by a power gain, with the standard's pilots, and the cyclic prefix before it; with
no tones, of its training fields (R150). The precision of the transform and the standard's pilot and training sequences are not stated. Log
entry 98. -/
opaque samples : (opt : BitVec 2) → (symbol : Nat) → (gain : Nat × Nat) →
  (tones : List (Int × Int × Nat)) → List (Int × Int)

end Sys2Proof.Config
end

