-- ==== Sys2Proof/Machine/State.lean ====
section
/-!
DEFINITION. The state of the block: plain data. Registers stand in one sparse list (`regs`), keyed as
Machine/RegMap.lean says; memories, queues, logs and the work in flight stand in fields of their own. INVENTORY.md
lists every piece with the rule that names it.
-/

namespace Sys2Proof.Machine

/-- The faults a step can end in. None: every command of the table has an effect in every state, and an error the
device detects in itself is an effect on its state (R413), never a stop of the model. -/
inductive Fault where
deriving DecidableEq, Repr

/-- The refusals a step can end in. -/
inductive Refusal where
  /-- Answered by no arm of this model's dispatch: every command has its meaning. Safe. -/
  | notModelled (mnemonic : String)
deriving DecidableEq, Repr

/-! ### Work on its way to the air -/

/-- Modulations (R142, R155). -/
inductive Modn where
  | bpsk | qpsk | qam16 | qam64
deriving DecidableEq, Repr

/-- A point: its coordinates before normalisation, and the modulation whose normalisation applies: 1, 1/√2, 1/√10,
1/√42. -/
structure Point where
  re : Int
  im : Int
  modn : Option Modn        -- none: the tone is off
deriving DecidableEq, Repr

/-- A PPDU between its LTF and its end: the bits of its headers, its PSDU with the FCS, the data tones of its header symbols
and of its PSDU symbols, and the power gain of its loaded tones. -/
structure Ppdu where
  opt : BitVec 2
  phr : List Bool
  tmh : List Bool
  psdu : List Byte
  header : List (List Point)
  data : List (List Point)
  gain : Nat × Nat
deriving DecidableEq, Repr

/-- The item kinds that go to the air (R19). -/
inductive TxKind where
  | dl | ack | beacon | mc
deriving DecidableEq, Repr

/-- Where a frame stands at its group: waiting for a burst, part of the burst under way, past the tests of its due
instant (R94), past its GRANT check, on the air, past its last symbol (R100). -/
inductive Phase where
  | waiting | joined | due | checked | onAir | ended
deriving DecidableEq, Repr

/-- A DL_FRAME, ACK_FRAME, BEACON or MC_BLOCK item between SCH and the air: its entry copy (R24) and tag (R17). -/
structure TxItem where
  kind : TxKind
  grp : Grp
  copy : EntryCopy
  eui : Word64
  seq : BitVec 16           -- STREAM_SEQ (R20)
  idx : Nat                 -- reception of an acknowledgement; beacon slot; multicast session
  gid : Byte                -- group identifier of a block or secured beacon
  epoch : Byte
  prio : Nat
  first : Nat               -- first-symbol instant, mesh ns
  dur : Nat                 -- from first symbol to last-symbol end, ns
  fence : Bool
  host : Bool               -- it came from a host descriptor or a headless tunnel frame (HOST of R17)
  secured : Bool
  ready : Bool              -- its waveform has reached the group
  start : Bool              -- a start beacon (R221)
  ies : List (Nat × List Byte)     -- Header IEs that the device inserts: element ID, contents (R228)
  own : Nat                 -- octets of a beacon ahead of its payload: the device's header and time element (R220)
  body : List Byte
  level : Nat               -- security level and key it is secured under (R298); no key: not secured
  key : Option Key
  ppdu : Option Ppdu        -- its waveform, once PHY has modulated it (R150)
  phase : Phase
deriving DecidableEq, Repr

/-- A burst under way (R96 to R101), with the values it began with (R109). -/
structure Burst where
  first : Nat               -- T
  e : Nat                   -- E as it stands
  port : Option Nat
  frames : List TxItem      -- its frames, less those that it lost
  search : Option Nat       -- the port of a tuner search
  paOn : Option Nat         -- PA_EN rises at this instant; none: no frame has passed its check
  trOn : Nat                -- TR_SW rises at this instant
  drvOn : Nat               -- the driver of the transmit port is enabled at this instant
  req : Bool                -- REQ has risen for it (R116)
  ramp : Nat
  lead : Nat
  lag : Nat
  pwr : Nat
  aux : List Nat
  allow : Bool
deriving DecidableEq, Repr

/-- A pending calibration (R92): when it became pending (uptime, ticks), and whether it is forced. -/
structure CalPend where
  since : Nat
  forced : Bool
deriving DecidableEq, Repr

/-- A pending tuner search (R114). -/
structure TunePend where
  port : Nat
  since : Nat
deriving DecidableEq, Repr

/-- The work in flight of a front-end group (R118). -/
structure GrpSt where
  cal : Option CalPend
  calAt : Nat               -- uptime at which the calibration under way started
  tune : Option TunePend
  burst : Option Burst
  arrive : List TxItem      -- items whose waveform has arrived and whose join is not decided (R99)
  wait : List TxItem        -- items that wait for a burst of their own
  grant : Bool              -- the GRANT pin as last sampled
  gap : Bool                -- a gap granted by SCH has begun (R222)
  req : Option Nat          -- T of the burst that is decided and not yet begun, once REQ has risen for it (R116)
  tuner : List (Nat × Nat)  -- codes in the tuners of the four ports, series and shunt (R109, R115)
  rxEn : BitVec 4           -- PORT_RX_EN and PORT_TX_EN in effect (R109)
  txEn : BitVec 4
deriving DecidableEq, Repr

/-! ### The Grinder and PHY -/

/-- A decode lane that is not IDLE (R128). -/
structure Lane where
  ent : Byte
  opt : BitVec 2
  metric : Byte
  since : Nat               -- uptime of its detection
  decoding : Bool
  priv : Bool
  aer : BitVec 4
  mcs : BitVec 3
  len : Nat
  scr : BitVec 2            -- SCRAMBLER of its PHR (R145)
  rsv : Bool                -- reserved when it took its detection (R133)
deriving DecidableEq, Repr

/-- Noise floor of a plan entry (R139): one value an aerial; uptime of the last completed window. -/
structure NfSt where
  vals : List Nat
  done : Option Nat
deriving DecidableEq, Repr

/-- An EVENT item on its way to IRQ (R19, R32): its source, and its island-local count (R20, class 0x8). -/
structure EventItem where
  src : Nat
  seq : BitVec 16
deriving DecidableEq, Repr

/-- A capacity change that awaits its boundary (R223). -/
inductive CapChange where
  | plan (ent : Byte) (v : Word)
  | ports (g : Grp) (rx tx : BitVec 4)
  | twinJoin
  | twinLeave
deriving DecidableEq, Repr

/-- A proposal slot (R165). -/
structure PropSlot where
  handle : BitVec 18
  first : Nat               -- uptime of its first uplink
  n : Nat
  snr : List Nat
  chan : Byte
  opt : BitVec 2
  gen : Byte
  last : Nat                -- END_TIME of the last uplink merged
deriving DecidableEq, Repr

/-- A tone-map change on its way to NTB (R168), with the proposal that made it. -/
structure PropWrite where
  handle : BitVec 18
  gen : Byte
  tmap : BitVec 12
  action : Nat
  chan : Byte
  last : Nat
  prop : TMap
deriving DecidableEq, Repr

/-! ### NTB -/

/-- A table command waiting in NTB or HST (R182): its table-update sequence, its record, whether it came through the
tunnel. -/
structure TblCmd where
  seq : BitVec 16
  bytes : List Byte
  tunnel : Bool
  aborted : Bool            -- an ABORT reached it before its bank write (R183)
deriving DecidableEq, Repr

/-- A completion record of a table command (R185), kept until HST has written it (R386). -/
structure TblDone where
  seq : BitVec 16
  status : Byte
  reason : Byte
  handle : BitVec 18
  gen : Byte
  loc : BitVec 19
  moves : Nat
  par : BitVec 12
  entry : Option (List Byte)
  tunnel : Bool
deriving DecidableEq, Repr

/-! ### SCH -/

/-- A transmission SCH has dispatched and not settled (R214, R239). -/
structure Try where
  kind : TxKind
  grp : Grp
  handle : BitVec 18
  seq : BitVec 16
  dsn : Byte
  chan : Byte
  idx : Nat
  first : Nat
  dur : Nat
  committed : Bool
  start : Bool
  opp : Bool
  rep : Nat                 -- REPEAT of the entry as SCH read it at dispatch (R25, R242)
deriving DecidableEq, Repr

/-- How a try ended (R214, R225, R241, R295). -/
inductive TryEnd where
  | acked
  | nak
  | noAck
  | never (synth : Bool)
  | epoch
  | lost                    -- rewound by a fault, with nothing counted
deriving DecidableEq, Repr

/-- An acknowledgement window of R239 whose try has been settled before the window ends: group, first symbol and airtime
of the downlink. -/
structure AckWindow where
  grp : Grp
  first : Nat
  dur : Nat
deriving DecidableEq, Repr

/-- A declared acknowledgement (R235) until it is handed on or withdrawn. -/
structure AckDecl where
  id : Nat
  grp : Grp
  chan : Byte
  opt : BitVec 2
  mcs : BitVec 3
  endTime : Nat
  classified : Bool
  opp : Option (BitVec 18)  -- PEND = 1: the node whose head frame follows (R247)
deriving DecidableEq, Repr

/-! ### CAR and HST -/

/-- Where an item that waits for admission goes (R258). -/
inductive Target where
  | node (h : BitVec 18)
  | sys (q : Nat)
deriving DecidableEq, Repr

/-- A transmit frame fetched and not yet enqueued. -/
structure WaitItem where
  tgt : Target
  hdr : Hdr
  body : List Byte
deriving DecidableEq, Repr

/-- A device item that waits for a credit toward CAR (R16): the queue it goes to, its header cell, its bytes. -/
structure DevItem where
  q : Nat
  hdr : Option Hdr
  body : List Byte
  note : ItemNote
deriving DecidableEq, Repr

/-- The bytes of a transmit completion that settle a descriptor (R274). -/
structure TxDone where
  status : Byte
  reason : Byte
  tries : Nat
  skips : Nat
  dsn : Byte
  hseq : BitVec 16
  smiss : Bool
deriving DecidableEq, Repr

/-- A transmit descriptor between FETCH and COMPL (R272), or a DOWN record of the tunnel (R375): its index, the frame
it carries, whether it is enqueued, its completion once settled, the SEQ of its datagram. -/
structure TxSlot where
  idx : BitVec 16
  tgt : Nat
  handle : BitVec 18
  hseq : BitVec 16
  enqueued : Bool
  done : Option TxDone
  tunSeq : Option Word
deriving DecidableEq, Repr

/-- What becomes of the UDP checksum of a frame that the transparent clock corrects (R352): kept, set to zero, or kept valid by the last
two octets of the payload. -/
inductive UdpSum where
  | kept | zeroed | padded
deriving DecidableEq, Repr

/-- A datagram that the endpoint sends (R366 to R370): the port it leaves by, its VLAN tag (0: none), UDP ports, the 32 bytes of its
header, the key that its payload and tag are made under (none: an INFO reply, in plaintext with no tag), its payload, and
the IPv6 fragments it is cut into. -/
structure DgOut where
  eport : EPort
  vid : Nat
  srcPort : Nat
  dst : BitVec 128
  dstPort : Nat
  head : List Byte
  key : Option Key
  payload : List Byte
  frags : List (Nat × Nat)
deriving DecidableEq, Repr

/-- What the block drives outside: host memory (`addr` the first byte's address), MSI-X, cores, backhaul, mirror link. -/
inductive Out where
  | msix (vec : Nat) (entry : Nat × Nat)        -- message address and data of its table entry
  | core (c : Nat)
  | txCompl (ring : Nat) (idx : BitVec 16) (addr : Nat) (c : TxDone)
  | status (ring : Nat) (addr : Nat) (bytes : List Byte)
  | rxData (ring : Nat) (idx : BitVec 16) (buf : Word64) (data : List Byte)
  | rxCompl (ring : Nat) (idx : BitVec 16) (addr : Nat) (bytes : List Byte)
  | tblEntry (idx : BitVec 16) (addr : Nat) (bytes : List Byte)
  | tblCompl (idx : BitVec 16) (addr : Nat) (bytes : List Byte)
  | mbxRsp (addr : Word64) (bytes : List Byte)
  | ethFrame (port : EPort) (f : EthFrame) (corr : Int) (sum : UdpSum) (fcsOk : Bool)
  | ndAdvert (port : EPort) (addr : BitVec 128)
  | echoReply (port : EPort) (addr : BitVec 128)
  | delayReq (d : Dom) (port : EPort) (udp6 : Bool) (domain : Byte) (id : Word64) (seqId : BitVec 16)
  | datagram (d : DgOut)
  | pps (ns : Nat)
  | heartbeat (hb : Heartbeat)
  | mirror (c : MirCycle)
  | relay (r : SessRec)
deriving DecidableEq, Repr

/-! ### Recovery -/

/-- A fence in force (R420): stream class and index, the handle of a node stream, L. -/
structure Fence where
  cls : Nat
  idx : Nat
  handle : BitVec 18
  l : BitVec 16
deriving DecidableEq, Repr

/-- An entry of the fence list (R424). -/
structure FncEntry where
  handle : BitVec 18
  hseq : BitVec 16
  gen : Byte
deriving DecidableEq, Repr

/-! ### KEY: the always-on domain, OTP and NVM -/

/-- The key store (R288); `good`: MAGIC and DIGEST check. -/
structure KeyStore where
  good : Bool
  sgen : BitVec 16
  epoch : Byte
  left : Nat
  kuCtr : Nat
  wseq : Nat
  net : BitVec 256
  groups : List GroupRec
deriving DecidableEq, Repr

/-- A wrapped copy in the NVM region (R289): its slot, its header's WSEQ, the K_nvm that its ciphertext and tag are made under, the
store it holds. -/
structure KeyCopy where
  slot : Nat
  wseq : Nat
  key : Option Key
  store : KeyStore
deriving DecidableEq, Repr

/-- A record of the counter log (R301) or, with SGEN and EPOCH 0, of the leaf log (R331). -/
structure CtrRec where
  seq : Nat
  sgen : BitVec 16
  epoch : Byte
  block : Nat
deriving DecidableEq, Repr

/-- A record of the fault and repair log (R451). -/
structure LogRec where
  seq : Nat
  mac : Nat
  kind : Nat
  src : Nat
  index : Nat
deriving DecidableEq, Repr

/-- A repair in effect (R448): macro, row (false) or column (true), index, source. -/
structure Repair where
  mac : Nat
  col : Bool
  index : Nat
  src : Nat
deriving DecidableEq, Repr

/-- The always-on domain (R49, R50, R310, R316). -/
structure Aon where
  latch : Bool
  src : BitVec 6
  cnt : Byte
  when_ : BitVec 2
  kop : Bool
  lost : Bool               -- the retention flag of R50
  store : KeyStore
deriving DecidableEq, Repr

/-- A root slot of OTP (R285): 32 bytes of ciphertext and a 16-byte tag, as the K_slot they are made under and the root (log
entry 3). -/
structure RootSlot where
  key : Key
  root : BitVec 256
deriving DecidableEq, Repr

/-- Slot 4 of OTP (R330): the ciphertext of SK_SEED, SK_PRF and the public seed, and its tag, as the K_slot and the seeds. -/
structure AttSlot where
  key : Key
  skSeed : BitVec 256
  skPrf : BitVec 256
  pubSeed : BitVec 256
deriving DecidableEq, Repr

/-- The one-time-programmable memory. -/
structure Otp where
  lc0 : BitVec 5
  lc1 : BitVec 5
  lc2 : BitVec 5
  dieId : BitVec 128
  devEui : Word64
  salt0 : BitVec 128
  salt1 : BitVec 128
  helper : Option (BitVec 256)          -- PUF helper data, as the PUF key that it reconstructs (R286); none: not enrolled
  provRoot : Option RootSlot
  rmaRoot : Option RootSlot
  ownerRoot : Option RootSlot
  ownerPub : Option (BitVec 512)
  ownerSet : Byte
  slot4 : Option AttSlot
  attRoot : Option (BitVec 256)
  attSeg : Nat
  kuCtr : Nat
  arb : Nat
  repairs : List Repair
deriving DecidableEq, Repr

/-- The external NVM (R67): bytes of header, images and staging; the logs and key copies as records. -/
structure Nvm where
  bytes : List Host.Cell
  ctrLog : List CtrRec
  leafLog : List CtrRec
  cache : Bool              -- the top-tree cache agrees with ATT_ROOT (R330)
  copies : List KeyCopy
  lastCopy : Option Nat     -- slot written last (R289)
  kuMove : Option (BitVec 5)  -- bits of an RMA_AUTH or SCRAP past its commit point whose transition is not made (R307)
  repLog : List LogRec
  faultLog : List LogRec
  logSeq : Nat
deriving DecidableEq, Repr

/-! ### Update sessions and attestation -/

/-- The open update session (R323). -/
structure Sess where
  src : SessSrc
  num : Nat
  kind : Nat
  len : Nat
  next : Nat
  lastCrc : Word
  answered : Nat            -- uptime of the last response
deriving DecidableEq, Repr

/-- Where a response goes (R373, R385, R410). -/
structure ReplyTo where
  src : SessSrc
  ip : BitVec 128
  port : Nat
  ver : Byte
deriving DecidableEq, Repr

/-- An attestation under way (R334). -/
structure Attest where
  reply : ReplyTo
  nonce : BitVec 256
  leaf : Nat
deriving DecidableEq, Repr

/-! ### TIM and ETH -/

/-- A foreign master that an instance hears on a port (R349): its data set, and the uptimes of its last two Announce
messages there. -/
structure Foreign where
  id : Word64
  port : EPort
  ann : PtpAnn
  last : Nat
  prev : Option Nat
deriving DecidableEq, Repr

/-- A Sync whose exchange is not complete (R348): sequenceId, t2, t1 once known, sum of corrections. -/
structure SyncSt where
  seqId : BitVec 16
  t2 : Int
  t1 : Option Int
  corr : Int
deriving DecidableEq, Repr

/-- An ordinary-clock instance (R348, R350): `ref` is the domain's time at an uptime. -/
structure DomSt where
  foreign : List Foreign
  master : Option Word64
  sync : Option SyncSt
  req : Option (BitVec 16 × Int)   -- Delay_Req sent: sequenceId, t3
  reqSeq : BitVec 16
  run : Nat                 -- complete and consecutive exchanges
  ref : Option (Int × Nat)
deriving DecidableEq, Repr

/-- A reassembly (R368). -/
structure Reasm where
  id : Word
  parts : List (Nat × Nat × Bool)
deriving DecidableEq, Repr

/-- The endpoint, management channel and tunnel. -/
structure EthSt where
  gwPort : EPort
  reasm : List Reasm
  dgrams : List (Bool × Dgram)     -- tunnel datagrams accepted and not yet applied; false: only its SEQ counts (R371, R376)
  mgtRx : Word              -- last SEQ accepted, management
  ctlRx : Word              -- last SEQ accepted, tunnel control
  mgtTx : Word              -- next SEQ of the device, management
  ctlTx : Word              -- next SEQ of the device, tunnel control
  mgtVer : Byte
  tunVer : Byte
  infoAt : Option Nat
  ackDue : Bool
  rtoCnt : Nat
  rot : Nat                 -- rotation of R377
  outQ : List (Byte × List Byte)   -- EVENT, TX_DONE, TABLE_DONE waiting for their turn
deriving DecidableEq, Repr

/-! ### TWN and TST -/

/-- The mirrored tables as the last cut held them: the base of a selective cycle (R401). -/
structure MirBase where
  slots : List (Nat × Slot)
  dir : List (Nat × DirRec)
  nodeQs : List (Nat × Queue)
  sysQs : List (Nat × Queue)
  tmaps : List (Nat × TMap)
deriving DecidableEq, Repr

/-- A structure that a full copy streams (R402). -/
inductive CopyPart where
  | slot (loc : Nat)
  | dir (h : Nat)
  | nodeQ (h : Nat)
  | sysQ (q : Nat)
  | tmap (i : Nat)
deriving DecidableEq, Repr

/-- The twin link and the interlock. -/
structure TwnSt where
  partner : BitVec 3        -- state, arming, cycle, TIME_SET and rate of the partner's latest good heartbeat
  partnerArmed : Bool
  partnerCycle : BitVec 16
  partnerTime : Bool
  partnerRate : Int
  ofs : Option Int          -- TW_OFS before it saturates
  good : Nat                -- consecutive good heartbeats
  miss : Nat                -- consecutive missed heartbeats
  txSeq : Word              -- next HB_SEQ
  sent : List (Word × Nat)  -- HB_SEQ and TX_TIME of the latest heartbeats sent
  rxSeq : Word              -- HB_SEQ and arrival of the partner's latest heartbeat
  rxTime : Nat
  from_ : BitVec 3          -- state a claim came from
  claiming : Bool           -- a unit that is OFF runs its claim
  claimAt : Nat             -- uptime at the claim instant C (R394)
  joined : Bool             -- mirroring to a standby
  fullCopy : Bool           -- a full copy is due
  cutMs : Nat               -- cut of the last cycle applied or taken, mesh ms
  held : Option MirCycle    -- a cycle received in part and not yet applied
  copied : Bool             -- the full copy has been applied
  swapStop : Bool           -- swap: dispatching has stopped (R409)
  final : Option (BitVec 16)  -- swap: the final cycle
  base : Option MirBase
  copy : Option (List CopyPart)  -- a full copy under way: what is still to be cut
  copyEnd : Option (BitVec 16)  -- the cycle that completed the last full copy
  sending : List MirCycle   -- cycles cut whose end record has not gone, oldest first (R403)
  toLink : List (BitVec 16 × List Byte)  -- their records that have no cells of queue 0x28 yet
deriving DecidableEq, Repr

/-- The tester. -/
structure TstSt where
  repairs : List Repair
  newRep : List Repair      -- repairs of stage 3 to log at stage 4
  demand : Nat              -- slices left of a demand PERC_PASS
deriving DecidableEq, Repr

/-- Why the device is held in reset (R88). -/
inductive Hold where
  | none | porst | clock | thermal
deriving DecidableEq, Repr

/-- Reset, time, host access and recovery. -/
structure SysSt where
  hold : Hold
  perst : Bool                          -- PERST_N low
  temp : Int                            -- hottest sensor at the last update, °C (R63, R64)
  hotClear : Bool                       -- THERM_WARN was cleared while hot, since the last update (R64)
  linkUp : Bool                         -- PCIe link (R462)
  xoOk : Bool
  sdOk : Bool
  uptime : Nat                          -- periods of 8 ns since the reset (R339)
  timeNs : Nat                          -- the time base (R339)
  timeFrac : Nat                        -- its accumulator below the nanosecond
  meshRun : Bool                        -- counting, from stage 2 (R340)
  regW : BitVec 16                      -- number of the next host write (R421)
  fltCount : List Nat                   -- islands faulted in this generation, one entry a fault (R423)
  fences : List Fence
  fenceList : List FncEntry
  bootAt : Nat                          -- mesh ns at which stage 11 began or MESH_GO was written (R221)
  abt : Option Nat                      -- an abort that waits for a stopped island on its path (R427)
  fwHeader : List Byte                  -- header of the running firmware
  cfgHeader : List Byte                 -- header of the applied configuration
  startLeft : List Nat                  -- start beacons neither sent nor missed (R221)
  sessQ : List (ReplyTo × SessRec)      -- session records that wait in SYS (R328)
  sess : Option Sess
  sessNo : Nat                          -- next session number (R323)
  sessPast : Option (Nat × Bool)        -- last ended session, and whether it ended COMPLETED (R326)
  commitAt : Option Nat                 -- uptime of the last COMMITTED program (R329)
  localSeq : List (Nat × Nat)           -- by island: count of its device-internal items (R20, class 0x8)
deriving DecidableEq, Repr

/-- IRQ: items on their way, and the MSI-X state of HST (R435). -/
structure IrqSt where
  events : List EventItem               -- EVENT items not yet latched, oldest first
  held : List Nat                       -- deliveries undecided while HST is stopped
  atCore : List (Nat × Bool)            -- deliveries to cores not yet handled: the source, whether the latch still stands (R436)
  msixEn : Bool
  msixMask : Bool
  vecMask : BitVec 16
  table : List (Nat × Nat)              -- MSI-X table: message address and data of the 16 vectors (R381)
  pba : BitVec 16
deriving DecidableEq, Repr

/-- The Grinder. -/
structure GrnSt where
  plan : List (Nat × Word)              -- written values (R122)
  live : List (Nat × Word)              -- values in effect
  cap : List (Nat × CapChange)          -- boundary (ms) and change (R223)
  lanes : List (Nat × Lane)             -- lanes that are not IDLE
  nf : List (Nat × NfSt)
  qual : List Nat                       -- entries whose qualifier runs (R134)
  recvNo : Nat                          -- number of the next reception
  late : List Nat                       -- lanes whose next PHR report is of a reception that was pre-empted (R137)
deriving DecidableEq, Repr

/-- PHY. -/
structure PhySt where
  tmaps : List (Nat × TMap)             -- records that are not all zero (R158)
  props : List PropSlot
  propWrites : List PropWrite
  ul : List UlItem                      -- decoded frames not yet released (R27)
  tx : List TxItem                      -- items to modulate
deriving DecidableEq, Repr

/-- NTB. -/
structure NtbSt where
  slots : List (Nat × Slot)             -- VALID slots by location (R180)
  dir : List (Nat × DirRec)             -- VALID directory records by handle
  locks : List (Nat × Nat)              -- handle, uptime of LOCK (R193)
  drainAt : Nat                         -- stash index last attempted (R187)
  sweepCmp : Option Nat                 -- location whose compare-and-remove is due (R190)
  ul : List UlItem
  cmdQ : List TblCmd
  done : List TblDone
  tblSeq : BitVec 16                    -- next table-update sequence of the tunnel
deriving DecidableEq, Repr

/-- SCH. -/
structure SchSt where
  ul : List UlItem
  joinQ : List UlItem                   -- join requests to insert (R233)
  acks : List AckDecl
  tries : List Try
  wins : List AckWindow                 -- windows that outlive their try (R239)
  wheel : List WEvent
  ovf : List WEvent
  lastBucket : Option Nat               -- last bucket processed (ms)
  liveGrps : List Nat                   -- groups that had a live event in it (R222)
  scan : Option (List Nat)              -- UNREACHABLE scan under way: removed plan indices
  scanDue : Bool                        -- the scan of R225 waits for NTB
  held : List (Try × TryEnd)            -- outcomes that wait for a credit toward CAR or NTB (R16)
  placeQ : List (BitVec 18)             -- nodes whose wake has ended and whose entry waits for NTB (R16)
  pred : Option (BitVec 18)             -- prediction probe under way (R227)
  bcnLast : List (Nat × Nat)            -- by beacon slot: first symbol of the beacon dispatched last (R220)
  mcLast : List (Nat × Nat)             -- by session: first symbol of the block dispatched last (R249)
deriving DecidableEq, Repr

/-- The Carafe. -/
structure CarSt where
  nodeQs : List (Nat × Queue)           -- queues that are not empty, by handle
  sysQs : List (Nat × Queue)            -- by queue number
  inbox : List DevItem                  -- device items that wait while CAR is stopped (R16)
  admitQ : List WaitItem                 -- items that wait for admission (R258)
  orphans : List (BitVec 18 × Queue)    -- queues whose entry has been removed: no anchors reach them (R196, R265)
  purge : List (BitVec 18)              -- removed entries whose frames a purge still looks for (R265)
  tevLast : List Byte                   -- record bytes of the TEV window as last read (R270)
  sevLast : List Byte
  upsets : List (Nat × CarMem)          -- words with a single-bit error not yet corrected (R257)
  deCells : List Nat                    -- cells with a double error that CAR's restart will meet (R278, R279)
deriving DecidableEq, Repr

/-- The PCIe configuration state that a host can set (R59, R381): memory space and bus master enable, the two base addresses, the
subsystem's power state. -/
structure PcieCfg where
  mem : Bool
  master : Bool
  bar0 : Word
  bar2 : Word
  d3hot : Bool
deriving DecidableEq, Repr

/-- HST. -/
structure HstSt where
  pcie : PcieCfg
  txSlots : List (Nat × TxSlot)         -- by ring, oldest first; ring 0 also holds the DOWN records of the tunnel
  resumed : List (Nat × Nat)            -- after a takeover: handle and host sequence held (R408)
  mbx : Bool                            -- a mailbox record is under way (R385)
  rot : List (Nat × Nat)                -- receive ring: the queue that it served last (R267)
deriving DecidableEq, Repr

/-- KEY. -/
structure KeySt where
  ul : List UlItem
  tx : List TxItem
  msgQ : List (ReplyTo × KuMsg)
  attest : Option Attest
  captured : Bool                       -- the power-up contents of the PUF's SRAM are captured (R286)
  pufKey : Option (BitVec 256)          -- the reconstructed PUF key (R286)
  rawRoot : Option (BitVec 256)         -- the unwrapped root (R286)
  prevEpoch : Option (BitVec 256 × Byte)  -- network secret and epoch in grace (R296)
  graceAt : Nat                         -- uptime at which the grace period ends
  epochPend : Bool                      -- an EPOCH_SET not acknowledged everywhere (R294)
  epochOld : Option (BitVec 256 × Byte)   -- what the change under way replaces
  zeroised : Bool                       -- a zeroisation in this boot (R371)
  tokenAt : Nat
  slot4Ok : Bool                        -- slot 4 unwrapped (R286)
  lc : BitVec 3                         -- LC_STATE decided at stage 2
  egress : Byte                         -- epoch of the last EPOCH_SET, at the egress points (R294, R295)
deriving DecidableEq, Repr

/-- TIM. -/
structure TimSt where
  holdF : Int                           -- hold_f of R355
  holdover : Bool
  sel : Option Dom                      -- selected domain
  domA : DomSt
  domB : DomSt
deriving DecidableEq, Repr

/-- The state of the block. -/
structure State where
  regs : List (Nat × Nat)               -- registers that differ from their reset value, by key
  staged : List (Nat × Byte)            -- bytes staged under R5, by address
  captured : List (Nat × Byte)          -- bytes captured under R6, by address
  hostData : Byte                       -- data of the last host read
  sys : SysSt
  irq : IrqSt
  feL : GrpSt
  feH : GrpSt
  feI : GrpSt
  grn : GrnSt
  phy : PhySt
  ntb : NtbSt
  sch : SchSt
  car : CarSt
  hst : HstSt
  key : KeySt
  tim : TimSt
  eth : EthSt
  twn : TwnSt
  tst : TstSt
  aon : Aon
  otp : Otp
  nvm : Nvm
  free : Nat                            -- the model's own: how many free values were taken (log entry 1)
  out : List Out                        -- what the block has driven outside, oldest first
  pending : List Instr                  -- commands that wait, first in, first out
deriving DecidableEq, Repr

/-! ### Reset -/

def GrpSt.empty : GrpSt :=
  { cal := none, calAt := 0, tune := none, burst := none, arrive := [], wait := [], grant := true, gap := false,
    req := none, tuner := List.replicate 4 (0x10, 0x10), rxEn := 0xF, txEn := 0xF }

def KeyStore.empty : KeyStore :=
  { good := false, sgen := 0, epoch := 0, left := 0, kuCtr := 0, wseq := 0, net := 0, groups := [] }

def Aon.blank : Aon :=
  { latch := false, src := 0, cnt := 0, when_ := 0, kop := false, lost := false, store := KeyStore.empty }

/-- OTP with no bit blown: the spec gives no contents at reset (log entry 4, DESIGN CHOICE). -/
def Otp.blank : Otp :=
  { lc0 := 0, lc1 := 0, lc2 := 0, dieId := 0, devEui := 0, salt0 := 0, salt1 := 0, helper := none, provRoot := none, rmaRoot := none,
    ownerRoot := none, ownerPub := none, ownerSet := 0, slot4 := none, attRoot := none, attSeg := 0, kuCtr := 0,
    arb := 0, repairs := [] }

/-- An erased NVM (log entry 4, DESIGN CHOICE). -/
def Nvm.erased : Nvm :=
  { bytes := [], ctrLog := [], leafLog := [], cache := false, copies := [], lastCopy := none, kuMove := none, repLog := [],
    faultLog := [], logSeq := 0 }

/-- PCIe configuration after a reset of it (PRESUMED, log entry 9). -/
def PcieCfg.empty : PcieCfg := { mem := false, master := false, bar0 := 0, bar2 := 0, d3hot := false }

/-- The MSI-X table after a reset of it (PRESUMED, log entry 9). -/
def IrqSt.noTable : List (Nat × Nat) := List.replicate 16 (0, 0)

def DomSt.empty : DomSt :=
  { foreign := [], master := none, sync := none, req := none, reqSeq := 0, run := 0, ref := none }

def EthSt.empty : EthSt :=
  { gwPort := .A, reasm := [], dgrams := [], mgtRx := 0, ctlRx := 0, mgtTx := 1, ctlTx := 1, mgtVer := 2, tunVer := 2,
    infoAt := none, ackDue := false, rtoCnt := 0, rot := 0, outQ := [] }

def TwnSt.empty : TwnSt :=
  { partner := 0, partnerArmed := false, partnerCycle := 0, partnerTime := false, partnerRate := 0, ofs := none,
    good := 0, miss := 0, txSeq := 0, sent := [], rxSeq := 0, rxTime := 0, from_ := 1, claiming := false,
    joined := false, fullCopy := false, cutMs := 0, held := none, copied := false, swapStop := false, final := none,
    base := none, claimAt := 0, copy := none, copyEnd := none, sending := [], toLink := [] }

def TstSt.empty : TstSt := { repairs := [], newRep := [], demand := 0 }

/-- The state after a reset whose always-on domain, OTP and NVM hold what is given. -/
def State.fresh (aon : Aon) (otp : Otp) (nvm : Nvm) (free : Nat) (out : List Out) (pending : List Instr) : State :=
  { regs := [], staged := [], captured := [], hostData := 0,
    sys := {
      hold := .porst, perst := false, temp := 0, hotClear := false, linkUp := false, xoOk := true, sdOk := true, uptime := 0, timeNs := 0,
      timeFrac := 0, meshRun := false, regW := 0, fltCount := [], fences := [], fenceList := [],
      bootAt := 0, abt := none, fwHeader := [], cfgHeader := [], startLeft := [], sessQ := [], sess := none, sessNo := 0,
      sessPast := none, commitAt := none, localSeq := [] },
    irq := { events := [], held := [], atCore := [], msixEn := false, msixMask := false, vecMask := 0xFFFF, table := IrqSt.noTable, pba := 0 },
    feL := GrpSt.empty, feH := GrpSt.empty, feI := GrpSt.empty,
    grn := { plan := [], live := [], cap := [], lanes := [], nf := [], qual := [], recvNo := 0, late := [] },
    phy := { tmaps := [], props := [], propWrites := [], ul := [], tx := [] },
    ntb := {
      slots := [], dir := [], locks := [], drainAt := 15, sweepCmp := none, ul := [], cmdQ := [], done := [],
      tblSeq := 0 },
    sch := {
      ul := [], joinQ := [], acks := [], tries := [], wins := [], wheel := [], ovf := [], lastBucket := none, liveGrps := [],
      scan := none, scanDue := false, held := [], placeQ := [], pred := none, bcnLast := [], mcLast := [] },
    car := {
      nodeQs := [], sysQs := [], inbox := [], admitQ := [], orphans := [], purge := [], tevLast := List.replicate 16 0,
      sevLast := List.replicate 16 0, upsets := [], deCells := [] },
    hst := { pcie := PcieCfg.empty, txSlots := [], resumed := [], mbx := false, rot := [] },
    key := {
      ul := [], tx := [], msgQ := [], attest := none, captured := false, pufKey := none, rawRoot := none, prevEpoch := none, graceAt := 0,
      epochPend := false, epochOld := none, zeroised := false, tokenAt := 0, slot4Ok := false, lc := 0, egress := 0 },
    tim := { holdF := 0, holdover := false, sel := none, domA := DomSt.empty, domB := DomSt.empty },
    eth := EthSt.empty, twn := TwnSt.empty, tst := TstSt.empty, aon := aon, otp := otp, nvm := nvm,
    free := free, out := out, pending := pending }

/-- The machine with PORST_N asserted, before any rise of it (R55, R87): every register at its reset value, nothing in
any memory, no command pending. -/
def State.reset : State := State.fresh Aon.blank Otp.blank Nvm.erased 0 [] []

end Sys2Proof.Machine
end

