-- ==== Sys2Proof/Machine/RegMap.lean ====
section
/-!
DEFINITION. The register map: one descriptor for each field of the register tables (R35, R64, R87, R119, R140, R171,
R199, R227, R253, R280, R316, R337, R338, R361, R380, R387, R412, R430, R431, R444, R460), with its address, its bits
within its byte group (R5), its access code (R7), its reset value and its clamp (R9); and the storage of the fields.
A field whose value the device holds elsewhere in its state names the quantity it shows (`Dv`).
-/

namespace Sys2Proof.Machine

/-- Access codes (R7). -/
inductive Acc where
  | rw | ro | w1c | rc | wo | rs
deriving DecidableEq, Repr

/-- Clamps (R9): none; unsigned range; range of a two's complement byte; low bits read 0; the beacon slot's MCS. -/
inductive Clamp where
  | none
  | range (lo hi : Nat)
  | srange (lo hi : Int)
  | align (n : Nat)
  | bcn
deriving DecidableEq, Repr

/-- Which selection register picks the copy of a field that a host access reaches (R140, R387). -/
inductive Bank where
  | none | plan | ring
deriving DecidableEq, Repr

/-- Quantities that a field shows and that the state holds outside `regs`. -/
inductive Dv where
  | thermHot | calPend | calWait | coexStat | rfStat | planEnt | planLive | nfVal | nfAge | laneFree
  | laneRsv | laneState | laneEnt | tmapNfree | occ | stashOcc | badSlots | wheelOcc | ovfOcc | capPend
  | scanBusy | mcStat | freeCells | sqItems | sqCells | tevEmpty | sevEmpty | tevDepth | sevDepth | latch
  | epochCur | epochPrev | epochLeft | graceLeft | kuOtp | tamperSrc | tamperWhen | tamperKop | tamperCnt
  | dieId | devIdent | devEui | attSeg | timeNow | domDiff | domState | domOfs | ringIdle | repRows | repCols | repOtp
  | repLog | spareMin | spareMinc | percRun | pendSum | arbOtp | updIdle | stgState
deriving DecidableEq, Repr

/-- A register field. `addr`: BAR0 address of the lowest byte of its group; `glen`: bytes in the group; `lsb`, `width`:
its bits, counted from the group's bit 0; `n`, `stride`: how often it repeats, and how many bytes apart. -/
structure Fld where
  addr : Nat
  glen : Nat
  lsb : Nat
  width : Nat
  acc : Acc
  rst : Nat
  clamp : Clamp
  dv : Option Dv
  bank : Bank
  n : Nat
  stride : Nat
deriving DecidableEq, Repr

end Sys2Proof.Machine

namespace Sys2Proof

/-- BAR0 base of a front-end group's island (R13). -/
def Grp.base : Grp → Nat
  | .L => 0x2000
  | .H => 0x3000
  | .I => 0x4000

/-- Offset of a domain's block (R361). -/
def Dom.off : Dom → Nat
  | .A => 0
  | .B => 0x20

end Sys2Proof

namespace Sys2Proof.Machine.Reg

/-- ISL_RUN_L [7:0] RO -/
def SYS_ISL_RUN_L : Fld := ⟨0x0020, 1, 0, 8, .ro, 255, .none, none, .none, 1, 0⟩
/-- ISL_RUN_H [7:0] RO -/
def SYS_ISL_RUN_H : Fld := ⟨0x0021, 1, 0, 8, .ro, 255, .none, none, .none, 1, 0⟩
/-- ISL_FLT_L [7:0] W1C -/
def SYS_ISL_FLT_L : Fld := ⟨0x0022, 1, 0, 8, .w1c, 0, .none, none, .none, 1, 0⟩
/-- ISL_FLT_H [7:0] W1C -/
def SYS_ISL_FLT_H : Fld := ⟨0x0023, 1, 0, 8, .w1c, 0, .none, none, .none, 1, 0⟩
/-- FAB_TAGCHK[7:0] [7:0] RC -/
def SYS_FAB_TAGCHK : Fld := ⟨0x0024, 2, 0, 16, .rc, 0, .none, none, .none, 1, 0⟩
/-- FAB_HSTO[7:0] [7:0] RC -/
def SYS_FAB_HSTO : Fld := ⟨0x0026, 2, 0, 16, .rc, 0, .none, none, .none, 1, 0⟩
/-- FAB_LAST_SRC [3:0] RO -/
def SYS_FAB_LAST_SRC : Fld := ⟨0x0028, 1, 0, 4, .ro, 0, .none, none, .none, 1, 0⟩
/-- FAB_LAST_CAUSE [5:4] RO -/
def SYS_FAB_LAST_CAUSE : Fld := ⟨0x0028, 1, 4, 2, .ro, 0, .none, none, .none, 1, 0⟩
/-- RST_CAUSE [2:0] RO -/
def SYS_RST_CAUSE : Fld := ⟨0x0030, 1, 0, 3, .ro, 0, .none, none, .none, 1, 0⟩
/-- BOOT_MODE [1:0] RO -/
def SYS_BOOT_MODE : Fld := ⟨0x0031, 1, 0, 2, .ro, 0, .none, none, .none, 1, 0⟩
/-- TWIN_ID [2] RO -/
def SYS_TWIN_ID : Fld := ⟨0x0031, 1, 2, 1, .ro, 0, .none, none, .none, 1, 0⟩
/-- STRAP_BAD [3] RO -/
def SYS_STRAP_BAD : Fld := ⟨0x0031, 1, 3, 1, .ro, 0, .none, none, .none, 1, 0⟩
/-- VBAT_OK [0] RO -/
def SYS_VBAT_OK : Fld := ⟨0x0032, 1, 0, 1, .ro, 0, .none, none, .none, 1, 0⟩
/-- AON_SRC [1] RO -/
def SYS_AON_SRC : Fld := ⟨0x0032, 1, 1, 1, .ro, 0, .none, none, .none, 1, 0⟩
/-- VBAT_LOST [2] W1C -/
def SYS_VBAT_LOST : Fld := ⟨0x0032, 1, 2, 1, .w1c, 0, .none, none, .none, 1, 0⟩
/-- DIE_TEMP [7:0] RO -/
def SYS_DIE_TEMP : Fld := ⟨0x0033, 1, 0, 8, .ro, 0, .none, none, .none, 1, 0⟩
/-- TEMP_WARN [7:0] RW -/
def SYS_TEMP_WARN : Fld := ⟨0x0034, 1, 0, 8, .rw, 120, .srange 80 125, none, .none, 1, 0⟩
/-- THERM_WARN [0] W1C -/
def SYS_THERM_WARN : Fld := ⟨0x0035, 1, 0, 1, .w1c, 0, .none, none, .none, 1, 0⟩
/-- THERM_HOT [1] RO -/
def SYS_THERM_HOT : Fld := ⟨0x0035, 1, 1, 1, .ro, 0, .none, some .thermHot, .none, 1, 0⟩
/-- XO40_OK [0] RO -/
def SYS_XO40_OK : Fld := ⟨0x0036, 1, 0, 1, .ro, 0, .none, none, .none, 1, 0⟩
/-- SDREF_OK [1] RO -/
def SYS_SDREF_OK : Fld := ⟨0x0036, 1, 1, 1, .ro, 0, .none, none, .none, 1, 0⟩
/-- DEV_ID[7:0] [7:0] RO -/
def SYS_DEV_ID : Fld := ⟨0x0000, 2, 0, 16, .ro, 0x9620, .none, none, .none, 1, 0⟩
/-- SIL_REV [7:0] RO -/
def SYS_SIL_REV : Fld := ⟨0x0002, 1, 0, 8, .ro, 177, .none, none, .none, 1, 0⟩
/-- LC_STATE [2:0] RO -/
def SYS_LC_STATE : Fld := ⟨0x0003, 1, 0, 3, .ro, 0, .none, none, .none, 1, 0⟩
/-- BOOT_STAGE [3:0] RO -/
def SYS_BOOT_STAGE : Fld := ⟨0x0004, 1, 0, 4, .ro, 0, .none, none, .none, 1, 0⟩
/-- BOOT_ERR [3:0] RO -/
def SYS_BOOT_ERR : Fld := ⟨0x0005, 1, 0, 4, .ro, 0, .none, none, .none, 1, 0⟩
/-- BOOT_FLAGS [0] RO -/
def SYS_TAMPER_SEEN : Fld := ⟨0x0006, 1, 0, 1, .ro, 0, .none, none, .none, 1, 0⟩
/-- BOOT_FLAGS [1] RO -/
def SYS_STG_COPIED : Fld := ⟨0x0006, 1, 1, 1, .ro, 0, .none, none, .none, 1, 0⟩
/-- BOOT_FLAGS [2] RO -/
def SYS_STG_REJ : Fld := ⟨0x0006, 1, 2, 1, .ro, 0, .none, none, .none, 1, 0⟩
/-- BOOT_FLAGS [3] RO -/
def SYS_TIME_FREE : Fld := ⟨0x0006, 1, 3, 1, .ro, 0, .none, none, .none, 1, 0⟩
/-- FW_ARB [7:0] RO -/
def SYS_FW_ARB : Fld := ⟨0x0008, 1, 0, 8, .ro, 0, .none, none, .none, 1, 0⟩
/-- FW_BUILD [23:0] RO -/
def SYS_FW_BUILD : Fld := ⟨0x0009, 3, 0, 24, .ro, 0, .none, none, .none, 1, 0⟩
/-- CFG_BUILD [31:0] RO -/
def SYS_CFG_BUILD : Fld := ⟨0x000C, 4, 0, 32, .ro, 0, .none, none, .none, 1, 0⟩
/-- CAP_BANDS [2:0] RO -/
def SYS_CAP_BANDS : Fld := ⟨0x0010, 1, 0, 3, .ro, 7, .none, none, .none, 1, 0⟩
/-- CAP_DLANES [7:0] RO -/
def SYS_CAP_DLANES : Fld := ⟨0x0011, 1, 0, 8, .ro, 96, .none, none, .none, 1, 0⟩
/-- CAP_PRIV [7:0] RO -/
def SYS_CAP_PRIV : Fld := ⟨0x0012, 1, 0, 8, .ro, 8, .none, none, .none, 1, 0⟩
/-- CAP_NODES [23:0] RO -/
def SYS_CAP_NODES : Fld := ⟨0x0013, 3, 0, 24, .ro, 200000, .none, none, .none, 1, 0⟩
/-- CAP_PLAN [7:0] RO -/
def SYS_CAP_PLAN : Fld := ⟨0x0016, 1, 0, 8, .ro, 255, .none, none, .none, 1, 0⟩
/-- VER_HIF [7:0] RO -/
def SYS_VER_HIF : Fld := ⟨0x0040, 1, 0, 8, .ro, 49, .none, none, .none, 1, 0⟩
/-- VER_IMG [7:0] RO -/
def SYS_VER_IMG : Fld := ⟨0x0041, 1, 0, 8, .ro, 33, .none, none, .none, 1, 0⟩
/-- VER_TWN [7:0] RO -/
def SYS_VER_TWN : Fld := ⟨0x0042, 1, 0, 8, .ro, 33, .none, none, .none, 1, 0⟩
/-- VER_MGT [7:0] RO -/
def SYS_VER_MGT : Fld := ⟨0x0043, 1, 0, 8, .ro, 33, .none, none, .none, 1, 0⟩
/-- VER_NLP [7:0] RO -/
def SYS_VER_NLP : Fld := ⟨0x0044, 1, 0, 8, .ro, 65, .none, none, .none, 1, 0⟩
/-- HIF_SEL [1:0] RW -/
def SYS_HIF_SEL : Fld := ⟨0x0045, 1, 0, 2, .rw, 1, .range 1 3, none, .none, 1, 0⟩
/-- SEAL [0] RO -/
def SYS_SEAL : Fld := ⟨0x0048, 1, 0, 1, .ro, 0, .none, none, .none, 1, 0⟩
/-- HOSTWR_DROP[7:0] [7:0] RC -/
def SYS_HOSTWR_DROP : Fld := ⟨0x0049, 2, 0, 16, .rc, 0, .none, none, .none, 1, 0⟩
/-- CFG_APPLIED [23:0] RO -/
def SYS_CFG_APPLIED : Fld := ⟨0x004C, 3, 0, 24, .ro, 0, .none, none, .none, 1, 0⟩
/-- CFG_SKIP[7:0] [7:0] RO -/
def SYS_CFG_SKIP : Fld := ⟨0x0050, 2, 0, 16, .ro, 0, .none, none, .none, 1, 0⟩
/-- TIME_POLICY [0] RS -/
def SYS_TIME_POLICY : Fld := ⟨0x0052, 1, 0, 1, .rs, 0, .none, none, .none, 1, 0⟩
/-- START_HOLD [1] RS -/
def SYS_START_HOLD : Fld := ⟨0x0052, 1, 1, 1, .rs, 0, .none, none, .none, 1, 0⟩
/-- TIME_ACQ_MAX [7:0] RS -/
def SYS_TIME_ACQ_MAX : Fld := ⟨0x0053, 1, 0, 8, .rs, 73, .range 1 73, none, .none, 1, 0⟩
/-- MESH_GO [0] WO -/
def SYS_MESH_GO : Fld := ⟨0x0054, 1, 0, 1, .wo, 0, .none, none, .none, 1, 0⟩
/-- GRP_EN [0] RS -/
def FE_GRP_EN (g : Grp) : Fld := ⟨g.base + 0x000, 1, 0, 1, .rs, 1, .none, none, .none, 1, 0⟩
/-- COMPOSITE [1] RS -/
def FE_COMPOSITE (g : Grp) : Fld := ⟨g.base + 0x000, 1, 1, 1, .rs, 1, .none, none, .none, 1, 0⟩
/-- COEX_EN [2] RS -/
def FE_COEX_EN (g : Grp) : Fld := ⟨g.base + 0x000, 1, 2, 1, .rs, 1, .none, none, .none, 1, 0⟩
/-- TX_ALLOW [3] RW -/
def FE_TX_ALLOW (g : Grp) : Fld := ⟨g.base + 0x000, 1, 3, 1, .rw, 1, .none, none, .none, 1, 0⟩
/-- PORT_RX_EN [3:0] RW -/
def FE_PORT_RX_EN (g : Grp) : Fld := ⟨g.base + 0x001, 1, 0, 4, .rw, 15, .none, none, .none, 1, 0⟩
/-- PORT_TX_EN [7:4] RW -/
def FE_PORT_TX_EN (g : Grp) : Fld := ⟨g.base + 0x001, 1, 4, 4, .rw, 15, .none, none, .none, 1, 0⟩
/-- TX_PORT [1:0] RW -/
def FE_TX_PORT (g : Grp) : Fld := ⟨g.base + 0x002, 1, 0, 2, .rw, 0, .none, none, .none, 1, 0⟩
/-- TX_ALT [3:2] RW -/
def FE_TX_ALT (g : Grp) : Fld := ⟨g.base + 0x002, 1, 2, 2, .rw, 1, .none, none, .none, 1, 0⟩
/-- ALT_EN [4] RW -/
def FE_ALT_EN (g : Grp) : Fld := ⟨g.base + 0x002, 1, 4, 1, .rw, 1, .none, none, .none, 1, 0⟩
/-- SYN_STATE [2:0] RO -/
def FE_SYN_STATE (g : Grp) : Fld := ⟨g.base + 0x003, 1, 0, 3, .ro, 0, .none, none, .none, 1, 0⟩
/-- CAL_PEND [3] RO -/
def FE_CAL_PEND (g : Grp) : Fld := ⟨g.base + 0x003, 1, 3, 1, .ro, 0, .none, some .calPend, .none, 1, 0⟩
/-- CAL_CMD [1:0] WO -/
def FE_CAL_CMD (g : Grp) : Fld := ⟨g.base + 0x004, 1, 0, 2, .wo, 0, .none, none, .none, 1, 0⟩
/-- GRP_TEMP [7:0] RO -/
def FE_GRP_TEMP (g : Grp) : Fld := ⟨g.base + 0x005, 1, 0, 8, .ro, 0, .none, none, .none, 1, 0⟩
/-- CAL_TEMP [7:0] RO -/
def FE_CAL_TEMP (g : Grp) : Fld := ⟨g.base + 0x006, 1, 0, 8, .ro, 0, .none, none, .none, 1, 0⟩
/-- CAL_WAIT [7:0] RO -/
def FE_CAL_WAIT (g : Grp) : Fld := ⟨g.base + 0x007, 1, 0, 8, .ro, 0, .none, some .calWait, .none, 1, 0⟩
/-- CENTER [15:0] RS -/
def FE_CENTER (g : Grp) : Fld := ⟨g.base + 0x008, 2, 0, 16, .rs, (match g with | .L => 0x11F8 | .H => 0x21E8 | .I => 0x5F64), (match g with | .L => .range 0x1044 0x13AC | .H => .range 0x1DCC 0x2500 | .I => .range 0x5F64 0x5F64), none, .none, 1, 0⟩
/-- TX_PWR0–TX_PWR3 [7:0] each RW -/
def FE_TX_PWR (g : Grp) : Fld := ⟨g.base + 0x00C, 1, 0, 8, .rw, 0, .srange (-20) 28, none, .none, 4, 1⟩
/-- RAMP [5:0] RW -/
def FE_RAMP (g : Grp) : Fld := ⟨g.base + 0x010, 1, 0, 6, .rw, 8, .range 2 32, none, .none, 1, 0⟩
/-- PA_LEAD [3:0] RW -/
def FE_PA_LEAD (g : Grp) : Fld := ⟨g.base + 0x011, 1, 0, 4, .rw, 4, .range 1 10, none, .none, 1, 0⟩
/-- PA_LAG [4:0] RW -/
def FE_PA_LAG (g : Grp) : Fld := ⟨g.base + 0x012, 1, 0, 5, .rw, 4, .range 1 20, none, .none, 1, 0⟩
/-- REQ_LEAD [7:0] RS -/
def FE_REQ_LEAD (g : Grp) : Fld := ⟨g.base + 0x013, 1, 0, 8, .rs, 50, .range 10 250, none, .none, 1, 0⟩
/-- PRIO_THR [3:0] RS -/
def FE_PRIO_THR (g : Grp) : Fld := ⟨g.base + 0x014, 1, 0, 4, .rs, 12, .none, none, .none, 1, 0⟩
/-- COEX_STAT [2:0] RO -/
def FE_COEX_STAT (g : Grp) : Fld := ⟨g.base + 0x016, 1, 0, 3, .ro, 0, .none, some .coexStat, .none, 1, 0⟩
/-- RF_STAT [2:0] RO -/
def FE_RF_STAT (g : Grp) : Fld := ⟨g.base + 0x017, 1, 0, 3, .ro, 0, .none, some .rfStat, .none, 1, 0⟩
/-- FEM_AUX0–FEM_AUX3 [1:0] each RW -/
def FE_FEM_AUX (g : Grp) : Fld := ⟨g.base + 0x018, 1, 0, 2, .rw, 0, .none, none, .none, 4, 1⟩
/-- TUNE_SER0–TUNE_SER3 [4:0] each RW -/
def FE_TUNE_SER (g : Grp) : Fld := ⟨g.base + 0x020, 1, 0, 5, .rw, 16, .none, none, .none, 4, 1⟩
/-- TUNE_SHT0–TUNE_SHT3 [4:0] each RW -/
def FE_TUNE_SHT (g : Grp) : Fld := ⟨g.base + 0x024, 1, 0, 5, .rw, 16, .none, none, .none, 4, 1⟩
/-- RL_THR [4:0] RS -/
def FE_RL_THR (g : Grp) : Fld := ⟨g.base + 0x028, 1, 0, 5, .rs, 10, .range 4 20, none, .none, 1, 0⟩
/-- PORT_MM [3:0] RO -/
def FE_PORT_MM (g : Grp) : Fld := ⟨g.base + 0x029, 1, 0, 4, .ro, 0, .none, none, .none, 1, 0⟩
/-- PORT_FAULT [7:4] RO -/
def FE_PORT_FAULT (g : Grp) : Fld := ⟨g.base + 0x029, 1, 4, 4, .ro, 0, .none, none, .none, 1, 0⟩
/-- TUNE_PORT [1:0] WO -/
def FE_TUNE_PORT (g : Grp) : Fld := ⟨g.base + 0x02A, 1, 0, 2, .wo, 0, .none, none, .none, 1, 0⟩
/-- TUNE_GO [2] WO -/
def FE_TUNE_GO (g : Grp) : Fld := ⟨g.base + 0x02A, 1, 2, 1, .wo, 0, .none, none, .none, 1, 0⟩
/-- TUNE_STAT [2:0] RO -/
def FE_TUNE_STAT (g : Grp) : Fld := ⟨g.base + 0x02B, 1, 0, 3, .ro, 0, .none, none, .none, 1, 0⟩
/-- TUNE_LAST [5:4] RO -/
def FE_TUNE_LAST (g : Grp) : Fld := ⟨g.base + 0x02B, 1, 4, 2, .ro, 0, .none, none, .none, 1, 0⟩
/-- RL_MEAS0–RL_MEAS3 [7:0] each RO -/
def FE_RL_MEAS (g : Grp) : Fld := ⟨g.base + 0x02C, 1, 0, 8, .ro, 0, .none, none, .none, 4, 1⟩
/-- SYNTH_MISS_CNT [15:0] RC -/
def FE_SYNTH_MISS_CNT (g : Grp) : Fld := ⟨g.base + 0x040, 2, 0, 16, .rc, 0, .none, none, .none, 1, 0⟩
/-- TX_ABANDON [15:0] RC -/
def FE_TX_ABANDON (g : Grp) : Fld := ⟨g.base + 0x042, 2, 0, 16, .rc, 0, .none, none, .none, 1, 0⟩
/-- TX_TRUNC [15:0] RC -/
def FE_TX_TRUNC (g : Grp) : Fld := ⟨g.base + 0x044, 2, 0, 16, .rc, 0, .none, none, .none, 1, 0⟩
/-- TX_DISPLACED [15:0] RC -/
def FE_TX_DISPLACED (g : Grp) : Fld := ⟨g.base + 0x046, 2, 0, 16, .rc, 0, .none, none, .none, 1, 0⟩
/-- ACK_NOSLOT [15:0] RC -/
def FE_ACK_NOSLOT (g : Grp) : Fld := ⟨g.base + 0x048, 2, 0, 16, .rc, 0, .none, none, .none, 1, 0⟩
/-- TX_NOPORT [15:0] RC -/
def FE_TX_NOPORT (g : Grp) : Fld := ⟨g.base + 0x04A, 2, 0, 16, .rc, 0, .none, none, .none, 1, 0⟩
/-- BLANK_LOSS [15:0] RC -/
def FE_BLANK_LOSS (g : Grp) : Fld := ⟨g.base + 0x04C, 2, 0, 16, .rc, 0, .none, none, .none, 1, 0⟩
/-- CAL_RXLOSS [15:0] RC -/
def FE_CAL_RXLOSS (g : Grp) : Fld := ⟨g.base + 0x04E, 2, 0, 16, .rc, 0, .none, none, .none, 1, 0⟩
/-- CAL_COUNT [15:0] RC -/
def FE_CAL_COUNT (g : Grp) : Fld := ⟨g.base + 0x050, 2, 0, 16, .rc, 0, .none, none, .none, 1, 0⟩
/-- BURSTS [31:0] RO -/
def FE_BURSTS (g : Grp) : Fld := ⟨g.base + 0x054, 4, 0, 32, .ro, 0, .none, none, .none, 1, 0⟩
/-- GRP_EVT [4:0] W1C -/
def FE_GRP_EVT (g : Grp) : Fld := ⟨g.base + 0x060, 1, 0, 5, .w1c, 0, .none, none, .none, 1, 0⟩
/-- IQCAL [7:0] each RO -/
def FE_IQCAL (g : Grp) : Fld := ⟨g.base + 0x100, 1, 0, 8, .ro, 0, .none, none, .none, 128, 1⟩
/-- PLAN_IDX [7:0] RW -/
def GRN_PLAN_IDX : Fld := ⟨0x5000, 1, 0, 8, .rw, 0, .none, none, .none, 1, 0⟩
/-- PLAN_ENT [31:0] RW -/
def GRN_PLAN_ENT : Fld := ⟨0x5004, 4, 0, 32, .rw, 0, .none, some .planEnt, .plan, 1, 0⟩
/-- PLAN_LIVE [31:0] RO -/
def GRN_PLAN_LIVE : Fld := ⟨0x5008, 4, 0, 32, .ro, 0, .none, some .planLive, .plan, 1, 0⟩
/-- ENT_DET [15:0] RC -/
def GRN_ENT_DET : Fld := ⟨0x500C, 2, 0, 16, .rc, 0, .none, none, .plan, 1, 0⟩
/-- NF_VAL0–NF_VAL3 [7:0] each RO -/
def GRN_NF_VAL : Fld := ⟨0x5010, 4, 0, 32, .ro, 0, .none, some .nfVal, .plan, 1, 0⟩
/-- NF_AGE [7:0] RO -/
def GRN_NF_AGE : Fld := ⟨0x5014, 1, 0, 8, .ro, 255, .none, some .nfAge, .plan, 1, 0⟩
/-- NF_WIN [6:0] RW -/
def GRN_NF_WIN : Fld := ⟨0x5018, 1, 0, 7, .rw, 16, .range 1 64, none, .none, 1, 0⟩
/-- ACQ_TMO [3:0] RW -/
def GRN_ACQ_TMO : Fld := ⟨0x5019, 1, 0, 4, .rw, 3, .range 1 8, none, .none, 1, 0⟩
/-- SRCH_THR_L [7:0] RW -/
def GRN_SRCH_THR_L : Fld := ⟨0x501A, 1, 0, 8, .rw, 12, .range 4 60, none, .none, 1, 0⟩
/-- SRCH_THR_H [7:0] RW -/
def GRN_SRCH_THR_H : Fld := ⟨0x501B, 1, 0, 8, .rw, 12, .range 4 60, none, .none, 1, 0⟩
/-- SRCH_THR_I [7:0] RW -/
def GRN_SRCH_THR_I : Fld := ⟨0x501C, 1, 0, 8, .rw, 12, .range 4 60, none, .none, 1, 0⟩
/-- LANE_FREE [6:0] RO -/
def GRN_LANE_FREE : Fld := ⟨0x5020, 1, 0, 7, .ro, 96, .none, some .laneFree, .none, 1, 0⟩
/-- LANE_RSV [3:0] RO -/
def GRN_LANE_RSV : Fld := ⟨0x5021, 1, 0, 4, .ro, 0, .none, some .laneRsv, .none, 1, 0⟩
/-- LANE_PEAK [6:0] RC -/
def GRN_LANE_PEAK : Fld := ⟨0x5022, 1, 0, 7, .rc, 0, .none, none, .none, 1, 0⟩
/-- GRN_EVT [1:0] W1C -/
def GRN_GRN_EVT : Fld := ⟨0x5030, 1, 0, 2, .w1c, 0, .none, none, .none, 1, 0⟩
/-- DET_CNT [31:0] RO -/
def GRN_DET_CNT : Fld := ⟨0x5040, 4, 0, 32, .ro, 0, .none, none, .none, 1, 0⟩
/-- FALSE_START [15:0] RC -/
def GRN_FALSE_START : Fld := ⟨0x5044, 2, 0, 16, .rc, 0, .none, none, .none, 1, 0⟩
/-- LANE_OVF [15:0] RC -/
def GRN_LANE_OVF : Fld := ⟨0x5046, 2, 0, 16, .rc, 0, .none, none, .none, 1, 0⟩
/-- PHR_BAD [15:0] RC -/
def GRN_PHR_BAD : Fld := ⟨0x5048, 2, 0, 16, .rc, 0, .none, none, .none, 1, 0⟩
/-- ACQ_TIMEOUT [15:0] RC -/
def GRN_ACQ_TIMEOUT : Fld := ⟨0x504A, 2, 0, 16, .rc, 0, .none, none, .none, 1, 0⟩
/-- DET_ALIAS [15:0] RC -/
def GRN_DET_ALIAS : Fld := ⟨0x504C, 2, 0, 16, .rc, 0, .none, none, .none, 1, 0⟩
/-- CAP_ABORT [15:0] RC -/
def GRN_CAP_ABORT : Fld := ⟨0x504E, 2, 0, 16, .rc, 0, .none, none, .none, 1, 0⟩
/-- ED_REJECT [15:0] RC -/
def GRN_ED_REJECT : Fld := ⟨0x5050, 2, 0, 16, .rc, 0, .none, none, .none, 1, 0⟩
/-- GRP_ABORT [15:0] RC -/
def GRN_GRP_ABORT : Fld := ⟨0x5052, 2, 0, 16, .rc, 0, .none, none, .none, 1, 0⟩
/-- FLT_LOST [15:0] RC -/
def GRN_FLT_LOST : Fld := ⟨0x5054, 2, 0, 16, .rc, 0, .none, none, .none, 1, 0⟩
/-- LANE_STATE0–LANE_STATE95 [7:0] each RO -/
def GRN_LANE_STATE : Fld := ⟨0x5100, 1, 0, 8, .ro, 0, .none, some .laneState, .none, 96, 1⟩
/-- LANE_ENT0–LANE_ENT95 [7:0] each RO -/
def GRN_LANE_ENT : Fld := ⟨0x5160, 1, 0, 8, .ro, 0, .none, some .laneEnt, .none, 96, 1⟩
/-- FCS_TYPE [0] RS -/
def PHY_FCS_TYPE : Fld := ⟨0x6000, 1, 0, 1, .rs, 1, .none, none, .none, 1, 0⟩
/-- TL_MODE [1:0] RW -/
def PHY_TL_MODE : Fld := ⟨0x6001, 1, 0, 2, .rw, 1, .none, none, .none, 1, 0⟩
/-- TL_RATE [2] RW -/
def PHY_TL_RATE : Fld := ⟨0x6001, 1, 2, 1, .rw, 0, .none, none, .none, 1, 0⟩
/-- TL_MARGIN [4:0] RW -/
def PHY_TL_MARGIN : Fld := ⟨0x6002, 1, 0, 5, .rw, 12, .range 0 30, none, .none, 1, 0⟩
/-- PROP_N [3:0] RW -/
def PHY_PROP_N : Fld := ⟨0x6003, 1, 0, 4, .rw, 4, .range 1 8, none, .none, 1, 0⟩
/-- PROP_AGE [7:0] RW -/
def PHY_PROP_AGE : Fld := ⟨0x6004, 1, 0, 8, .rw, 30, .range 1 255, none, .none, 1, 0⟩
/-- TL_SLACK [3:0] RW -/
def PHY_TL_SLACK : Fld := ⟨0x6005, 1, 0, 4, .rw, 2, .range 0 10, none, .none, 1, 0⟩
/-- TMAP_IDX [15:0] RW -/
def PHY_TMAP_IDX : Fld := ⟨0x6010, 2, 0, 16, .rw, 0, .range 0 4095, none, .none, 1, 0⟩
/-- TMAP_CMD [1:0] WO -/
def PHY_TMAP_CMD : Fld := ⟨0x6012, 1, 0, 2, .wo, 0, .none, none, .none, 1, 0⟩
/-- TMAP_STAT [1:0] RO -/
def PHY_TMAP_STAT : Fld := ⟨0x6013, 1, 0, 2, .ro, 0, .none, none, .none, 1, 0⟩
/-- TMAP_NFREE [12:0] RO -/
def PHY_TMAP_NFREE : Fld := ⟨0x6014, 2, 0, 13, .ro, 4096, .none, some .tmapNfree, .none, 1, 0⟩
/-- PHY_EVT [2:0] W1C -/
def PHY_PHY_EVT : Fld := ⟨0x6020, 1, 0, 3, .w1c, 0, .none, none, .none, 1, 0⟩
/-- MAP_PAR_IDX [11:0] RO -/
def PHY_MAP_PAR_IDX : Fld := ⟨0x6021, 2, 0, 12, .ro, 0, .none, none, .none, 1, 0⟩
/-- TMAP_DATA0–TMAP_DATA47 [7:0] each RW -/
def PHY_TMAP_DATA : Fld := ⟨0x6040, 1, 0, 8, .rw, 0, .none, none, .none, 48, 1⟩
/-- RX_FRAMES [31:0] RO -/
def PHY_RX_FRAMES : Fld := ⟨0x6080, 4, 0, 32, .ro, 0, .none, none, .none, 1, 0⟩
/-- FCS_BAD [15:0] RC -/
def PHY_FCS_BAD : Fld := ⟨0x6084, 2, 0, 16, .rc, 0, .none, none, .none, 1, 0⟩
/-- PHR_HCS_BAD [15:0] RC -/
def PHY_PHR_HCS_BAD : Fld := ⟨0x6086, 2, 0, 16, .rc, 0, .none, none, .none, 1, 0⟩
/-- PHR_RATE_BAD [15:0] RC -/
def PHY_PHR_RATE_BAD : Fld := ⟨0x6088, 2, 0, 16, .rc, 0, .none, none, .none, 1, 0⟩
/-- PHR_LEN_BAD [15:0] RC -/
def PHY_PHR_LEN_BAD : Fld := ⟨0x608A, 2, 0, 16, .rc, 0, .none, none, .none, 1, 0⟩
/-- TX_FRAMES [31:0] RO -/
def PHY_TX_FRAMES : Fld := ⟨0x608C, 4, 0, 32, .ro, 0, .none, none, .none, 1, 0⟩
/-- TX_TL [31:0] RO -/
def PHY_TX_TL : Fld := ⟨0x6090, 4, 0, 32, .ro, 0, .none, none, .none, 1, 0⟩
/-- TL_FALLBACK [15:0] RC -/
def PHY_TL_FALLBACK : Fld := ⟨0x6094, 2, 0, 16, .rc, 0, .none, none, .none, 1, 0⟩
/-- PROP_MADE [15:0] RC -/
def PHY_PROP_MADE : Fld := ⟨0x6096, 2, 0, 16, .rc, 0, .none, none, .none, 1, 0⟩
/-- PROP_EVICT [15:0] RC -/
def PHY_PROP_EVICT : Fld := ⟨0x6098, 2, 0, 16, .rc, 0, .none, none, .none, 1, 0⟩
/-- PROP_NOFIT [15:0] RC -/
def PHY_PROP_NOFIT : Fld := ⟨0x609A, 2, 0, 16, .rc, 0, .none, none, .none, 1, 0⟩
/-- PROP_SUPERSEDED [15:0] RC -/
def PHY_PROP_SUPERSEDED : Fld := ⟨0x609C, 2, 0, 16, .rc, 0, .none, none, .none, 1, 0⟩
/-- SWEEP_PER [15:0] RW -/
def NTB_SWEEP_PER : Fld := ⟨0x7000, 2, 0, 16, .rw, 1440, .none, none, .none, 1, 0⟩
/-- LOCK_TMO [7:0] RW -/
def NTB_LOCK_TMO : Fld := ⟨0x7002, 1, 0, 8, .rw, 100, .range 1 255, none, .none, 1, 0⟩
/-- STASH_DRAIN [0] RW -/
def NTB_STASH_DRAIN : Fld := ⟨0x7003, 1, 0, 1, .rw, 1, .none, none, .none, 1, 0⟩
/-- STASH_WARN [4:0] RW -/
def NTB_STASH_WARN : Fld := ⟨0x7004, 1, 0, 5, .rw, 12, .range 1 16, none, .none, 1, 0⟩
/-- OCC [18:0] RO -/
def NTB_OCC : Fld := ⟨0x7010, 3, 0, 19, .ro, 0, .none, some .occ, .none, 1, 0⟩
/-- STASH_OCC [4:0] RO -/
def NTB_STASH_OCC : Fld := ⟨0x7013, 1, 0, 5, .ro, 0, .none, some .stashOcc, .none, 1, 0⟩
/-- OCC_PEAK [18:0] RC -/
def NTB_OCC_PEAK : Fld := ⟨0x7014, 3, 0, 19, .rc, 0, .none, none, .none, 1, 0⟩
/-- LAST_ALLOC [17:0] RO -/
def NTB_LAST_ALLOC : Fld := ⟨0x7018, 3, 0, 18, .ro, 262143, .none, none, .none, 1, 0⟩
/-- SWEEP_POS [18:0] RO -/
def NTB_SWEEP_POS : Fld := ⟨0x701C, 3, 0, 19, .ro, 0, .none, none, .none, 1, 0⟩
/-- NTB_EVT [4:0] W1C -/
def NTB_NTB_EVT : Fld := ⟨0x7020, 1, 0, 5, .w1c, 0, .none, none, .none, 1, 0⟩
/-- PAR_LOC [18:0] RO -/
def NTB_PAR_LOC : Fld := ⟨0x7024, 3, 0, 19, .ro, 0, .none, none, .none, 1, 0⟩
/-- PAR_WORDS [11:0] RO -/
def NTB_PAR_WORDS : Fld := ⟨0x7027, 2, 0, 12, .ro, 0, .none, none, .none, 1, 0⟩
/-- PAR_SRC [14:12] RO -/
def NTB_PAR_SRC : Fld := ⟨0x7027, 2, 12, 3, .ro, 0, .none, none, .none, 1, 0⟩
/-- PAR_HANDLE [17:0] RO -/
def NTB_PAR_HANDLE : Fld := ⟨0x7029, 3, 0, 24, .ro, 0, .none, none, .none, 1, 0⟩
/-- LOOKUPS [31:0] RO -/
def NTB_LOOKUPS : Fld := ⟨0x7040, 4, 0, 32, .ro, 0, .none, none, .none, 1, 0⟩
/-- LOOKUP_MISS [15:0] RC -/
def NTB_LOOKUP_MISS : Fld := ⟨0x7044, 2, 0, 16, .rc, 0, .none, none, .none, 1, 0⟩
/-- INSERTS [15:0] RC -/
def NTB_INSERTS : Fld := ⟨0x7046, 2, 0, 16, .rc, 0, .none, none, .none, 1, 0⟩
/-- STASHED [15:0] RC -/
def NTB_STASHED : Fld := ⟨0x7048, 2, 0, 16, .rc, 0, .none, none, .none, 1, 0⟩
/-- FULL_CNT [15:0] RC -/
def NTB_FULL_CNT : Fld := ⟨0x704A, 2, 0, 16, .rc, 0, .none, none, .none, 1, 0⟩
/-- AGED [15:0] RC -/
def NTB_AGED : Fld := ⟨0x704C, 2, 0, 16, .rc, 0, .none, none, .none, 1, 0⟩
/-- AGE_SAVED [15:0] RC -/
def NTB_AGE_SAVED : Fld := ⟨0x704E, 2, 0, 16, .rc, 0, .none, none, .none, 1, 0⟩
/-- PAR_ERR [15:0] RC -/
def NTB_PAR_ERR : Fld := ⟨0x7050, 2, 0, 16, .rc, 0, .none, none, .none, 1, 0⟩
/-- DIR_REBUILD [15:0] RC -/
def NTB_DIR_REBUILD : Fld := ⟨0x7052, 2, 0, 16, .rc, 0, .none, none, .none, 1, 0⟩
/-- LOCK_EXP [15:0] RC -/
def NTB_LOCK_EXP : Fld := ⟨0x7054, 2, 0, 16, .rc, 0, .none, none, .none, 1, 0⟩
/-- MOVES_MAX [6:0] RC -/
def NTB_MOVES_MAX : Fld := ⟨0x7056, 1, 0, 7, .rc, 0, .none, none, .none, 1, 0⟩
/-- DRAINED [15:0] RC -/
def NTB_DRAINED : Fld := ⟨0x7058, 2, 0, 16, .rc, 0, .none, none, .none, 1, 0⟩
/-- BAD_SLOTS [4:0] RO -/
def NTB_BAD_SLOTS : Fld := ⟨0x705A, 2, 0, 5, .ro, 0, .none, some .badSlots, .none, 1, 0⟩
/-- DRIFT_K [2:0] RW -/
def SCH_DRIFT_K : Fld := ⟨0x8000, 1, 0, 3, .rw, 2, .range 0 4, none, .none, 1, 0⟩
/-- DRIFT_MIN [7:0] RW -/
def SCH_DRIFT_MIN : Fld := ⟨0x8001, 1, 0, 8, .rw, 60, .range 1 255, none, .none, 1, 0⟩
/-- BCN_INT [15:0] RS -/
def SCH_BCN_INT : Fld := ⟨0x8002, 2, 0, 16, .rs, 50, .range 1 600, none, .none, 1, 0⟩
/-- SCH_EVT [4:0] W1C -/
def SCH_SCH_EVT : Fld := ⟨0x8004, 1, 0, 5, .w1c, 0, .none, none, .none, 1, 0⟩
/-- BCN_ENT0–BCN_ENT7 [7:0] each RS -/
def SCH_BCN_ENT : Fld := ⟨0x8008, 1, 0, 8, .rs, 0, .none, none, .none, 8, 1⟩
/-- BCN_CFG0–BCN_CFG7 [7:0] each RS -/
def SCH_BCN_CFG : Fld := ⟨0x8010, 1, 0, 8, .rs, 0, .bcn, none, .none, 8, 1⟩
/-- WHEEL_OCC [25:0] RO -/
def SCH_WHEEL_OCC : Fld := ⟨0x8020, 4, 0, 26, .ro, 0, .none, some .wheelOcc, .none, 1, 0⟩
/-- OVF_OCC [18:0] RO -/
def SCH_OVF_OCC : Fld := ⟨0x8024, 3, 0, 19, .ro, 0, .none, some .ovfOcc, .none, 1, 0⟩
/-- BKT_PEAK [9:0] RC -/
def SCH_BKT_PEAK : Fld := ⟨0x8028, 2, 0, 10, .rc, 0, .none, none, .none, 1, 0⟩
/-- CAP_LAST [31:0] RO -/
def SCH_CAP_LAST : Fld := ⟨0x8030, 4, 0, 32, .ro, 0, .none, none, .none, 1, 0⟩
/-- CAP_PEND [0] RO -/
def SCH_CAP_PEND : Fld := ⟨0x8034, 1, 0, 1, .ro, 0, .none, some .capPend, .none, 1, 0⟩
/-- SCAN_BUSY [1] RO -/
def SCH_SCAN_BUSY : Fld := ⟨0x8034, 1, 1, 1, .ro, 0, .none, some .scanBusy, .none, 1, 0⟩
/-- PRED_HANDLE [17:0] RW -/
def SCH_PRED_HANDLE : Fld := ⟨0x8040, 3, 0, 18, .rw, 0, .none, none, .none, 1, 0⟩
/-- PRED_CMD [0] WO -/
def SCH_PRED_CMD : Fld := ⟨0x8043, 1, 0, 1, .wo, 0, .none, none, .none, 1, 0⟩
/-- PRED_STAT [1:0] RO -/
def SCH_PRED_STAT : Fld := ⟨0x8044, 1, 0, 2, .ro, 0, .none, none, .none, 1, 0⟩
/-- PRED_FIT [2] RO -/
def SCH_PRED_FIT : Fld := ⟨0x8044, 1, 2, 1, .ro, 0, .none, none, .none, 1, 0⟩
/-- PRED_TIME [63:0] RO -/
def SCH_PRED_TIME : Fld := ⟨0x8048, 8, 0, 64, .ro, 0, .none, none, .none, 1, 0⟩
/-- PRED_U [31:0] RO -/
def SCH_PRED_U : Fld := ⟨0x8050, 4, 0, 32, .ro, 0, .none, none, .none, 1, 0⟩
/-- WAKES [31:0] RO -/
def SCH_WAKES : Fld := ⟨0x8080, 4, 0, 32, .ro, 0, .none, none, .none, 1, 0⟩
/-- DISPATCHED [31:0] RO -/
def SCH_DISPATCHED : Fld := ⟨0x8084, 4, 0, 32, .ro, 0, .none, none, .none, 1, 0⟩
/-- GUARD_DRIFT [15:0] RC -/
def SCH_GUARD_DRIFT : Fld := ⟨0x8088, 2, 0, 16, .rc, 0, .none, none, .none, 1, 0⟩
/-- MISS_DRIFT [15:0] RC -/
def SCH_MISS_DRIFT : Fld := ⟨0x808A, 2, 0, 16, .rc, 0, .none, none, .none, 1, 0⟩
/-- RESYNC [15:0] RC -/
def SCH_RESYNC : Fld := ⟨0x808C, 2, 0, 16, .rc, 0, .none, none, .none, 1, 0⟩
/-- UNREACH [15:0] RC -/
def SCH_UNREACH : Fld := ⟨0x808E, 2, 0, 16, .rc, 0, .none, none, .none, 1, 0⟩
/-- BKT_FULL [15:0] RC -/
def SCH_BKT_FULL : Fld := ⟨0x8090, 2, 0, 16, .rc, 0, .none, none, .none, 1, 0⟩
/-- STALE [15:0] RC -/
def SCH_STALE : Fld := ⟨0x8092, 2, 0, 16, .rc, 0, .none, none, .none, 1, 0⟩
/-- LATE_TX [15:0] RC -/
def SCH_LATE_TX : Fld := ⟨0x8094, 2, 0, 16, .rc, 0, .none, none, .none, 1, 0⟩
/-- NO_TSIE [15:0] RC -/
def SCH_NO_TSIE : Fld := ⟨0x8096, 2, 0, 16, .rc, 0, .none, none, .none, 1, 0⟩
/-- DRIFT_CLIP [15:0] RC -/
def SCH_DRIFT_CLIP : Fld := ⟨0x8098, 2, 0, 16, .rc, 0, .none, none, .none, 1, 0⟩
/-- BCN_SENT [15:0] RC -/
def SCH_BCN_SENT : Fld := ⟨0x809A, 2, 0, 16, .rc, 0, .none, none, .none, 1, 0⟩
/-- BCN_MISS [15:0] RC -/
def SCH_BCN_MISS : Fld := ⟨0x809C, 2, 0, 16, .rc, 0, .none, none, .none, 1, 0⟩
/-- CAP_HELD [15:0] RC -/
def SCH_CAP_HELD : Fld := ⟨0x809E, 2, 0, 16, .rc, 0, .none, none, .none, 1, 0⟩
/-- GAPS_L [15:0] RC -/
def SCH_GAPS_L : Fld := ⟨0x80A0, 2, 0, 16, .rc, 0, .none, none, .none, 1, 0⟩
/-- GAPS_H [15:0] RC -/
def SCH_GAPS_H : Fld := ⟨0x80A2, 2, 0, 16, .rc, 0, .none, none, .none, 1, 0⟩
/-- GAPS_I [15:0] RC -/
def SCH_GAPS_I : Fld := ⟨0x80A4, 2, 0, 16, .rc, 0, .none, none, .none, 1, 0⟩
/-- JOIN_AUTO [0] RW -/
def SCH_JOIN_AUTO : Fld := ⟨0x8100, 1, 0, 1, .rw, 0, .none, none, .none, 1, 0⟩
/-- UNK_DELIVER [1] RW -/
def SCH_UNK_DELIVER : Fld := ⟨0x8100, 1, 1, 1, .rw, 1, .none, none, .none, 1, 0⟩
/-- OPP_DL [2] RW -/
def SCH_OPP_DL : Fld := ⟨0x8100, 1, 2, 1, .rw, 0, .none, none, .none, 1, 0⟩
/-- NLP_CAP [2:0] RW -/
def SCH_NLP_CAP : Fld := ⟨0x8101, 1, 0, 3, .rw, 4, .range 1 4, none, .none, 1, 0⟩
/-- ACK_TMO [7:0] RW -/
def SCH_ACK_TMO : Fld := ⟨0x8102, 1, 0, 8, .rw, 80, .range 10 255, none, .none, 1, 0⟩
/-- JOIN_REPEAT [3:0] RW -/
def SCH_JOIN_REPEAT : Fld := ⟨0x8103, 1, 0, 4, .rw, 4, .range 1 15, none, .none, 1, 0⟩
/-- IE_TS_ID [7:0] RS -/
def SCH_IE_TS_ID : Fld := ⟨0x8104, 1, 0, 8, .rs, 58, .none, none, .none, 1, 0⟩
/-- IE_ACK_ID [7:0] RS -/
def SCH_IE_ACK_ID : Fld := ⟨0x8105, 1, 0, 8, .rs, 59, .none, none, .none, 1, 0⟩
/-- IE_MAP_ID [7:0] RS -/
def SCH_IE_MAP_ID : Fld := ⟨0x8106, 1, 0, 8, .rs, 60, .none, none, .none, 1, 0⟩
/-- IE_JOIN_ID [7:0] RS -/
def SCH_IE_JOIN_ID : Fld := ⟨0x8107, 1, 0, 8, .rs, 61, .none, none, .none, 1, 0⟩
/-- AX_EVT [3:0] W1C -/
def SCH_AX_EVT : Fld := ⟨0x8108, 1, 0, 4, .w1c, 0, .none, none, .none, 1, 0⟩
/-- MC_DONE_MAP [7:0] W1C -/
def SCH_MC_DONE_MAP : Fld := ⟨0x8109, 1, 0, 8, .w1c, 0, .none, none, .none, 1, 0⟩
/-- UL_ACCEPTED [31:0] RO -/
def SCH_UL_ACCEPTED : Fld := ⟨0x8110, 4, 0, 32, .ro, 0, .none, none, .none, 1, 0⟩
/-- DUP_UL [15:0] RC -/
def SCH_DUP_UL : Fld := ⟨0x8114, 2, 0, 16, .rc, 0, .none, none, .none, 1, 0⟩
/-- REPLAY [15:0] RC -/
def SCH_REPLAY : Fld := ⟨0x8116, 2, 0, 16, .rc, 0, .none, none, .none, 1, 0⟩
/-- UNKNOWN [15:0] RC -/
def SCH_UNKNOWN : Fld := ⟨0x8118, 2, 0, 16, .rc, 0, .none, none, .none, 1, 0⟩
/-- UNK_DROP [15:0] RC -/
def SCH_UNK_DROP : Fld := ⟨0x811A, 2, 0, 16, .rc, 0, .none, none, .none, 1, 0⟩
/-- JOIN_NEW [15:0] RC -/
def SCH_JOIN_NEW : Fld := ⟨0x811C, 2, 0, 16, .rc, 0, .none, none, .none, 1, 0⟩
/-- JOIN_FAIL [15:0] RC -/
def SCH_JOIN_FAIL : Fld := ⟨0x811E, 2, 0, 16, .rc, 0, .none, none, .none, 1, 0⟩
/-- ACKS_DECL [31:0] RO -/
def SCH_ACKS_DECL : Fld := ⟨0x8120, 4, 0, 32, .ro, 0, .none, none, .none, 1, 0⟩
/-- ACK_WD [15:0] RC -/
def SCH_ACK_WD : Fld := ⟨0x8124, 2, 0, 16, .rc, 0, .none, none, .none, 1, 0⟩
/-- ACK_LATE [15:0] RC -/
def SCH_ACK_LATE : Fld := ⟨0x8126, 2, 0, 16, .rc, 0, .none, none, .none, 1, 0⟩
/-- DL_ACKED [31:0] RO -/
def SCH_DL_ACKED : Fld := ⟨0x8128, 4, 0, 32, .ro, 0, .none, none, .none, 1, 0⟩
/-- DL_NOACK [15:0] RC -/
def SCH_DL_NOACK : Fld := ⟨0x812C, 2, 0, 16, .rc, 0, .none, none, .none, 1, 0⟩
/-- DL_REPEAT [15:0] RC -/
def SCH_DL_REPEAT : Fld := ⟨0x812E, 2, 0, 16, .rc, 0, .none, none, .none, 1, 0⟩
/-- DL_EXPIRED [15:0] RC -/
def SCH_DL_EXPIRED : Fld := ⟨0x8130, 2, 0, 16, .rc, 0, .none, none, .none, 1, 0⟩
/-- DL_EPOCH [15:0] RC -/
def SCH_DL_EPOCH : Fld := ⟨0x8132, 2, 0, 16, .rc, 0, .none, none, .none, 1, 0⟩
/-- NAK_MAP [15:0] RC -/
def SCH_NAK_MAP : Fld := ⟨0x8134, 2, 0, 16, .rc, 0, .none, none, .none, 1, 0⟩
/-- MAP_SENT [15:0] RC -/
def SCH_MAP_SENT : Fld := ⟨0x8136, 2, 0, 16, .rc, 0, .none, none, .none, 1, 0⟩
/-- OPP_SENT [15:0] RC -/
def SCH_OPP_SENT : Fld := ⟨0x8138, 2, 0, 16, .rc, 0, .none, none, .none, 1, 0⟩
/-- ACK_CLASH [15:0] RC -/
def SCH_ACK_CLASH : Fld := ⟨0x813A, 2, 0, 16, .rc, 0, .none, none, .none, 1, 0⟩
/-- MC_CLASH [15:0] RC -/
def SCH_MC_CLASH : Fld := ⟨0x813C, 2, 0, 16, .rc, 0, .none, none, .none, 1, 0⟩
/-- MC_ENT [7:0] RW -/
def SCH_MC_ENT : Fld := ⟨0x8140, 1, 0, 8, .rw, 0, .none, none, .none, 8, 16⟩
/-- MC_EN [0] RW -/
def SCH_MC_EN : Fld := ⟨0x8141, 1, 0, 1, .rw, 0, .none, none, .none, 8, 16⟩
/-- MC_OPT [2:1] RW -/
def SCH_MC_OPT : Fld := ⟨0x8141, 1, 1, 2, .rw, 0, .none, none, .none, 8, 16⟩
/-- MC_MCS [5:3] RW -/
def SCH_MC_MCS : Fld := ⟨0x8141, 1, 3, 3, .rw, 0, .none, none, .none, 8, 16⟩
/-- MC_GRPID [7:0] RW -/
def SCH_MC_GRPID : Fld := ⟨0x8142, 1, 0, 8, .rw, 0, .range 0 254, none, .none, 8, 16⟩
/-- MC_STAT [0] RO -/
def SCH_MC_STAT : Fld := ⟨0x8143, 1, 0, 1, .ro, 0, .none, some .mcStat, .none, 8, 16⟩
/-- MC_BINT [15:0] RW -/
def SCH_MC_BINT : Fld := ⟨0x8144, 2, 0, 16, .rw, 1000, .range 10 65535, none, .none, 8, 16⟩
/-- MC_START [31:0] RW -/
def SCH_MC_START : Fld := ⟨0x8148, 4, 0, 32, .rw, 0, .none, none, .none, 8, 16⟩
/-- MC_SENT [15:0] RC -/
def SCH_MC_SENT : Fld := ⟨0x814C, 2, 0, 16, .rc, 0, .none, none, .none, 8, 16⟩
/-- MC_MISSED [15:0] RC -/
def SCH_MC_MISSED : Fld := ⟨0x814E, 2, 0, 16, .rc, 0, .none, none, .none, 8, 16⟩
/-- FREE_CELLS [16:0] RO -/
def CAR_FREE_CELLS : Fld := ⟨0x9000, 3, 0, 17, .ro, 65536, .none, some .freeCells, .none, 1, 0⟩
/-- FREE_MIN [16:0] RC -/
def CAR_FREE_MIN : Fld := ⟨0x9004, 3, 0, 17, .rc, 65536, .none, none, .none, 1, 0⟩
/-- TX_RSV [15:0] RW -/
def CAR_TX_RSV : Fld := ⟨0x9008, 2, 0, 16, .rw, 2112, .range 0 32768, none, .none, 1, 0⟩
/-- RXQ_LIM [15:0] RW -/
def CAR_RXQ_LIM : Fld := ⟨0x900A, 2, 0, 16, .rw, 8192, .range 33 65535, none, .none, 1, 0⟩
/-- RECQ_LIM [15:0] RW -/
def CAR_RECQ_LIM : Fld := ⟨0x900C, 2, 0, 16, .rw, 1024, .range 33 65535, none, .none, 1, 0⟩
/-- UL_RINGS [4:0] RS -/
def CAR_UL_RINGS : Fld := ⟨0x9010, 1, 0, 5, .rs, 4, .range 1 16, none, .none, 1, 0⟩
/-- UNK_RING [3:0] RS -/
def CAR_UNK_RING : Fld := ⟨0x9011, 1, 0, 4, .rs, 0, .none, none, .none, 1, 0⟩
/-- TMR_RING [7:4] RS -/
def CAR_TMR_RING : Fld := ⟨0x9011, 1, 4, 4, .rs, 0, .none, none, .none, 1, 0⟩
/-- CAR_EVT [6:0] W1C -/
def CAR_CAR_EVT : Fld := ⟨0x9014, 1, 0, 7, .w1c, 0, .none, none, .none, 1, 0⟩
/-- SQ_IDX [7:0] RW -/
def CAR_SQ_IDX : Fld := ⟨0x9018, 1, 0, 8, .rw, 0, .none, none, .none, 1, 0⟩
/-- SQ_ITEMS [15:0] RO -/
def CAR_SQ_ITEMS : Fld := ⟨0x901A, 2, 0, 16, .ro, 0, .none, some .sqItems, .none, 1, 0⟩
/-- SQ_CELLS [16:0] RO -/
def CAR_SQ_CELLS : Fld := ⟨0x901C, 3, 0, 17, .ro, 0, .none, some .sqCells, .none, 1, 0⟩
/-- CE_LOC [15:0] RO -/
def CAR_CE_LOC : Fld := ⟨0x9020, 2, 0, 16, .ro, 0, .none, none, .none, 1, 0⟩
/-- CE_SRC [1:0] RO -/
def CAR_CE_SRC : Fld := ⟨0x9022, 1, 0, 2, .ro, 0, .none, none, .none, 1, 0⟩
/-- DE_LOC [15:0] RO -/
def CAR_DE_LOC : Fld := ⟨0x9024, 2, 0, 16, .ro, 0, .none, none, .none, 1, 0⟩
/-- DE_SRC [1:0] RO -/
def CAR_DE_SRC : Fld := ⟨0x9026, 1, 0, 2, .ro, 0, .none, none, .none, 1, 0⟩
/-- CELL_CE [15:0] RC -/
def CAR_CELL_CE : Fld := ⟨0x9040, 2, 0, 16, .rc, 0, .none, none, .none, 1, 0⟩
/-- RX_DROP [15:0] RC -/
def CAR_RX_DROP : Fld := ⟨0x9042, 2, 0, 16, .rc, 0, .none, none, .none, 1, 0⟩
/-- SQ_DROP [15:0] RC -/
def CAR_SQ_DROP : Fld := ⟨0x9044, 2, 0, 16, .rc, 0, .none, none, .none, 1, 0⟩
/-- SEQ_ORDER [15:0] RC -/
def CAR_SEQ_ORDER : Fld := ⟨0x9046, 2, 0, 16, .rc, 0, .none, none, .none, 1, 0⟩
/-- NO_ENTRY_TX [15:0] RC -/
def CAR_NO_ENTRY_TX : Fld := ⟨0x9048, 2, 0, 16, .rc, 0, .none, none, .none, 1, 0⟩
/-- PURGED [15:0] RC -/
def CAR_PURGED : Fld := ⟨0x904A, 2, 0, 16, .rc, 0, .none, none, .none, 1, 0⟩
/-- TRUNC_ITEMS [15:0] RC -/
def CAR_TRUNC_ITEMS : Fld := ⟨0x904C, 2, 0, 16, .rc, 0, .none, none, .none, 1, 0⟩
/-- SWEPT [16:0] RC -/
def CAR_SWEPT : Fld := ⟨0x904E, 3, 0, 17, .rc, 0, .none, none, .none, 1, 0⟩
/-- TEV_POP0–TEV_POP15 [7:0] each RO -/
def CAR_TEV_POP : Fld := ⟨0x9080, 17, 0, 128, .ro, 0, .none, none, .none, 1, 0⟩
/-- TEV_PSTAT [1:0] RO -/
def CAR_TEV_PSTAT : Fld := ⟨0x9080, 17, 128, 2, .ro, 0, .none, none, .none, 1, 0⟩
/-- TEV_QSTAT [0] RO -/
def CAR_TEV_EMPTY : Fld := ⟨0x9091, 1, 0, 1, .ro, 1, .none, some .tevEmpty, .none, 1, 0⟩
/-- TEV_QSTAT [1] W1C -/
def CAR_TEV_UNDERRUN : Fld := ⟨0x9091, 1, 1, 1, .w1c, 0, .none, none, .none, 1, 0⟩
/-- TEV_DEPTH [15:0] RO -/
def CAR_TEV_DEPTH : Fld := ⟨0x9092, 2, 0, 16, .ro, 0, .none, some .tevDepth, .none, 1, 0⟩
/-- SEV_POP0–SEV_POP15 [7:0] each RO -/
def CAR_SEV_POP : Fld := ⟨0x90A0, 17, 0, 128, .ro, 0, .none, none, .none, 1, 0⟩
/-- SEV_PSTAT [1:0] RO -/
def CAR_SEV_PSTAT : Fld := ⟨0x90A0, 17, 128, 2, .ro, 0, .none, none, .none, 1, 0⟩
/-- SEV_QSTAT [0] RO -/
def CAR_SEV_EMPTY : Fld := ⟨0x90B1, 1, 0, 1, .ro, 1, .none, some .sevEmpty, .none, 1, 0⟩
/-- SEV_QSTAT [1] W1C -/
def CAR_SEV_UNDERRUN : Fld := ⟨0x90B1, 1, 1, 1, .w1c, 0, .none, none, .none, 1, 0⟩
/-- SEV_DEPTH [15:0] RO -/
def CAR_SEV_DEPTH : Fld := ⟨0x90B2, 2, 0, 16, .ro, 0, .none, some .sevDepth, .none, 1, 0⟩
/-- KSTATE [2:0] RO -/
def KEY_KSTATE : Fld := ⟨0xA000, 1, 0, 3, .ro, 0, .none, none, .none, 1, 0⟩
/-- KEYS_LOST [0] RO -/
def KEY_KEYS_LOST : Fld := ⟨0xA001, 1, 0, 1, .ro, 0, .none, none, .none, 1, 0⟩
/-- FROM_NVM [1] RO -/
def KEY_FROM_NVM : Fld := ⟨0xA001, 1, 1, 1, .ro, 0, .none, none, .none, 1, 0⟩
/-- LATCH [2] RO -/
def KEY_LATCH : Fld := ⟨0xA001, 1, 2, 1, .ro, 0, .none, some .latch, .none, 1, 0⟩
/-- ZERO_OK [3] RO -/
def KEY_ZERO_OK : Fld := ⟨0xA001, 1, 3, 1, .ro, 0, .none, none, .none, 1, 0⟩
/-- EPOCH_CUR [7:0] RO -/
def KEY_EPOCH_CUR : Fld := ⟨0xA002, 1, 0, 8, .ro, 0, .none, some .epochCur, .none, 1, 0⟩
/-- EPOCH_PREV [7:0] RO -/
def KEY_EPOCH_PREV : Fld := ⟨0xA003, 1, 0, 8, .ro, 0, .none, some .epochPrev, .none, 1, 0⟩
/-- EPOCH_LEFT [7:0] RO -/
def KEY_EPOCH_LEFT : Fld := ⟨0xA004, 1, 0, 8, .ro, 0, .none, some .epochLeft, .none, 1, 0⟩
/-- GRACE_S [5:0] RW -/
def KEY_GRACE_S : Fld := ⟨0xA005, 1, 0, 6, .rw, 30, .range 0 60, none, .none, 1, 0⟩
/-- GRACE_LEFT [5:0] RO -/
def KEY_GRACE_LEFT : Fld := ⟨0xA006, 1, 0, 6, .ro, 0, .none, some .graceLeft, .none, 1, 0⟩
/-- EPOCH_CMD [0] WO -/
def KEY_EPOCH_CMD : Fld := ⟨0xA007, 1, 0, 1, .wo, 0, .none, none, .none, 1, 0⟩
/-- EPOCH_STAT [1:0] RO -/
def KEY_EPOCH_STAT : Fld := ⟨0xA008, 1, 0, 2, .ro, 0, .none, none, .none, 1, 0⟩
/-- DL_SEC [2:0] RW -/
def KEY_DL_SEC : Fld := ⟨0xA00A, 1, 0, 3, .rw, 5, .range 5 7, none, .none, 1, 0⟩
/-- UL_SEC_MIN [2:0] RS -/
def KEY_UL_SEC_MIN : Fld := ⟨0xA00B, 1, 0, 3, .rs, 5, .range 1 7, none, .none, 1, 0⟩
/-- BCN_GRP [7:0] RS -/
def KEY_BCN_GRP : Fld := ⟨0xA00C, 1, 0, 8, .rs, 255, .none, none, .none, 1, 0⟩
/-- FC_NEXT [31:0] RO -/
def KEY_FC_NEXT : Fld := ⟨0xA010, 4, 0, 32, .ro, 0, .none, none, .none, 1, 0⟩
/-- FC_BLOCK [15:0] RO -/
def KEY_FC_BLOCK : Fld := ⟨0xA014, 2, 0, 16, .ro, 0, .none, none, .none, 1, 0⟩
/-- KU_OTP [10:0] RO -/
def KEY_KU_OTP : Fld := ⟨0xA018, 2, 0, 11, .ro, 0, .none, some .kuOtp, .none, 1, 0⟩
/-- KU_STAT [1:0] RO -/
def KEY_KU_STAT : Fld := ⟨0xA01A, 1, 0, 2, .ro, 0, .none, none, .none, 1, 0⟩
/-- KU_KIND [4:2] RO -/
def KEY_KU_KIND : Fld := ⟨0xA01A, 1, 2, 3, .ro, 0, .none, none, .none, 1, 0⟩
/-- KU_REASON [3:0] RO -/
def KEY_KU_REASON : Fld := ⟨0xA01B, 1, 0, 4, .ro, 0, .none, none, .none, 1, 0⟩
/-- TAMPER_EN [5:0] RS -/
def KEY_TAMPER_EN : Fld := ⟨0xA020, 1, 0, 6, .rs, 63, .none, none, .none, 1, 0⟩
/-- SCRAP_ON_TAMPER [0] RS -/
def KEY_SCRAP_ON_TAMPER : Fld := ⟨0xA021, 1, 0, 1, .rs, 0, .none, none, .none, 1, 0⟩
/-- VBAT_LOSS_TAMPER [1] RS -/
def KEY_VBAT_LOSS_TAMPER : Fld := ⟨0xA021, 1, 1, 1, .rs, 0, .none, none, .none, 1, 0⟩
/-- TAMPER_SRC [5:0] RO -/
def KEY_TAMPER_SRC : Fld := ⟨0xA022, 1, 0, 6, .ro, 0, .none, some .tamperSrc, .none, 1, 0⟩
/-- TAMPER_WHEN [1:0] RO -/
def KEY_TAMPER_WHEN : Fld := ⟨0xA023, 1, 0, 2, .ro, 0, .none, some .tamperWhen, .none, 1, 0⟩
/-- TAMPER_KOP [2] RO -/
def KEY_TAMPER_KOP : Fld := ⟨0xA023, 1, 2, 1, .ro, 0, .none, some .tamperKop, .none, 1, 0⟩
/-- TAMPER_CNT [7:0] RO -/
def KEY_TAMPER_CNT : Fld := ⟨0xA024, 1, 0, 8, .ro, 0, .none, some .tamperCnt, .none, 1, 0⟩
/-- KEY_EVT [4:0] W1C -/
def KEY_KEY_EVT : Fld := ⟨0xA025, 1, 0, 5, .w1c, 0, .none, none, .none, 1, 0⟩
/-- DIE_ID [7:0] each RO -/
def KEY_DIE_ID : Fld := ⟨0xA030, 1, 0, 8, .ro, 0, .none, some .dieId, .none, 16, 1⟩
/-- DEV_IDENT [7:0] each RO -/
def KEY_DEV_IDENT : Fld := ⟨0xA040, 1, 0, 8, .ro, 0, .none, some .devIdent, .none, 32, 1⟩
/-- DEV_EUI [63:0] RO -/
def KEY_DEV_EUI : Fld := ⟨0xA060, 8, 0, 64, .ro, 0, .none, some .devEui, .none, 1, 0⟩
/-- AUTH_FAIL [15:0] RC -/
def KEY_AUTH_FAIL : Fld := ⟨0xA080, 2, 0, 16, .rc, 0, .none, none, .none, 1, 0⟩
/-- AUTH_LEVEL [15:0] RC -/
def KEY_AUTH_LEVEL : Fld := ⟨0xA082, 2, 0, 16, .rc, 0, .none, none, .none, 1, 0⟩
/-- AUTH_NOKEY [15:0] RC -/
def KEY_AUTH_NOKEY : Fld := ⟨0xA084, 2, 0, 16, .rc, 0, .none, none, .none, 1, 0⟩
/-- GRACE_UL [15:0] RC -/
def KEY_GRACE_UL : Fld := ⟨0xA086, 2, 0, 16, .rc, 0, .none, none, .none, 1, 0⟩
/-- EPOCH_DROP [15:0] RC -/
def KEY_EPOCH_DROP : Fld := ⟨0xA088, 2, 0, 16, .rc, 0, .none, none, .none, 1, 0⟩
/-- NOKEY_TX [15:0] RC -/
def KEY_NOKEY_TX : Fld := ⟨0xA08A, 2, 0, 16, .rc, 0, .none, none, .none, 1, 0⟩
/-- FC_EXHAUST [15:0] RC -/
def KEY_FC_EXHAUST : Fld := ⟨0xA08C, 2, 0, 16, .rc, 0, .none, none, .none, 1, 0⟩
/-- KU_REFUSED [15:0] RC -/
def KEY_KU_REFUSED : Fld := ⟨0xA08E, 2, 0, 16, .rc, 0, .none, none, .none, 1, 0⟩
/-- STG_STATE [2:0] RO -/
def SYS_STG_STATE : Fld := ⟨0x0060, 1, 0, 3, .ro, 0, .none, some .stgState, .none, 1, 0⟩
/-- STG_KIND [4:3] RO -/
def SYS_STG_KIND : Fld := ⟨0x0060, 1, 3, 2, .ro, 0, .none, none, .none, 1, 0⟩
/-- STG_REJ_WHY [2:0] RO -/
def SYS_STG_REJ_WHY : Fld := ⟨0x0061, 1, 0, 3, .ro, 0, .none, none, .none, 1, 0⟩
/-- UPD_OWNER [1:0] RO -/
def SYS_UPD_OWNER : Fld := ⟨0x0062, 1, 0, 2, .ro, 0, .none, none, .none, 1, 0⟩
/-- UPD_LAST [3:2] RO -/
def SYS_UPD_LAST : Fld := ⟨0x0062, 1, 2, 2, .ro, 0, .none, none, .none, 1, 0⟩
/-- UPD_LAST_SRC [5:4] RO -/
def SYS_UPD_LAST_SRC : Fld := ⟨0x0062, 1, 4, 2, .ro, 0, .none, none, .none, 1, 0⟩
/-- UPD_REASON [3:0] RO -/
def SYS_UPD_REASON : Fld := ⟨0x0063, 1, 0, 4, .ro, 0, .none, none, .none, 1, 0⟩
/-- UPD_SESSION [11:0] RO -/
def SYS_UPD_SESSION : Fld := ⟨0x0064, 2, 0, 12, .ro, 0, .none, none, .none, 1, 0⟩
/-- UPD_NEXT [11:0] RO -/
def SYS_UPD_NEXT : Fld := ⟨0x0066, 2, 0, 12, .ro, 0, .none, none, .none, 1, 0⟩
/-- ARB_OTP [7:0] RO -/
def SYS_ARB_OTP : Fld := ⟨0x0068, 1, 0, 8, .ro, 0, .none, some .arbOtp, .none, 1, 0⟩
/-- UPD_IDLE [4:0] RO -/
def SYS_UPD_IDLE : Fld := ⟨0x0069, 1, 0, 5, .ro, 0, .none, some .updIdle, .none, 1, 0⟩
/-- UPD_EVT [1:0] W1C -/
def SYS_UPD_EVT : Fld := ⟨0x006A, 1, 0, 2, .w1c, 0, .none, none, .none, 1, 0⟩
/-- UPD_KILL [0] WO -/
def SYS_UPD_KILL : Fld := ⟨0x006B, 1, 0, 1, .wo, 0, .none, none, .none, 1, 0⟩
/-- UPD_KILL_ST [1:0] RO -/
def SYS_UPD_KILL_ST : Fld := ⟨0x006C, 1, 0, 2, .ro, 0, .none, none, .none, 1, 0⟩
/-- UPD_BUSY_CNT [15:0] RC -/
def SYS_UPD_BUSY_CNT : Fld := ⟨0x006E, 2, 0, 16, .rc, 0, .none, none, .none, 1, 0⟩
/-- ATT_STAT [2:0] RO -/
def KEY_ATT_STAT : Fld := ⟨0xA090, 1, 0, 3, .ro, 0, .none, none, .none, 1, 0⟩
/-- ATT_READY [3] RO -/
def KEY_ATT_READY : Fld := ⟨0xA090, 1, 3, 1, .ro, 0, .none, none, .none, 1, 0⟩
/-- ATT_REASON [3:0] RO -/
def KEY_ATT_REASON : Fld := ⟨0xA091, 1, 0, 4, .ro, 0, .none, none, .none, 1, 0⟩
/-- ATT_TOKENS [4:0] RO -/
def KEY_ATT_TOKENS : Fld := ⟨0xA092, 1, 0, 5, .ro, 0, .none, none, .none, 1, 0⟩
/-- ATT_NEXT [20:0] RO -/
def KEY_ATT_NEXT : Fld := ⟨0xA094, 3, 0, 21, .ro, 0, .none, none, .none, 1, 0⟩
/-- ATT_LEFT [20:0] RO -/
def KEY_ATT_LEFT : Fld := ⟨0xA098, 3, 0, 21, .ro, 0, .none, none, .none, 1, 0⟩
/-- ATT_SEG [4:0] RO -/
def KEY_ATT_SEG : Fld := ⟨0xA09B, 1, 0, 5, .ro, 0, .none, some .attSeg, .none, 1, 0⟩
/-- ATT_EVT [1:0] W1C -/
def KEY_ATT_EVT : Fld := ⟨0xA09C, 1, 0, 2, .w1c, 0, .none, none, .none, 1, 0⟩
/-- ATT_SIGNED [15:0] RC -/
def KEY_ATT_SIGNED : Fld := ⟨0xA0A0, 2, 0, 16, .rc, 0, .none, none, .none, 1, 0⟩
/-- ATT_REFUSED [15:0] RC -/
def KEY_ATT_REFUSED : Fld := ⟨0xA0A2, 2, 0, 16, .rc, 0, .none, none, .none, 1, 0⟩
/-- ATT_WASTED [15:0] RC -/
def KEY_ATT_WASTED : Fld := ⟨0xA0A4, 2, 0, 16, .rc, 0, .none, none, .none, 1, 0⟩
/-- TIME_NOW [63:0] RO -/
def TIM_TIME_NOW : Fld := ⟨0xB000, 8, 0, 64, .ro, 0, .none, some .timeNow, .none, 1, 0⟩
/-- TIME_SET [0] RO -/
def TIM_TIME_SET : Fld := ⟨0xB008, 1, 0, 1, .ro, 0, .none, none, .none, 1, 0⟩
/-- STEPPED [1] RO -/
def TIM_STEPPED : Fld := ⟨0xB008, 1, 1, 1, .ro, 0, .none, none, .none, 1, 0⟩
/-- SRC [3:2] RO -/
def TIM_SRC : Fld := ⟨0xB008, 1, 2, 2, .ro, 0, .none, none, .none, 1, 0⟩
/-- SEL_MODE [1:0] RW -/
def TIM_SEL_MODE : Fld := ⟨0xB009, 1, 0, 2, .rw, 0, .none, none, .none, 1, 0⟩
/-- DOM_PREF [2] RW -/
def TIM_DOM_PREF : Fld := ⟨0xB009, 1, 2, 1, .rw, 0, .none, none, .none, 1, 0⟩
/-- SLEW_MAX [15:0] RW -/
def TIM_SLEW_MAX : Fld := ⟨0xB00A, 2, 0, 16, .rw, 1000, .range 1 1000, none, .none, 1, 0⟩
/-- STEER_TC [5:0] RW -/
def TIM_STEER_TC : Fld := ⟨0xB00C, 1, 0, 6, .rw, 2, .range 1 60, none, .none, 1, 0⟩
/-- OFS_WARN_US [7:0] RW -/
def TIM_OFS_WARN_US : Fld := ⟨0xB00D, 1, 0, 8, .rw, 2, .range 1 255, none, .none, 1, 0⟩
/-- RATE_ADJ [31:0] RO -/
def TIM_RATE_ADJ : Fld := ⟨0xB010, 4, 0, 32, .ro, 0, .none, none, .none, 1, 0⟩
/-- STEER_OFS [63:0] RO -/
def TIM_STEER_OFS : Fld := ⟨0xB018, 8, 0, 64, .ro, 0, .none, none, .none, 1, 0⟩
/-- TIM_EVT [5:0] W1C -/
def TIM_TIM_EVT : Fld := ⟨0xB020, 1, 0, 6, .w1c, 0, .none, none, .none, 1, 0⟩
/-- TC_EN [0] RS -/
def TIM_TC_EN : Fld := ⟨0xB021, 1, 0, 1, .rs, 1, .none, none, .none, 1, 0⟩
/-- DOM_DIFF [63:0] RO -/
def TIM_DOM_DIFF : Fld := ⟨0xB028, 8, 0, 64, .ro, 0, .none, some .domDiff, .none, 1, 0⟩
/-- DOM_NUM [7:0] RS -/
def TIM_DOM_NUM (d : Dom) : Fld := ⟨0xB040 + d.off + 0x00, 1, 0, 8, .rs, (match d with | .A => 0x00 | .B => 0x18), .none, none, .none, 1, 0⟩
/-- DOM_EN [0] RS -/
def TIM_DOM_EN (d : Dom) : Fld := ⟨0xB040 + d.off + 0x01, 1, 0, 1, .rs, (match d with | .A => 1 | .B => 0), .none, none, .none, 1, 0⟩
/-- DOM_TRANSPORT [1] RS -/
def TIM_DOM_TRANSPORT (d : Dom) : Fld := ⟨0xB040 + d.off + 0x01, 1, 1, 1, .rs, 0, .none, none, .none, 1, 0⟩
/-- DOM_PORT [3:2] RS -/
def TIM_DOM_PORT (d : Dom) : Fld := ⟨0xB040 + d.off + 0x01, 1, 2, 2, .rs, 2, .range 0 2, none, .none, 1, 0⟩
/-- QUAL_CLASS [7:0] RS -/
def TIM_QUAL_CLASS (d : Dom) : Fld := ⟨0xB040 + d.off + 0x02, 1, 0, 8, .rs, 7, .none, none, .none, 1, 0⟩
/-- QUAL_N [6:0] RS -/
def TIM_QUAL_N (d : Dom) : Fld := ⟨0xB040 + d.off + 0x03, 1, 0, 7, .rs, 8, .range 4 64, none, .none, 1, 0⟩
/-- QUAL_NS [15:0] RS -/
def TIM_QUAL_NS (d : Dom) : Fld := ⟨0xB040 + d.off + 0x04, 2, 0, 16, .rs, 100, .range 1 65535, none, .none, 1, 0⟩
/-- SYNC_TMO [6:0] RS -/
def TIM_SYNC_TMO (d : Dom) : Fld := ⟨0xB040 + d.off + 0x06, 1, 0, 7, .rs, 20, .range 1 100, none, .none, 1, 0⟩
/-- DOM_STATE [1:0] RO -/
def TIM_DOM_STATE (d : Dom) : Fld := ⟨0xB040 + d.off + 0x07, 1, 0, 2, .ro, 0, .none, some .domState, .none, 1, 0⟩
/-- MASTER_PORT [3:2] RO -/
def TIM_MASTER_PORT (d : Dom) : Fld := ⟨0xB040 + d.off + 0x07, 1, 2, 2, .ro, 0, .none, none, .none, 1, 0⟩
/-- DOM_OFS [63:0] RO -/
def TIM_DOM_OFS (d : Dom) : Fld := ⟨0xB040 + d.off + 0x08, 8, 0, 64, .ro, 0, .none, some .domOfs, .none, 1, 0⟩
/-- DOM_MPD [31:0] RO -/
def TIM_DOM_MPD (d : Dom) : Fld := ⟨0xB040 + d.off + 0x10, 4, 0, 32, .ro, 0, .none, none, .none, 1, 0⟩
/-- DOM_FREQ [31:0] RO -/
def TIM_DOM_FREQ (d : Dom) : Fld := ⟨0xB040 + d.off + 0x14, 4, 0, 32, .ro, 0, .none, none, .none, 1, 0⟩
/-- DOM_CLASS [7:0] RO -/
def TIM_DOM_CLASS (d : Dom) : Fld := ⟨0xB040 + d.off + 0x18, 1, 0, 8, .ro, 255, .none, none, .none, 1, 0⟩
/-- DOM_UTC [15:0] RO -/
def TIM_DOM_UTC (d : Dom) : Fld := ⟨0xB040 + d.off + 0x1A, 2, 0, 16, .ro, 0, .none, none, .none, 1, 0⟩
/-- DOM_EXCH [31:0] RO -/
def TIM_DOM_EXCH (d : Dom) : Fld := ⟨0xB040 + d.off + 0x1C, 4, 0, 32, .ro, 0, .none, none, .none, 1, 0⟩
/-- GM_ID_A [7:0] each RO -/
def TIM_GM_ID_A : Fld := ⟨0xB080, 8, 0, 64, .ro, 0, .none, none, .none, 1, 0⟩
/-- GM_ID_B [7:0] each RO -/
def TIM_GM_ID_B : Fld := ⟨0xB088, 8, 0, 64, .ro, 0, .none, none, .none, 1, 0⟩
/-- TC_FIXED [31:0] RO -/
def TIM_TC_FIXED : Fld := ⟨0xB0C0, 4, 0, 32, .ro, 0, .none, none, .none, 1, 0⟩
/-- TC_NOPAD [15:0] RC -/
def TIM_TC_NOPAD : Fld := ⟨0xB0C4, 2, 0, 16, .rc, 0, .none, none, .none, 1, 0⟩
/-- TC_SKIP [15:0] RC -/
def TIM_TC_SKIP : Fld := ⟨0xB0C6, 2, 0, 16, .rc, 0, .none, none, .none, 1, 0⟩
/-- PTP_BAD [15:0] RC -/
def TIM_PTP_BAD : Fld := ⟨0xB0C8, 2, 0, 16, .rc, 0, .none, none, .none, 1, 0⟩
/-- LOST_A [15:0] RC -/
def TIM_LOST_A : Fld := ⟨0xB0CA, 2, 0, 16, .rc, 0, .none, none, .none, 1, 0⟩
/-- LOST_B [15:0] RC -/
def TIM_LOST_B : Fld := ⟨0xB0CC, 2, 0, 16, .rc, 0, .none, none, .none, 1, 0⟩
/-- SEL_SWITCH [15:0] RC -/
def TIM_SEL_SWITCH : Fld := ⟨0xB0CE, 2, 0, 16, .rc, 0, .none, none, .none, 1, 0⟩
/-- ADJ_CLAMP [15:0] RC -/
def TIM_ADJ_CLAMP : Fld := ⟨0xB0D0, 2, 0, 16, .rc, 0, .none, none, .none, 1, 0⟩
/-- SPINE_ERR [15:0] RC -/
def TIM_SPINE_ERR : Fld := ⟨0xB0D2, 2, 0, 16, .rc, 0, .none, none, .none, 1, 0⟩
/-- PORT_MODE_A [1:0] RS -/
def ETH_PORT_MODE_A : Fld := ⟨0xC000, 1, 0, 2, .rs, 1, .none, none, .none, 1, 0⟩
/-- PORT_MODE_B [3:2] RS -/
def ETH_PORT_MODE_B : Fld := ⟨0xC000, 1, 2, 2, .rs, 1, .none, none, .none, 1, 0⟩
/-- LINK_STAT [4:0] RO -/
def ETH_LINK_STAT : Fld := ⟨0xC001, 1, 0, 5, .ro, 0, .none, none, .none, 1, 0⟩
/-- TX_OFF [1:0] RW -/
def ETH_TX_OFF : Fld := ⟨0xC002, 1, 0, 2, .rw, 0, .none, none, .none, 1, 0⟩
/-- ETH_EVT [2:0] W1C -/
def ETH_ETH_EVT : Fld := ⟨0xC004, 1, 0, 3, .w1c, 0, .none, none, .none, 1, 0⟩
/-- EP_MAC [47:0] RS -/
def ETH_EP_MAC : Fld := ⟨0xC008, 6, 0, 48, .rs, 0, .none, none, .none, 1, 0⟩
/-- EP_VID [11:0] RS -/
def ETH_EP_VID : Fld := ⟨0xC00E, 2, 0, 12, .rs, 0, .range 0 4094, none, .none, 1, 0⟩
/-- EP_IP6 [7:0] each RS -/
def ETH_EP_IP6 : Fld := ⟨0xC010, 1, 0, 8, .rs, 0, .none, none, .none, 16, 1⟩
/-- GW_MAC [47:0] RS -/
def ETH_GW_MAC : Fld := ⟨0xC020, 6, 0, 48, .rs, 0, .none, none, .none, 1, 0⟩
/-- HE_IP6 [7:0] each RS -/
def ETH_HE_IP6 : Fld := ⟨0xC028, 1, 0, 8, .rs, 0, .none, none, .none, 16, 1⟩
/-- HE_PORT [15:0] RS -/
def ETH_HE_PORT : Fld := ⟨0xC038, 2, 0, 16, .rs, 23104, .range 1 65535, none, .none, 1, 0⟩
/-- TUN_PORT [15:0] RS -/
def ETH_TUN_PORT : Fld := ⟨0xC03A, 2, 0, 16, .rs, 23104, .range 1 65535, none, .none, 1, 0⟩
/-- MGT_PORT [15:0] RS -/
def ETH_MGT_PORT : Fld := ⟨0xC03C, 2, 0, 16, .rs, 23105, .range 1 65535, none, .none, 1, 0⟩
/-- EP_MTU [13:0] RS -/
def ETH_EP_MTU : Fld := ⟨0xC03E, 2, 0, 14, .rs, 1500, .range 1280 9000, none, .none, 1, 0⟩
/-- TUN_WIN [7:0] RW -/
def ETH_TUN_WIN : Fld := ⟨0xC040, 1, 0, 8, .rw, 64, .range 1 255, none, .none, 1, 0⟩
/-- TUN_RTO [7:0] RW -/
def ETH_TUN_RTO : Fld := ⟨0xC041, 1, 0, 8, .rw, 10, .range 1 255, none, .none, 1, 0⟩
/-- BOOT_ID [63:0] RO -/
def ETH_BOOT_ID : Fld := ⟨0xC044, 8, 0, 64, .ro, 0, .none, none, .none, 1, 0⟩
/-- TUN_RX_NEXT [31:0] RO -/
def ETH_TUN_RX_NEXT : Fld := ⟨0xC04C, 4, 0, 32, .ro, 1, .none, none, .none, 1, 0⟩
/-- TUN_TX_NEXT [31:0] RO -/
def ETH_TUN_TX_NEXT : Fld := ⟨0xC050, 4, 0, 32, .ro, 1, .none, none, .none, 1, 0⟩
/-- TUN_TX_ACKED [31:0] RO -/
def ETH_TUN_TX_ACKED : Fld := ⟨0xC054, 4, 0, 32, .ro, 1, .none, none, .none, 1, 0⟩
/-- BR_FWD_AB [31:0] RO -/
def ETH_BR_FWD_AB : Fld := ⟨0xC080, 4, 0, 32, .ro, 0, .none, none, .none, 1, 0⟩
/-- BR_FWD_BA [31:0] RO -/
def ETH_BR_FWD_BA : Fld := ⟨0xC084, 4, 0, 32, .ro, 0, .none, none, .none, 1, 0⟩
/-- BR_DROP [15:0] RC -/
def ETH_BR_DROP : Fld := ⟨0xC088, 2, 0, 16, .rc, 0, .none, none, .none, 1, 0⟩
/-- BR_FCS [15:0] RC -/
def ETH_BR_FCS : Fld := ⟨0xC08A, 2, 0, 16, .rc, 0, .none, none, .none, 1, 0⟩
/-- EP_DROP [15:0] RC -/
def ETH_EP_DROP : Fld := ⟨0xC08C, 2, 0, 16, .rc, 0, .none, none, .none, 1, 0⟩
/-- DG_BAD [15:0] RC -/
def ETH_DG_BAD : Fld := ⟨0xC08E, 2, 0, 16, .rc, 0, .none, none, .none, 1, 0⟩
/-- DG_AUTH [15:0] RC -/
def ETH_DG_AUTH : Fld := ⟨0xC090, 2, 0, 16, .rc, 0, .none, none, .none, 1, 0⟩
/-- DG_REPLAY [15:0] RC -/
def ETH_DG_REPLAY : Fld := ⟨0xC092, 2, 0, 16, .rc, 0, .none, none, .none, 1, 0⟩
/-- DG_NOKEY [15:0] RC -/
def ETH_DG_NOKEY : Fld := ⟨0xC094, 2, 0, 16, .rc, 0, .none, none, .none, 1, 0⟩
/-- INFO_SENT [15:0] RC -/
def ETH_INFO_SENT : Fld := ⟨0xC096, 2, 0, 16, .rc, 0, .none, none, .none, 1, 0⟩
/-- TUN_OOO [15:0] RC -/
def ETH_TUN_OOO : Fld := ⟨0xC098, 2, 0, 16, .rc, 0, .none, none, .none, 1, 0⟩
/-- TUN_DUP [15:0] RC -/
def ETH_TUN_DUP : Fld := ⟨0xC09A, 2, 0, 16, .rc, 0, .none, none, .none, 1, 0⟩
/-- TUN_RETX [15:0] RC -/
def ETH_TUN_RETX : Fld := ⟨0xC09C, 2, 0, 16, .rc, 0, .none, none, .none, 1, 0⟩
/-- FRAG_DROP [15:0] RC -/
def ETH_FRAG_DROP : Fld := ⟨0xC09E, 2, 0, 16, .rc, 0, .none, none, .none, 1, 0⟩
/-- RING [4:0] WO -/
def HST_RING : Fld := ⟨0xD000, 4, 0, 5, .wo, 0, .none, none, .none, 1, 0⟩
/-- TBL [5] WO -/
def HST_TBL : Fld := ⟨0xD000, 4, 5, 1, .wo, 0, .none, none, .none, 1, 0⟩
/-- DOORBELL_PROD [15:0] WO -/
def HST_DOORBELL_PROD : Fld := ⟨0xD000, 4, 16, 16, .wo, 0, .none, none, .none, 1, 0⟩
/-- RING_SEL [5:0] RW -/
def HST_RING_SEL : Fld := ⟨0xD008, 1, 0, 6, .rw, 0, .range 0 32, none, .none, 1, 0⟩
/-- RING_EN [0] RW -/
def HST_RING_EN : Fld := ⟨0xD009, 1, 0, 1, .rw, 0, .none, none, .ring, 1, 0⟩
/-- RING_IDLE [1] RO -/
def HST_RING_IDLE : Fld := ⟨0xD009, 1, 1, 1, .ro, 1, .none, some .ringIdle, .ring, 1, 0⟩
/-- RING_ERR [2] W1C -/
def HST_RING_ERR : Fld := ⟨0xD009, 1, 2, 1, .w1c, 0, .none, none, .ring, 1, 0⟩
/-- RING_FENCED [3] RO -/
def HST_RING_FENCED : Fld := ⟨0xD009, 1, 3, 1, .ro, 0, .none, none, .ring, 1, 0⟩
/-- RING_SIZE [3:0] RW -/
def HST_RING_SIZE : Fld := ⟨0xD00A, 1, 0, 4, .rw, 6, .range 6 15, none, .ring, 1, 0⟩
/-- RING_BASE [63:0] RW -/
def HST_RING_BASE : Fld := ⟨0xD010, 8, 0, 64, .rw, 0, .align 6, none, .ring, 1, 0⟩
/-- RING_SB [63:0] RW -/
def HST_RING_SB : Fld := ⟨0xD018, 8, 0, 64, .rw, 0, .align 3, none, .ring, 1, 0⟩
/-- RING_PROD [15:0] RO -/
def HST_RING_PROD : Fld := ⟨0xD020, 2, 0, 16, .ro, 0, .none, none, .ring, 1, 0⟩
/-- RING_FETCH [15:0] RO -/
def HST_RING_FETCH : Fld := ⟨0xD022, 2, 0, 16, .ro, 0, .none, none, .ring, 1, 0⟩
/-- RING_COMPL [15:0] RO -/
def HST_RING_COMPL : Fld := ⟨0xD024, 2, 0, 16, .ro, 0, .none, none, .ring, 1, 0⟩
/-- RING_BASE2 [63:0] RW -/
def HST_RING_BASE2 : Fld := ⟨0xD028, 8, 0, 64, .rw, 0, .align 4, none, .none, 1, 0⟩
/-- MBX_ADDR [63:0] RW -/
def HST_MBX_ADDR : Fld := ⟨0xD030, 8, 0, 64, .rw, 0, .none, none, .none, 1, 0⟩
/-- MBX_LEN [13:0] RW -/
def HST_MBX_LEN : Fld := ⟨0xD038, 2, 0, 14, .rw, 1, .range 1 8192, none, .none, 1, 0⟩
/-- MBX_CMD [1:0] WO -/
def HST_MBX_CMD : Fld := ⟨0xD03A, 1, 0, 2, .wo, 0, .none, none, .none, 1, 0⟩
/-- MBX_STAT [1:0] RO -/
def HST_MBX_STAT : Fld := ⟨0xD03B, 1, 0, 2, .ro, 0, .none, none, .none, 1, 0⟩
/-- MBX_OVR [2] W1C -/
def HST_MBX_OVR : Fld := ⟨0xD03B, 1, 2, 1, .w1c, 0, .none, none, .none, 1, 0⟩
/-- MBX_RSP [63:0] RW -/
def HST_MBX_RSP : Fld := ⟨0xD040, 8, 0, 64, .rw, 0, .none, none, .none, 1, 0⟩
/-- MBX_RLEN [12:0] RO -/
def HST_MBX_RLEN : Fld := ⟨0xD048, 2, 0, 13, .ro, 0, .none, none, .none, 1, 0⟩
/-- HST_EVT [1:0] W1C -/
def HST_HST_EVT : Fld := ⟨0xD04C, 1, 0, 2, .w1c, 0, .none, none, .none, 1, 0⟩
/-- PCIE_STAT [4:0] RO -/
def HST_PCIE_STAT : Fld := ⟨0xD04D, 1, 0, 5, .ro, 0, .none, none, .none, 1, 0⟩
/-- SSVID [15:0] RS -/
def HST_SSVID : Fld := ⟨0xD050, 2, 0, 16, .rs, 8043, .none, none, .none, 1, 0⟩
/-- SSID [15:0] RS -/
def HST_SSID : Fld := ⟨0xD052, 2, 0, 16, .rs, 0, .none, none, .none, 1, 0⟩
/-- DMA_ERR [15:0] RC -/
def HST_DMA_ERR : Fld := ⟨0xD060, 2, 0, 16, .rc, 0, .none, none, .none, 1, 0⟩
/-- DB_CLAMP [15:0] RC -/
def HST_DB_CLAMP : Fld := ⟨0xD062, 2, 0, 16, .rc, 0, .none, none, .none, 1, 0⟩
/-- TW_EN [0] RS -/
def TWN_TW_EN : Fld := ⟨0xE000, 1, 0, 1, .rs, 0, .none, none, .none, 1, 0⟩
/-- TW_RELAY [1] RW -/
def TWN_TW_RELAY : Fld := ⟨0xE000, 1, 1, 1, .rw, 0, .none, none, .none, 1, 0⟩
/-- TW_STATE [2:0] RO -/
def TWN_TW_STATE : Fld := ⟨0xE001, 1, 0, 3, .ro, 0, .none, none, .none, 1, 0⟩
/-- TW_HOLD [3] RO -/
def TWN_TW_HOLD : Fld := ⟨0xE001, 1, 3, 1, .ro, 0, .none, none, .none, 1, 0⟩
/-- TW_LINK [4] RO -/
def TWN_TW_LINK : Fld := ⟨0xE001, 1, 4, 1, .ro, 0, .none, none, .none, 1, 0⟩
/-- TW_REGIME [5] RO -/
def TWN_TW_REGIME : Fld := ⟨0xE001, 1, 5, 1, .ro, 0, .none, none, .none, 1, 0⟩
/-- TW_VER [3:0] RO -/
def TWN_TW_VER : Fld := ⟨0xE002, 1, 0, 4, .ro, 0, .none, none, .none, 1, 0⟩
/-- TW_PVER [7:4] RO -/
def TWN_TW_PVER : Fld := ⟨0xE002, 1, 4, 4, .ro, 0, .none, none, .none, 1, 0⟩
/-- TW_CMD [1:0] WO -/
def TWN_TW_CMD : Fld := ⟨0xE003, 1, 0, 2, .wo, 0, .none, none, .none, 1, 0⟩
/-- TW_EVT [7:0] W1C -/
def TWN_TW_EVT : Fld := ⟨0xE004, 1, 0, 8, .w1c, 0, .none, none, .none, 1, 0⟩
/-- SWAP_ST [1:0] RO -/
def TWN_SWAP_ST : Fld := ⟨0xE005, 1, 0, 2, .ro, 0, .none, none, .none, 1, 0⟩
/-- RLY_ST [7:0] RO -/
def TWN_RLY_ST : Fld := ⟨0xE006, 1, 0, 8, .ro, 0, .none, none, .none, 1, 0⟩
/-- TW_CYCLE [15:0] RO -/
def TWN_TW_CYCLE : Fld := ⟨0xE008, 2, 0, 16, .ro, 0, .none, none, .none, 1, 0⟩
/-- TKO_TIME [15:0] RO -/
def TWN_TKO_TIME : Fld := ⟨0xE00A, 2, 0, 16, .ro, 0, .none, none, .none, 1, 0⟩
/-- TKO_CUT [31:0] RO -/
def TWN_TKO_CUT : Fld := ⟨0xE00C, 4, 0, 32, .ro, 0, .none, none, .none, 1, 0⟩
/-- TW_OFS [31:0] RO -/
def TWN_TW_OFS : Fld := ⟨0xE010, 4, 0, 32, .ro, 0, .none, none, .none, 1, 0⟩
/-- MIR_BYTES [23:0] RO -/
def TWN_MIR_BYTES : Fld := ⟨0xE014, 3, 0, 24, .ro, 0, .none, none, .none, 1, 0⟩
/-- HB_MISS [15:0] RC -/
def TWN_HB_MISS : Fld := ⟨0xE018, 2, 0, 16, .rc, 0, .none, none, .none, 1, 0⟩
/-- MIR_CRC [15:0] RC -/
def TWN_MIR_CRC : Fld := ⟨0xE01A, 2, 0, 16, .rc, 0, .none, none, .none, 1, 0⟩
/-- CYC_DROP [15:0] RC -/
def TWN_CYC_DROP : Fld := ⟨0xE01C, 2, 0, 16, .rc, 0, .none, none, .none, 1, 0⟩
/-- TAKEOVERS [15:0] RC -/
def TWN_TAKEOVERS : Fld := ⟨0xE01E, 2, 0, 16, .rc, 0, .none, none, .none, 1, 0⟩
/-- SPLITS [15:0] RC -/
def TWN_SPLITS : Fld := ⟨0xE020, 2, 0, 16, .rc, 0, .none, none, .none, 1, 0⟩
/-- RESYNCS [15:0] RC -/
def TWN_RESYNCS : Fld := ⟨0xE022, 2, 0, 16, .rc, 0, .none, none, .none, 1, 0⟩
/-- STBY_RX [15:0] RC -/
def TWN_STBY_RX : Fld := ⟨0xE024, 2, 0, 16, .rc, 0, .none, none, .none, 1, 0⟩
/-- CLAIM_LOST [15:0] RC -/
def TWN_CLAIM_LOST : Fld := ⟨0xE026, 2, 0, 16, .rc, 0, .none, none, .none, 1, 0⟩
/-- FNC_HANDLE [17:0] RO -/
def SYS_FNC_HANDLE : Fld := ⟨0x0018, 7, 0, 18, .ro, 0, .none, none, .none, 1, 0⟩
/-- FNC_VALID [23] RO -/
def SYS_FNC_VALID : Fld := ⟨0x0018, 7, 23, 1, .ro, 0, .none, none, .none, 1, 0⟩
/-- FNC_HSEQ [15:0] RO -/
def SYS_FNC_HSEQ : Fld := ⟨0x0018, 7, 24, 16, .ro, 0, .none, none, .none, 1, 0⟩
/-- FNC_EMPTY [0] RO -/
def SYS_FNC_EMPTY : Fld := ⟨0x0018, 7, 40, 1, .ro, 1, .none, none, .none, 1, 0⟩
/-- FNC_OVF [1] W1C -/
def SYS_FNC_OVF : Fld := ⟨0x0018, 7, 41, 1, .w1c, 0, .none, none, .none, 1, 0⟩
/-- FNC_GEN [7:0] RO -/
def SYS_FNC_GEN : Fld := ⟨0x0018, 7, 48, 8, .ro, 0, .none, none, .none, 1, 0⟩
/-- ABT_HITS [15:0] RO -/
def SYS_ABT_HITS : Fld := ⟨0x0056, 2, 0, 16, .ro, 0, .none, none, .none, 1, 0⟩
/-- ABT_HANDLE [17:0] RW -/
def SYS_ABT_HANDLE : Fld := ⟨0x0058, 3, 0, 18, .rw, 0, .none, none, .none, 1, 0⟩
/-- ABT_SEQ [15:0] RW -/
def SYS_ABT_SEQ : Fld := ⟨0x005C, 2, 0, 16, .rw, 0, .none, none, .none, 1, 0⟩
/-- ABT_CMD [1:0] WO -/
def SYS_ABT_CMD : Fld := ⟨0x005E, 1, 0, 2, .wo, 0, .none, none, .none, 1, 0⟩
/-- ABT_STAT [1:0] RO -/
def SYS_ABT_STAT : Fld := ⟨0x005F, 1, 0, 2, .ro, 0, .none, none, .none, 1, 0⟩
/-- REC_STATE [1:0] RO -/
def SYS_REC_STATE : Fld := ⟨0x0070, 1, 0, 2, .ro, 0, .none, none, .none, 1, 0⟩
/-- REGW_FENCED [2] RO -/
def SYS_REGW_FENCED : Fld := ⟨0x0070, 1, 2, 1, .ro, 0, .none, none, .none, 1, 0⟩
/-- TBL_FENCED [3] RO -/
def SYS_TBL_FENCED : Fld := ⟨0x0070, 1, 3, 1, .ro, 0, .none, none, .none, 1, 0⟩
/-- REC_ISL [3:0] RO -/
def SYS_REC_ISL : Fld := ⟨0x0071, 1, 0, 4, .ro, 0, .none, none, .none, 1, 0⟩
/-- REC_CAUSE [6:4] RO -/
def SYS_REC_CAUSE : Fld := ⟨0x0071, 1, 4, 3, .ro, 0, .none, none, .none, 1, 0⟩
/-- REC_GEN [15:0] RO -/
def SYS_REC_GEN : Fld := ⟨0x0072, 2, 0, 16, .ro, 0, .none, none, .none, 1, 0⟩
/-- REGW_RESUME [15:0] RO -/
def SYS_REGW_RESUME : Fld := ⟨0x0074, 2, 0, 16, .ro, 0, .none, none, .none, 1, 0⟩
/-- TBL_RESUME [15:0] RO -/
def SYS_TBL_RESUME : Fld := ⟨0x0076, 2, 0, 16, .ro, 0, .none, none, .none, 1, 0⟩
/-- REC_ACK [0] WO -/
def SYS_REC_ACK : Fld := ⟨0x0078, 1, 0, 1, .wo, 0, .none, none, .none, 1, 0⟩
/-- REC_EVT [1:0] W1C -/
def SYS_REC_EVT : Fld := ⟨0x0079, 1, 0, 2, .w1c, 0, .none, none, .none, 1, 0⟩
/-- FENCED_DL [15:0] RC -/
def SYS_FENCED_DL : Fld := ⟨0x007A, 2, 0, 16, .rc, 0, .none, none, .none, 1, 0⟩
/-- FENCED_UL [15:0] RC -/
def SYS_FENCED_UL : Fld := ⟨0x007C, 2, 0, 16, .rc, 0, .none, none, .none, 1, 0⟩
/-- FENCED_OTHER [15:0] RC -/
def SYS_FENCED_OTHER : Fld := ⟨0x007E, 2, 0, 16, .rc, 0, .none, none, .none, 1, 0⟩
/-- RING_RESUME [15:0] RO -/
def HST_RING_RESUME : Fld := ⟨0xD026, 2, 0, 16, .ro, 0, .none, none, .ring, 1, 0⟩
/-- SRC_CTL0–SRC_CTL191 [4:0] each RW -/
def IRQ_SRC_CTL_TGT : Fld := ⟨0x1000, 1, 0, 5, .rw, 0, .range 0 19, none, .none, 192, 1⟩
/-- SRC_CTL0–SRC_CTL191 [5] each RW -/
def IRQ_SRC_CTL_EN : Fld := ⟨0x1000, 1, 5, 1, .rw, 0, .none, none, .none, 192, 1⟩
/-- SRC_CTL0–SRC_CTL191 [6] each W1C -/
def IRQ_SRC_CTL_PEND : Fld := ⟨0x1000, 1, 6, 1, .w1c, 0, .none, none, .none, 192, 1⟩
/-- PEND_SUM0–PEND_SUM23 [7:0] each RO -/
def IRQ_PEND_SUM : Fld := ⟨0x10C0, 24, 0, 192, .ro, 0, .none, some .pendSum, .none, 1, 0⟩
/-- REPLAY [0] WO -/
def IRQ_REPLAY : Fld := ⟨0x10D8, 1, 0, 1, .wo, 0, .none, none, .none, 1, 0⟩
/-- SWI [7:0] WO -/
def IRQ_SWI : Fld := ⟨0x10D9, 1, 0, 8, .wo, 0, .none, none, .none, 1, 0⟩
/-- CORE_MASK [3:0] RO -/
def IRQ_CORE_MASK : Fld := ⟨0x10DA, 1, 0, 4, .ro, 0, .none, none, .none, 1, 0⟩
/-- CORE_SLEEP [7:4] RO -/
def IRQ_CORE_SLEEP : Fld := ⟨0x10DA, 1, 4, 4, .ro, 0, .none, none, .none, 1, 0⟩
/-- LAST_SRC [7:0] RO -/
def IRQ_LAST_SRC : Fld := ⟨0x10DB, 1, 0, 8, .ro, 0, .none, none, .none, 1, 0⟩
/-- DELIVERIES [31:0] RO -/
def IRQ_DELIVERIES : Fld := ⟨0x10DC, 4, 0, 32, .ro, 0, .none, none, .none, 1, 0⟩
/-- SB_MEM_OK [3:0] RO -/
def TST_SB_MEM_OK : Fld := ⟨0xF000, 1, 0, 4, .ro, 0, .none, none, .none, 1, 0⟩
/-- SB_LOG_OK [7:4] RO -/
def TST_SB_LOG_OK : Fld := ⟨0xF000, 1, 4, 4, .ro, 0, .none, none, .none, 1, 0⟩
/-- SB_STAT [1:0] RO -/
def TST_SB_STAT : Fld := ⟨0xF001, 1, 0, 2, .ro, 0, .none, none, .none, 1, 0⟩
/-- SB_TIME [15:0] RO -/
def TST_SB_TIME : Fld := ⟨0xF002, 2, 0, 16, .ro, 0, .none, none, .none, 1, 0⟩
/-- SB_FAIL_MACRO [9:0] RO -/
def TST_SB_FAIL_MACRO : Fld := ⟨0xF004, 2, 0, 16, .ro, 0, .none, none, .none, 1, 0⟩
/-- SB_NEWREP [7:0] RO -/
def TST_SB_NEWREP : Fld := ⟨0xF006, 1, 0, 8, .ro, 0, .none, none, .none, 1, 0⟩
/-- LBIST_FAIL [15:0] RO -/
def TST_LBIST_FAIL : Fld := ⟨0xF008, 2, 0, 16, .ro, 0, .none, none, .none, 1, 0⟩
/-- REP_ROWS [11:0] RO -/
def TST_REP_ROWS : Fld := ⟨0xF00A, 2, 0, 12, .ro, 0, .none, some .repRows, .none, 1, 0⟩
/-- REP_COLS [10:0] RO -/
def TST_REP_COLS : Fld := ⟨0xF00C, 2, 0, 11, .ro, 0, .none, some .repCols, .none, 1, 0⟩
/-- REP_OTP [10:0] RO -/
def TST_REP_OTP : Fld := ⟨0xF00E, 2, 0, 11, .ro, 0, .none, some .repOtp, .none, 1, 0⟩
/-- REP_LOG [12:0] RO -/
def TST_REP_LOG : Fld := ⟨0xF010, 2, 0, 13, .ro, 0, .none, some .repLog, .none, 1, 0⟩
/-- SPARE_MIN [2:0] RO -/
def TST_SPARE_MIN : Fld := ⟨0xF012, 1, 0, 3, .ro, 4, .none, some .spareMin, .none, 1, 0⟩
/-- SPARE_MINC [4:3] RO -/
def TST_SPARE_MINC : Fld := ⟨0xF012, 1, 3, 2, .ro, 2, .none, some .spareMinc, .none, 1, 0⟩
/-- REP_SKIP [7:0] RC -/
def TST_REP_SKIP : Fld := ⟨0xF013, 1, 0, 8, .rc, 0, .none, none, .none, 1, 0⟩
/-- BIST_CMD [1:0] WO -/
def TST_BIST_CMD : Fld := ⟨0xF014, 1, 0, 2, .wo, 0, .none, none, .none, 1, 0⟩
/-- BIST_GRP [7:4] WO -/
def TST_BIST_GRP : Fld := ⟨0xF014, 1, 4, 4, .wo, 0, .none, none, .none, 1, 0⟩
/-- BIST_STAT [1:0] RO -/
def TST_BIST_STAT : Fld := ⟨0xF015, 1, 0, 2, .ro, 0, .none, none, .none, 1, 0⟩
/-- BIST_FOUND [2] RO -/
def TST_BIST_FOUND : Fld := ⟨0xF015, 1, 2, 1, .ro, 0, .none, none, .none, 1, 0⟩
/-- REP_CMD [0] WO -/
def TST_REP_CMD : Fld := ⟨0xF016, 1, 0, 1, .wo, 0, .none, none, .none, 1, 0⟩
/-- REP_STAT [1:0] RO -/
def TST_REP_STAT : Fld := ⟨0xF017, 1, 0, 2, .ro, 0, .none, none, .none, 1, 0⟩
/-- PERC_EN [0] RW -/
def TST_PERC_EN : Fld := ⟨0xF018, 1, 0, 1, .rw, 1, .none, none, .none, 1, 0⟩
/-- PERC_ALG [1] RW -/
def TST_PERC_ALG : Fld := ⟨0xF018, 1, 1, 1, .rw, 0, .none, none, .none, 1, 0⟩
/-- PERC_INT [7:0] RW -/
def TST_PERC_INT : Fld := ⟨0xF019, 1, 0, 8, .rw, 4, .range 1 255, none, .none, 1, 0⟩
/-- PERC_RUN [0] RO -/
def TST_PERC_RUN : Fld := ⟨0xF01A, 1, 0, 1, .ro, 0, .none, some .percRun, .none, 1, 0⟩
/-- SLICE_BUSY [1] RO -/
def TST_SLICE_BUSY : Fld := ⟨0xF01A, 1, 1, 1, .ro, 0, .none, none, .none, 1, 0⟩
/-- PERC_POS [13:0] RO -/
def TST_PERC_POS : Fld := ⟨0xF01C, 2, 0, 14, .ro, 0, .none, none, .none, 1, 0⟩
/-- PERC_LAST_FAIL [13:0] RO -/
def TST_PERC_LAST_FAIL : Fld := ⟨0xF01E, 2, 0, 16, .ro, 0, .none, none, .none, 1, 0⟩
/-- TST_EVT [6:0] W1C -/
def TST_TST_EVT : Fld := ⟨0xF020, 1, 0, 7, .w1c, 0, .none, none, .none, 1, 0⟩
/-- PERC_PASSES [31:0] RO -/
def TST_PERC_PASSES : Fld := ⟨0xF024, 4, 0, 32, .ro, 0, .none, none, .none, 1, 0⟩
/-- PERC_FAILS [15:0] RC -/
def TST_PERC_FAILS : Fld := ⟨0xF028, 2, 0, 16, .rc, 0, .none, none, .none, 1, 0⟩
/-- PERC_REPAIRS [15:0] RC -/
def TST_PERC_REPAIRS : Fld := ⟨0xF02A, 2, 0, 16, .rc, 0, .none, none, .none, 1, 0⟩
/-- PERC_UNREP [15:0] RC -/
def TST_PERC_UNREP : Fld := ⟨0xF02C, 2, 0, 16, .rc, 0, .none, none, .none, 1, 0⟩
/-- PERC_OVER [15:0] RC -/
def TST_PERC_OVER : Fld := ⟨0xF02E, 2, 0, 16, .rc, 0, .none, none, .none, 1, 0⟩

/-- The fields of island SYS. -/
def allSYS : List Fld :=
    [SYS_ISL_RUN_L, SYS_ISL_RUN_H, SYS_ISL_FLT_L, SYS_ISL_FLT_H, SYS_FAB_TAGCHK, SYS_FAB_HSTO,
     SYS_FAB_LAST_SRC, SYS_FAB_LAST_CAUSE, SYS_RST_CAUSE, SYS_BOOT_MODE, SYS_TWIN_ID, SYS_STRAP_BAD,
     SYS_VBAT_OK, SYS_AON_SRC, SYS_VBAT_LOST, SYS_DIE_TEMP, SYS_TEMP_WARN, SYS_THERM_WARN, SYS_THERM_HOT,
     SYS_XO40_OK, SYS_SDREF_OK, SYS_DEV_ID, SYS_SIL_REV, SYS_LC_STATE] ++
    [SYS_BOOT_STAGE, SYS_BOOT_ERR, SYS_TAMPER_SEEN, SYS_STG_COPIED, SYS_STG_REJ, SYS_TIME_FREE, SYS_FW_ARB,
     SYS_FW_BUILD, SYS_CFG_BUILD, SYS_CAP_BANDS, SYS_CAP_DLANES, SYS_CAP_PRIV, SYS_CAP_NODES, SYS_CAP_PLAN,
     SYS_VER_HIF, SYS_VER_IMG, SYS_VER_TWN, SYS_VER_MGT, SYS_VER_NLP, SYS_HIF_SEL, SYS_SEAL, SYS_HOSTWR_DROP,
     SYS_CFG_APPLIED, SYS_CFG_SKIP] ++
    [SYS_TIME_POLICY, SYS_START_HOLD, SYS_TIME_ACQ_MAX, SYS_MESH_GO, SYS_STG_STATE, SYS_STG_KIND,
     SYS_STG_REJ_WHY, SYS_UPD_OWNER, SYS_UPD_LAST, SYS_UPD_LAST_SRC, SYS_UPD_REASON, SYS_UPD_SESSION,
     SYS_UPD_NEXT, SYS_ARB_OTP, SYS_UPD_IDLE, SYS_UPD_EVT, SYS_UPD_KILL, SYS_UPD_KILL_ST, SYS_UPD_BUSY_CNT,
     SYS_FNC_HANDLE, SYS_FNC_VALID, SYS_FNC_HSEQ, SYS_FNC_EMPTY, SYS_FNC_OVF] ++
    [SYS_FNC_GEN, SYS_ABT_HITS, SYS_ABT_HANDLE, SYS_ABT_SEQ, SYS_ABT_CMD, SYS_ABT_STAT, SYS_REC_STATE,
     SYS_REGW_FENCED, SYS_TBL_FENCED, SYS_REC_ISL, SYS_REC_CAUSE, SYS_REC_GEN, SYS_REGW_RESUME, SYS_TBL_RESUME,
     SYS_REC_ACK, SYS_REC_EVT, SYS_FENCED_DL, SYS_FENCED_UL, SYS_FENCED_OTHER]

/-- The fields of a front-end group. -/
def allFE (g : Grp) : List Fld :=
    [FE_GRP_EN g, FE_COMPOSITE g, FE_COEX_EN g, FE_TX_ALLOW g, FE_PORT_RX_EN g, FE_PORT_TX_EN g, FE_TX_PORT g,
     FE_TX_ALT g, FE_ALT_EN g, FE_SYN_STATE g, FE_CAL_PEND g, FE_CAL_CMD g, FE_GRP_TEMP g, FE_CAL_TEMP g,
     FE_CAL_WAIT g, FE_CENTER g, FE_TX_PWR g, FE_RAMP g, FE_PA_LEAD g, FE_PA_LAG g, FE_REQ_LEAD g,
     FE_PRIO_THR g, FE_COEX_STAT g, FE_RF_STAT g] ++
    [FE_FEM_AUX g, FE_TUNE_SER g, FE_TUNE_SHT g, FE_RL_THR g, FE_PORT_MM g, FE_PORT_FAULT g, FE_TUNE_PORT g,
     FE_TUNE_GO g, FE_TUNE_STAT g, FE_TUNE_LAST g, FE_RL_MEAS g, FE_SYNTH_MISS_CNT g, FE_TX_ABANDON g,
     FE_TX_TRUNC g, FE_TX_DISPLACED g, FE_ACK_NOSLOT g, FE_TX_NOPORT g, FE_BLANK_LOSS g, FE_CAL_RXLOSS g,
     FE_CAL_COUNT g, FE_BURSTS g, FE_GRP_EVT g, FE_IQCAL g]

/-- The fields of island GRN. -/
def allGRN : List Fld :=
    [GRN_PLAN_IDX, GRN_PLAN_ENT, GRN_PLAN_LIVE, GRN_ENT_DET, GRN_NF_VAL, GRN_NF_AGE, GRN_NF_WIN, GRN_ACQ_TMO,
     GRN_SRCH_THR_L, GRN_SRCH_THR_H, GRN_SRCH_THR_I, GRN_LANE_FREE, GRN_LANE_RSV, GRN_LANE_PEAK, GRN_GRN_EVT,
     GRN_DET_CNT, GRN_FALSE_START, GRN_LANE_OVF, GRN_PHR_BAD, GRN_ACQ_TIMEOUT, GRN_DET_ALIAS, GRN_CAP_ABORT,
     GRN_ED_REJECT, GRN_GRP_ABORT] ++
    [GRN_FLT_LOST, GRN_LANE_STATE, GRN_LANE_ENT]

/-- The fields of island PHY. -/
def allPHY : List Fld :=
    [PHY_FCS_TYPE, PHY_TL_MODE, PHY_TL_RATE, PHY_TL_MARGIN, PHY_PROP_N, PHY_PROP_AGE, PHY_TL_SLACK,
     PHY_TMAP_IDX, PHY_TMAP_CMD, PHY_TMAP_STAT, PHY_TMAP_NFREE, PHY_PHY_EVT, PHY_MAP_PAR_IDX, PHY_TMAP_DATA,
     PHY_RX_FRAMES, PHY_FCS_BAD, PHY_PHR_HCS_BAD, PHY_PHR_RATE_BAD, PHY_PHR_LEN_BAD, PHY_TX_FRAMES, PHY_TX_TL,
     PHY_TL_FALLBACK, PHY_PROP_MADE, PHY_PROP_EVICT] ++
    [PHY_PROP_NOFIT, PHY_PROP_SUPERSEDED]

/-- The fields of island NTB. -/
def allNTB : List Fld :=
    [NTB_SWEEP_PER, NTB_LOCK_TMO, NTB_STASH_DRAIN, NTB_STASH_WARN, NTB_OCC, NTB_STASH_OCC, NTB_OCC_PEAK,
     NTB_LAST_ALLOC, NTB_SWEEP_POS, NTB_NTB_EVT, NTB_PAR_LOC, NTB_PAR_WORDS, NTB_PAR_SRC, NTB_PAR_HANDLE,
     NTB_LOOKUPS, NTB_LOOKUP_MISS, NTB_INSERTS, NTB_STASHED, NTB_FULL_CNT, NTB_AGED, NTB_AGE_SAVED,
     NTB_PAR_ERR, NTB_DIR_REBUILD, NTB_LOCK_EXP] ++
    [NTB_MOVES_MAX, NTB_DRAINED, NTB_BAD_SLOTS]

/-- The fields of island SCH. -/
def allSCH : List Fld :=
    [SCH_DRIFT_K, SCH_DRIFT_MIN, SCH_BCN_INT, SCH_SCH_EVT, SCH_BCN_ENT, SCH_BCN_CFG, SCH_WHEEL_OCC,
     SCH_OVF_OCC, SCH_BKT_PEAK, SCH_CAP_LAST, SCH_CAP_PEND, SCH_SCAN_BUSY, SCH_PRED_HANDLE, SCH_PRED_CMD,
     SCH_PRED_STAT, SCH_PRED_FIT, SCH_PRED_TIME, SCH_PRED_U, SCH_WAKES, SCH_DISPATCHED, SCH_GUARD_DRIFT,
     SCH_MISS_DRIFT, SCH_RESYNC, SCH_UNREACH] ++
    [SCH_BKT_FULL, SCH_STALE, SCH_LATE_TX, SCH_NO_TSIE, SCH_DRIFT_CLIP, SCH_BCN_SENT, SCH_BCN_MISS,
     SCH_CAP_HELD, SCH_GAPS_L, SCH_GAPS_H, SCH_GAPS_I, SCH_JOIN_AUTO, SCH_UNK_DELIVER, SCH_OPP_DL, SCH_NLP_CAP,
     SCH_ACK_TMO, SCH_JOIN_REPEAT, SCH_IE_TS_ID, SCH_IE_ACK_ID, SCH_IE_MAP_ID, SCH_IE_JOIN_ID, SCH_AX_EVT,
     SCH_MC_DONE_MAP, SCH_UL_ACCEPTED] ++
    [SCH_DUP_UL, SCH_REPLAY, SCH_UNKNOWN, SCH_UNK_DROP, SCH_JOIN_NEW, SCH_JOIN_FAIL, SCH_ACKS_DECL, SCH_ACK_WD,
     SCH_ACK_LATE, SCH_DL_ACKED, SCH_DL_NOACK, SCH_DL_REPEAT, SCH_DL_EXPIRED, SCH_DL_EPOCH, SCH_NAK_MAP,
     SCH_MAP_SENT, SCH_OPP_SENT, SCH_ACK_CLASH, SCH_MC_CLASH, SCH_MC_ENT, SCH_MC_EN, SCH_MC_OPT, SCH_MC_MCS,
     SCH_MC_GRPID] ++
    [SCH_MC_STAT, SCH_MC_BINT, SCH_MC_START, SCH_MC_SENT, SCH_MC_MISSED]

/-- The fields of island CAR. -/
def allCAR : List Fld :=
    [CAR_FREE_CELLS, CAR_FREE_MIN, CAR_TX_RSV, CAR_RXQ_LIM, CAR_RECQ_LIM, CAR_UL_RINGS, CAR_UNK_RING,
     CAR_TMR_RING, CAR_CAR_EVT, CAR_SQ_IDX, CAR_SQ_ITEMS, CAR_SQ_CELLS, CAR_CE_LOC, CAR_CE_SRC, CAR_DE_LOC,
     CAR_DE_SRC, CAR_CELL_CE, CAR_RX_DROP, CAR_SQ_DROP, CAR_SEQ_ORDER, CAR_NO_ENTRY_TX, CAR_PURGED,
     CAR_TRUNC_ITEMS, CAR_SWEPT] ++
    [CAR_TEV_POP, CAR_TEV_PSTAT, CAR_TEV_EMPTY, CAR_TEV_UNDERRUN, CAR_TEV_DEPTH, CAR_SEV_POP, CAR_SEV_PSTAT,
     CAR_SEV_EMPTY, CAR_SEV_UNDERRUN, CAR_SEV_DEPTH]

/-- The fields of island KEY. -/
def allKEY : List Fld :=
    [KEY_KSTATE, KEY_KEYS_LOST, KEY_FROM_NVM, KEY_LATCH, KEY_ZERO_OK, KEY_EPOCH_CUR, KEY_EPOCH_PREV,
     KEY_EPOCH_LEFT, KEY_GRACE_S, KEY_GRACE_LEFT, KEY_EPOCH_CMD, KEY_EPOCH_STAT, KEY_DL_SEC, KEY_UL_SEC_MIN,
     KEY_BCN_GRP, KEY_FC_NEXT, KEY_FC_BLOCK, KEY_KU_OTP, KEY_KU_STAT, KEY_KU_KIND, KEY_KU_REASON,
     KEY_TAMPER_EN, KEY_SCRAP_ON_TAMPER, KEY_VBAT_LOSS_TAMPER] ++
    [KEY_TAMPER_SRC, KEY_TAMPER_WHEN, KEY_TAMPER_KOP, KEY_TAMPER_CNT, KEY_KEY_EVT, KEY_DIE_ID, KEY_DEV_IDENT,
     KEY_DEV_EUI, KEY_AUTH_FAIL, KEY_AUTH_LEVEL, KEY_AUTH_NOKEY, KEY_GRACE_UL, KEY_EPOCH_DROP, KEY_NOKEY_TX,
     KEY_FC_EXHAUST, KEY_KU_REFUSED, KEY_ATT_STAT, KEY_ATT_READY, KEY_ATT_REASON, KEY_ATT_TOKENS, KEY_ATT_NEXT,
     KEY_ATT_LEFT, KEY_ATT_SEG, KEY_ATT_EVT] ++
    [KEY_ATT_SIGNED, KEY_ATT_REFUSED, KEY_ATT_WASTED]

/-- The fields of island TIM. -/
def allTIM : List Fld :=
    [TIM_TIME_NOW, TIM_TIME_SET, TIM_STEPPED, TIM_SRC, TIM_SEL_MODE, TIM_DOM_PREF, TIM_SLEW_MAX, TIM_STEER_TC,
     TIM_OFS_WARN_US, TIM_RATE_ADJ, TIM_STEER_OFS, TIM_TIM_EVT, TIM_TC_EN, TIM_DOM_DIFF, TIM_GM_ID_A,
     TIM_GM_ID_B, TIM_TC_FIXED, TIM_TC_NOPAD, TIM_TC_SKIP, TIM_PTP_BAD, TIM_LOST_A, TIM_LOST_B, TIM_SEL_SWITCH,
     TIM_ADJ_CLAMP] ++
    [TIM_SPINE_ERR]

/-- The fields of a domain block. -/
def allTIMD (d : Dom) : List Fld :=
    [TIM_DOM_NUM d, TIM_DOM_EN d, TIM_DOM_TRANSPORT d, TIM_DOM_PORT d, TIM_QUAL_CLASS d, TIM_QUAL_N d,
     TIM_QUAL_NS d, TIM_SYNC_TMO d, TIM_DOM_STATE d, TIM_MASTER_PORT d, TIM_DOM_OFS d, TIM_DOM_MPD d,
     TIM_DOM_FREQ d, TIM_DOM_CLASS d, TIM_DOM_UTC d, TIM_DOM_EXCH d]

/-- The fields of island ETH. -/
def allETH : List Fld :=
    [ETH_PORT_MODE_A, ETH_PORT_MODE_B, ETH_LINK_STAT, ETH_TX_OFF, ETH_ETH_EVT, ETH_EP_MAC, ETH_EP_VID,
     ETH_EP_IP6, ETH_GW_MAC, ETH_HE_IP6, ETH_HE_PORT, ETH_TUN_PORT, ETH_MGT_PORT, ETH_EP_MTU, ETH_TUN_WIN,
     ETH_TUN_RTO, ETH_BOOT_ID, ETH_TUN_RX_NEXT, ETH_TUN_TX_NEXT, ETH_TUN_TX_ACKED, ETH_BR_FWD_AB,
     ETH_BR_FWD_BA, ETH_BR_DROP, ETH_BR_FCS] ++
    [ETH_EP_DROP, ETH_DG_BAD, ETH_DG_AUTH, ETH_DG_REPLAY, ETH_DG_NOKEY, ETH_INFO_SENT, ETH_TUN_OOO,
     ETH_TUN_DUP, ETH_TUN_RETX, ETH_FRAG_DROP]

/-- The fields of island HST. -/
def allHST : List Fld :=
    [HST_RING, HST_TBL, HST_DOORBELL_PROD, HST_RING_SEL, HST_RING_EN, HST_RING_IDLE, HST_RING_ERR,
     HST_RING_FENCED, HST_RING_SIZE, HST_RING_BASE, HST_RING_SB, HST_RING_PROD, HST_RING_FETCH, HST_RING_COMPL,
     HST_RING_BASE2, HST_MBX_ADDR, HST_MBX_LEN, HST_MBX_CMD, HST_MBX_STAT, HST_MBX_OVR, HST_MBX_RSP,
     HST_MBX_RLEN, HST_HST_EVT, HST_PCIE_STAT] ++
    [HST_SSVID, HST_SSID, HST_DMA_ERR, HST_DB_CLAMP, HST_RING_RESUME]

/-- The fields of island TWN. -/
def allTWN : List Fld :=
    [TWN_TW_EN, TWN_TW_RELAY, TWN_TW_STATE, TWN_TW_HOLD, TWN_TW_LINK, TWN_TW_REGIME, TWN_TW_VER, TWN_TW_PVER,
     TWN_TW_CMD, TWN_TW_EVT, TWN_SWAP_ST, TWN_RLY_ST, TWN_TW_CYCLE, TWN_TKO_TIME, TWN_TKO_CUT, TWN_TW_OFS,
     TWN_MIR_BYTES, TWN_HB_MISS, TWN_MIR_CRC, TWN_CYC_DROP, TWN_TAKEOVERS, TWN_SPLITS, TWN_RESYNCS, TWN_STBY_RX] ++
    [TWN_CLAIM_LOST]

/-- The fields of island IRQ. -/
def allIRQ : List Fld :=
    [IRQ_SRC_CTL_TGT, IRQ_SRC_CTL_EN, IRQ_SRC_CTL_PEND, IRQ_PEND_SUM, IRQ_REPLAY, IRQ_SWI, IRQ_CORE_MASK,
     IRQ_CORE_SLEEP, IRQ_LAST_SRC, IRQ_DELIVERIES]

/-- The fields of island TST. -/
def allTST : List Fld :=
    [TST_SB_MEM_OK, TST_SB_LOG_OK, TST_SB_STAT, TST_SB_TIME, TST_SB_FAIL_MACRO, TST_SB_NEWREP, TST_LBIST_FAIL,
     TST_REP_ROWS, TST_REP_COLS, TST_REP_OTP, TST_REP_LOG, TST_SPARE_MIN, TST_SPARE_MINC, TST_REP_SKIP,
     TST_BIST_CMD, TST_BIST_GRP, TST_BIST_STAT, TST_BIST_FOUND, TST_REP_CMD, TST_REP_STAT, TST_PERC_EN,
     TST_PERC_ALG, TST_PERC_INT, TST_PERC_RUN] ++
    [TST_SLICE_BUSY, TST_PERC_POS, TST_PERC_LAST_FAIL, TST_TST_EVT, TST_PERC_PASSES, TST_PERC_FAILS,
     TST_PERC_REPAIRS, TST_PERC_UNREP, TST_PERC_OVER]

/-- The fields of the island whose window holds an address (R4, R13). -/
def ofIsland (isl : Nat) : List Fld :=
  match isl with
  | 0 => allSYS
  | 1 => allIRQ
  | 2 => allFE .L
  | 3 => allFE .H
  | 4 => allFE .I
  | 5 => allGRN
  | 6 => allPHY
  | 7 => allNTB
  | 8 => allSCH
  | 9 => allCAR
  | 10 => allKEY
  | 11 => allTIM ++ allTIMD .A ++ allTIMD .B
  | 12 => allETH
  | 13 => allHST
  | 14 => allTWN
  | _ => allTST

end Sys2Proof.Machine.Reg
end

