-- ==== Sys2Proof/Machine/Ops.lean ====
section
/-!
DEFINITION. The named operations over the state: sparse maps, register fields, counters, event bits, time, free
values, islands, memory bytes. Every meaning reads and writes registers and memories through these.
-/

namespace Sys2Proof.Machine

/-! ### Sparse maps: lists of key and value, keys strictly rising -/

/-- The value at key `k`. -/
def mget {α : Type} (l : List (Nat × α)) (k : Nat) : Option α :=
  match l with
  | [] => none
  | (k', v) :: t => if k = k' then some v else mget t k

/-- Put `v` at key `k`. -/
def mput {α : Type} (l : List (Nat × α)) (k : Nat) (v : α) : List (Nat × α) :=
  match l with
  | [] => [(k, v)]
  | (k', v') :: t =>
    if k < k' then (k, v) :: (k', v') :: t
    else if k = k' then (k, v) :: t
    else (k', v') :: mput t k v

/-- Remove key `k`. -/
def mdel {α : Type} (l : List (Nat × α)) (k : Nat) : List (Nat × α) :=
  match l with
  | [] => []
  | (k', v') :: t => if k = k' then mdel t k else (k', v') :: mdel t k

/-- Put a value, or remove the key. -/
def mset {α : Type} (l : List (Nat × α)) (k : Nat) (v : Option α) : List (Nat × α) :=
  match v with
  | some x => mput l k x
  | none => mdel l k

/-- Keys strictly rising: the canonical form of a sparse map. -/
def mwf {α : Type} (l : List (Nat × α)) : Bool :=
  match l with
  | [] => true
  | (k, _) :: t =>
    match t with
    | [] => true
    | (k', v') :: t' => k < k' && mwf ((k', v') :: t')

/-! ### Register fields -/

/-- The key of copy `i` of a field in bank `b`. -/
def Fld.key (f : Fld) (i b : Nat) : Nat := (b * 0x10000 + f.addr + i * f.stride) * 256 + f.lsb

/-- The stored value of copy `i` of a field, bank `b`. -/
def State.rdB (s : State) (f : Fld) (i b : Nat) : Nat := (mget s.regs (f.key i b)).getD f.rst

/-- The stored value of copy `i` of a field. -/
def State.rdI (s : State) (f : Fld) (i : Nat) : Nat := s.rdB f i 0

/-- The stored value of a field. -/
def State.rd (s : State) (f : Fld) : Nat := s.rdB f 0 0

/-- Set copy `i` of a field in bank `b`; the reset value is not listed. -/
def State.wrB (s : State) (f : Fld) (i b v : Nat) : State :=
  let x := v % 2 ^ f.width
  { s with regs := mset s.regs (f.key i b) (if x = f.rst then none else some x) }

/-- Set copy `i` of a field. -/
def State.wrI (s : State) (f : Fld) (i v : Nat) : State := s.wrB f i 0 v

/-- Set a field. -/
def State.wr (s : State) (f : Fld) (v : Nat) : State := s.wrB f 0 0 v

/-- A field that is one bit. -/
def State.on (s : State) (f : Fld) : Bool := s.rd f = 1

/-- A field in two's complement. -/
def State.rdS (s : State) (f : Fld) : Int :=
  let v := s.rd f
  if v < 2 ^ (f.width - 1) then v else (v : Int) - 2 ^ f.width

/-- Set a field in two's complement, modulo its width. -/
def State.wrS (s : State) (f : Fld) (v : Int) : State := s.wr f (v % 2 ^ f.width).toNat

/-- Add to a counter that saturates at its greatest value (R6, the counters of access RC). -/
def State.bumpN (s : State) (f : Fld) (n : Nat) : State := s.wr f (min (s.rd f + n) (2 ^ f.width - 1))

/-- Count one in a saturating counter. -/
def State.bump (s : State) (f : Fld) : State := s.bumpN f 1

/-- Count one in a saturating counter of bank `b`. -/
def State.bumpB (s : State) (f : Fld) (b : Nat) : State := s.wrB f 0 b (min (s.rdB f 0 b + 1) (2 ^ f.width - 1))

/-- Count one in a saturating counter, copy `i`. -/
def State.bumpI (s : State) (f : Fld) (i : Nat) : State := s.wrI f i (min (s.rdI f i + 1) (2 ^ f.width - 1))

/-- Count in a counter that wraps. -/
def State.wrapN (s : State) (f : Fld) (n : Nat) : State := s.wr f (s.rd f + n)

/-- Count one in a counter that wraps. -/
def State.wrap (s : State) (f : Fld) : State := s.wrapN f 1

/-- Raise a watermark. -/
def State.peak (s : State) (f : Fld) (v : Nat) : State := if s.rd f < v then s.wr f v else s

/-- Lower a watermark. -/
def State.trough (s : State) (f : Fld) (v : Nat) : State := if v < s.rd f then s.wr f v else s

/-- The number of the island that an interrupt source belongs to (R432). -/
def srcIsl (n : Nat) : Nat :=
  if n < 24 then 0 else if n < 32 then 1 else if n < 40 then 2 else if n < 48 then 3 else if n < 56 then 4
  else if n < 64 then 5 else if n < 72 then 6 else if n < 80 then 7 else if n < 104 then 8 else if n < 112 then 9
  else if n < 120 then 10 else if n < 128 then 11 else if n < 136 then 12 else if n < 176 then 13
  else if n < 184 then 14 else 15

/-- The next island-local count of an island (R20, class 0x8). -/
def State.localNext (s : State) (isl : Nat) : BitVec 16 := BitVec.ofNat 16 ((mget s.sys.localSeq isl).getD 0)

/-- An island has sent a device-internal item (R20, class 0x8). -/
def State.localBump (s : State) (isl : Nat) : State :=
  { s with sys.localSeq := mput s.sys.localSeq isl ((s.localNext isl) + 1).toNat }

/-- Send an EVENT item for source `src` (R19, R433). -/
def State.event (s : State) (src : Nat) : State :=
  { s.localBump (srcIsl src) with irq.events := s.irq.events ++ [{ src := src, seq := s.localNext (srcIsl src) }] }

/-- Set bit `b` of an event register whose bit 0 is source `base`: an edge is sent only on a 0-to-1 change (R433). -/
def State.ev (s : State) (f : Fld) (b base : Nat) : State :=
  if (s.rd f).testBit b then s else (s.wr f (s.rd f + 2 ^ b)).event (base + b)

/-- Clear the bits of `v` in a W1C field (R7). -/
def clearBits (x v : Nat) : Nat := x - (x &&& v)

/-! ### Islands, roles, time -/

end Sys2Proof.Machine

namespace Sys2Proof

/-- Number of an island (R13). -/
def Isl.num (i : Isl) : Nat := i.ctorIdx

/-- The island of a group. -/
def Grp.isl : Grp → Isl
  | .L => .FEL
  | .H => .FEH
  | .I => .FEI

/-- The code of a group in a plan entry (R122). -/
def Grp.code : Grp → Nat
  | .L => 0
  | .H => 1
  | .I => 2

/-- The group a code names; 0b11 clamps to 0b10 (R123). -/
def Grp.ofCode (n : Nat) : Grp :=
  match n with
  | 0 => .L
  | 1 => .H
  | _ => .I

/-- The groups, in order. -/
def allGrps : List Grp := [.L, .H, .I]

end Sys2Proof

namespace Sys2Proof.Machine

/-- Whether an island runs (R35). -/
def State.runs (s : State) (i : Isl) : Bool :=
  let n := i.num
  if n < 8 then (s.rd Reg.SYS_ISL_RUN_L).testBit n else (s.rd Reg.SYS_ISL_RUN_H).testBit (n - 8)

/-- The work of a group. -/
def State.fe (s : State) (g : Grp) : GrpSt :=
  match g with
  | .L => s.feL
  | .H => s.feH
  | .I => s.feI

/-- Replace the work of a group. -/
def State.setFe (s : State) (g : Grp) (x : GrpSt) : State :=
  match g with
  | .L => { s with feL := x }
  | .H => { s with feH := x }
  | .I => { s with feI := x }

/-- An ordinary-clock instance. -/
def State.dom (s : State) (d : Dom) : DomSt :=
  match d with
  | .A => s.tim.domA
  | .B => s.tim.domB

/-- Replace an ordinary-clock instance. -/
def State.setDom (s : State) (d : Dom) (x : DomSt) : State :=
  match d with
  | .A => { s with tim.domA := x }
  | .B => { s with tim.domB := x }

/-- The mesh millisecond (R200). -/
def State.ms (s : State) : Nat := s.sys.timeNs / 1000000

/-- Ticks of 8 ns in a millisecond. -/
def msTicks : Nat := 125000

/-- Whole milliseconds since an uptime instant. -/
def State.msSince (s : State) (t : Nat) : Nat := (s.sys.uptime - t) / msTicks

/-- This unit holds XLOCK (R394). -/
def State.holds (s : State) : Bool := s.on Reg.TWN_TW_HOLD

/-- The unit behaves as a standby: SYNCING, STANDBY or SPLIT (R397), or a takeover is under way (R407). -/
def State.standby (s : State) : Bool :=
  let t := s.rd Reg.TWN_TW_STATE
  t = 3 || t = 4 || t = 5 || (t = 6 && s.twn.from_ ≠ 1)

/-- The unit dispatches nothing, declares no acknowledgement and takes uplinks as a standby does: a standby (R397), or an
active one in the last steps of a swap (R409). -/
def State.quiet (s : State) : Bool := s.standby || s.twn.swapStop

/-- Headless mode (R57). -/
def State.headless (s : State) : Bool := s.rd Reg.SYS_BOOT_MODE = 1

/-- Host registers are live: SEAL is set (R85). -/
def State.live (s : State) : Bool := s.on Reg.SYS_SEAL

/-- Take a free value of `w` bits (log entry 1). -/
def State.freeVal (s : State) (w : Nat) : Nat := Config.freeBits s.free w % 2 ^ w

/-- The next free value has been taken. -/
def State.tick (s : State) : State := { s with free := s.free + 1 }

/-- Drive something outside. -/
def State.emit (s : State) (o : Out) : State := { s with out := s.out ++ [o] }

/-! ### Arithmetic of the manual -/

/-- round() of R205: to the nearest integer, halves away from zero; `d` positive. -/
def roundDiv (n : Int) (d : Nat) : Int :=
  if n < 0 then -(((-n) * 2 + d) / (2 * d)) else (n * 2 + d) / (2 * d)

/-- Ceiling division. -/
def ceilDiv (a b : Nat) : Nat := (a + b - 1) / b

/-- A 32-bit two's complement value. -/
def signed32 (n : Int) : Int :=
  let m := n % 4294967296
  if m < 2147483648 then m else m - 4294967296

/-- a is later than b, modulo 2^16 (R21). -/
def later (a b : BitVec 16) : Bool :=
  let d := (a - b).toNat
  1 ≤ d && d ≤ 32767

/-- a is b or later, modulo 2^16. -/
def laterEq (a b : BitVec 16) : Bool := a = b || later a b

/-! ### NVM bytes: a byte that nothing has programmed since its erase reads 0xFF -/

/-- What an unlisted NVM byte reads as: erased. -/
def nvmErased : BitVec 8 := 0xFF

/-- Read an NVM byte. -/
def nvmRead (m : List Host.Cell) (a : Nat) : BitVec 8 := (mget m a).getD nvmErased

/-- Program an NVM byte: bits are only cleared (R68). -/
def nvmProg (m : List Host.Cell) (a : Nat) (v : BitVec 8) : List Host.Cell :=
  let x := nvmRead m a &&& v
  mset m a (if x = nvmErased then none else some x)

/-- Program bytes at consecutive addresses. -/
def nvmProgs (m : List Host.Cell) (a : Nat) : List (BitVec 8) → List Host.Cell
  | [] => m
  | b :: t => nvmProgs (nvmProg m a b) (a + 1) t

/-- Erase the bytes from `a` up to, not including, `a + n`. -/
def nvmErase (m : List Host.Cell) (a n : Nat) : List Host.Cell := m.filter (fun c => c.1 < a || a + n ≤ c.1)

/-- Read `n` bytes. -/
def nvmReads (m : List Host.Cell) (a n : Nat) : List (BitVec 8) := (List.range n).map (fun i => nvmRead m (a + i))

/-- The canonical form of the NVM bytes: addresses strictly rising, no byte listed that reads as erased. -/
def Memory.wf (m : List Host.Cell) : Bool := mwf m && m.all (fun c => c.2 ≠ nvmErased)

/-- A little-endian number of bytes. -/
def leNat : List (BitVec 8) → Nat
  | [] => 0
  | b :: t => b.toNat + 256 * leNat t

/-- The `n` little-endian bytes of a number. -/
def leBytes (n v : Nat) : List (BitVec 8) :=
  match n with
  | 0 => []
  | k + 1 => BitVec.ofNat 8 v :: leBytes k (v / 256)

/-- A field of a byte layout: `n` bytes from offset `o`. -/
def leAt (b : List (BitVec 8)) (o n : Nat) : Nat := leNat ((b.drop o).take n)

/-- CRC-32 of IEEE 802.3 over bytes. -/
def crc32 (bs : List (BitVec 8)) : Word :=
  let step := fun (r : Word) (b : BitVec 8) =>
    (List.range 8).foldl (fun r _ => if r.getLsbD 0 then (r >>> 1) ^^^ 0xEDB88320 else r >>> 1) (r ^^^ b.setWidth 32)
  ~~~(bs.foldl step 0xFFFFFFFF)

end Sys2Proof.Machine
end

