-- ==== Sys2Proof/Machine/Clock.lean ====
section
/-!
DEFINITION. The time base (R339): one period of the 125 MHz clock.
-/

namespace Sys2Proof.Machine

/-- One 125 MHz period: uptime counts it; from stage 2 on the time base adds 8 × (1 + RATE_ADJ × 2^-40) ns to its
accumulator (R339, R340). A unit held in reset counts nothing (R55). -/
def State.clock (s : State) : State :=
  if s.sys.hold = .none then
    let s := { s with sys.uptime := s.sys.uptime + 1 }
    if s.sys.meshRun then
      -- the accumulator's unit is 2^-40 ns
      let acc := (s.sys.timeFrac : Int) + 8 * (2 ^ 40 + s.rdS Reg.TIM_RATE_ADJ)
      let ns := s.sys.timeNs + (acc / 2 ^ 40).toNat
      { s with sys.timeNs := ns % 2 ^ 64, sys.timeFrac := (acc % 2 ^ 40).toNat }
    else s
  else s

end Sys2Proof.Machine
end

