-- ==== Sys2Proof/Machine/Operands.lean ====
section
/-!
DEFINITION. The operand forms: byte layouts of the manual read into the types of Syntax.lean and written back (node
entries R176, command and completion records R182 and R185, descriptors R273 and R276, event records R191 and R226,
tone-map records R159, configuration records R72, image headers R69), with their clamps (R143, R177, R273), and the
checksums and hashes they name (CRC-8 of R461, SipHash-2-4 of R173).
-/

namespace Sys2Proof

open Sys2Proof.Machine

/-- `w` bits of `x` from bit `l`. -/
def bits (x l w : Nat) : Nat := x / 2 ^ l % 2 ^ w

/-! ### Key-update messages (R304, R305) -/

/-- Bytes 0x000 to 0x03F of a message, its payload as it decrypts, its SIG field. -/
def KuMsg.head (m : KuMsg) : List Byte := m.bytes.take 0x40
def KuMsg.plain (m : KuMsg) : List Byte := m.terms.plain
def KuMsg.signer (m : KuMsg) : Option (BitVec 512) := m.terms.signer
def KuMsg.sealedUnder (m : KuMsg) : Option Key := m.terms.sealedUnder

def KuMsg.magicOk (m : KuMsg) : Bool := m.head.take 4 = [0x4F, 0x4B, 0x55, 0x4D]
def KuMsg.fmt (m : KuMsg) : Byte := m.head.getD 4 0
def KuMsg.kind (m : KuMsg) : Byte := m.head.getD 5 0
def KuMsg.ctr (m : KuMsg) : Nat := leAt m.head 6 2
def KuMsg.len (m : KuMsg) : Nat := leAt m.head 8 2
def KuMsg.sig (m : KuMsg) : List Byte := m.bytes.drop (0x40 + m.len)
def KuMsg.sigType (m : KuMsg) : Byte := m.head.getD 0xA 0
def KuMsg.lc (m : KuMsg) : Byte := m.head.getD 0xB 0
def KuMsg.ident (m : KuMsg) : BitVec 256 := BitVec.ofNat 256 (leAt m.head 0x10 32)

/-- The owner's part of a DEPLOY payload: 100 bytes. -/
def KuMsg.ownerPub (m : KuMsg) : BitVec 512 := BitVec.ofNat 512 (leAt m.plain 0 64)
def KuMsg.ownerSet (m : KuMsg) : Byte := m.plain.getD 64 0
def KuMsg.ownerRoot (m : KuMsg) : BitVec 256 := BitVec.ofNat 256 (leAt m.plain 68 32)

/-- The KEYS payload: all of it, or what follows the owner's part. -/
def KuMsg.keys (m : KuMsg) : List Byte := if m.kind = 1 then m.plain.drop 100 else m.plain

/-- FLAGS bit 0: a network secret follows. -/
def KuMsg.hasNet (m : KuMsg) : Bool := (leAt m.keys 0 4).testBit 0

/-- FLAGS bit 1. -/
def KuMsg.clear (m : KuMsg) : Bool := (leAt m.keys 0 4).testBit 1

def KuMsg.net (m : KuMsg) : Option (BitVec 256) := if m.hasNet then some (BitVec.ofNat 256 (leAt m.keys 4 32)) else none

/-- The bytes of the group records. -/
def KuMsg.recBytes (m : KuMsg) : List Byte := m.keys.drop (if m.hasNet then 36 else 4)

/-- Record `i` of `l` (R288). -/
def groupRecAt (l : List Byte) (i : Nat) : GroupRec :=
  { gid := l.getD (36 * i) 0, valid := (l.getD (36 * i + 1) 0).getLsbD 0, secret := BitVec.ofNat 256 (leAt l (36 * i + 4) 32) }

/-- The group records. -/
def KuMsg.groups (m : KuMsg) : List GroupRec := (List.range (m.recBytes.length / 36)).map (groupRecAt m.recBytes)

/-- LEN alone (R304, R305): a multiple of 4, at most 2,440, that of the SIG field's place; RMA_AUTH and SCRAP carry none, the others
room for whole group records. -/
def KuMsg.lenOk (m : KuMsg) : Bool :=
  let fixed := if m.kind = 1 then 104 else 4
  m.bytes.length = 0x40 + m.len + 2692 && m.plain.length = m.len && m.len % 4 = 0 && m.len ≤ 2440 &&
    (if m.kind = 3 || m.kind = 4 then m.len = 0
     else fixed ≤ m.len && ((m.len - fixed) % 36 = 0 || (fixed + 32 ≤ m.len && (m.len - fixed - 32) % 36 = 0)))

/-- The payload's own shape (R305): the reserved bytes, OWNER_SET, the group identifiers. -/
def KuMsg.plainOk (m : KuMsg) : Bool :=
  let fixed := (if m.kind = 1 then 104 else 4) + (if m.hasNet then 32 else 0)
  m.kind = 3 || m.kind = 4 ||
    (fixed ≤ m.len && (m.len - fixed) % 36 = 0 &&
      (m.kind ≠ 1 || (leAt m.plain 65 3 = 0 && (m.ownerSet = 1 || m.ownerSet = 2))) &&
      (List.range (m.recBytes.length / 36)).all (fun i =>
        m.recBytes.getD (36 * i) 0 ≠ 0xFF && leAt m.recBytes (36 * i + 2) 2 = 0))

/-! ### Session command records (R322) -/

def SessRec.op (r : SessRec) : Byte := r.bytes.getD 0 0
def SessRec.kind (r : SessRec) : Byte := r.bytes.getD 1 0
def SessRec.session (r : SessRec) : Nat := leAt r.bytes 2 2 % 4096
def SessRec.block (r : SessRec) : Nat := leAt r.bytes 4 2 % 2048
def SessRec.blen (r : SessRec) : Nat := leAt r.bytes 6 2
def SessRec.value (r : SessRec) : Word := BitVec.ofNat 32 (leAt r.bytes 8 4)
def SessRec.nonce (r : SessRec) : BitVec 256 := BitVec.ofNat 256 (leAt r.bytes 16 32)
def SessRec.data (r : SessRec) : List Byte := r.bytes.drop 48

/-! ### The twin link (R393, R400) -/

def Heartbeat.state (h : Heartbeat) : BitVec 3 := BitVec.ofNat 3 (h.bytes.getD 1 0).toNat
def Heartbeat.hold (h : Heartbeat) : Bool := (h.bytes.getD 1 0).getLsbD 3
def Heartbeat.armed (h : Heartbeat) : Bool := (h.bytes.getD 1 0).getLsbD 4
def Heartbeat.verMax (h : Heartbeat) : Nat := bits (h.bytes.getD 2 0).toNat 0 4
def Heartbeat.ver (h : Heartbeat) : Nat := bits (h.bytes.getD 2 0).toNat 4 4
def Heartbeat.epoch (h : Heartbeat) : Byte := h.bytes.getD 3 0
def Heartbeat.sgen (h : Heartbeat) : BitVec 16 := BitVec.ofNat 16 (leAt h.bytes 4 2)
def Heartbeat.cycle (h : Heartbeat) : BitVec 16 := BitVec.ofNat 16 (leAt h.bytes 6 2)
def Heartbeat.free (h : Heartbeat) : Nat := leAt h.bytes 8 3 % 2 ^ 17
def Heartbeat.seq (h : Heartbeat) : Word := BitVec.ofNat 32 (leAt h.bytes 12 4)
def Heartbeat.txTime (h : Heartbeat) : Nat := leAt h.bytes 16 8
def Heartbeat.rxTime (h : Heartbeat) : Nat := leAt h.bytes 24 8
def Heartbeat.rxSeq (h : Heartbeat) : Word := BitVec.ofNat 32 (leAt h.bytes 32 4)

/-- A heartbeat of the layout of R393 whose CRC checks. -/
def Heartbeat.good (h : Heartbeat) : Bool :=
  h.bytes.length = 40 && h.bytes.take 1 = [1] && leAt h.bytes 36 4 = (crc32 (h.bytes.take 36)).toNat

/-- Bytes 1 to 3 of a heartbeat (R393). -/
def hbFlags (state : Nat) (hold armed : Bool) (verMax ver : Nat) (epoch : Byte) : List Byte :=
  [BitVec.ofNat 8 (state % 8 + 8 * (if hold then 1 else 0) + 16 * (if armed then 1 else 0)),
    BitVec.ofNat 8 (verMax % 16 + 16 * ver), epoch]

/-- Close a heartbeat with its CRC (R393). -/
def hbClose (b : List Byte) : List Byte := b ++ leBytes 4 (crc32 b).toNat

/-- A mirror record or cycle end: its 16-byte header, then the body (R400). -/
def mirRecord (type rkind : Byte) (n : BitVec 16) (loc : Nat) (selective : Bool) (body : List Byte) : List Byte :=
  let h := [type, rkind] ++ leBytes 2 n.toNat ++ leBytes 4 loc ++ leBytes 2 body.length ++ [if selective then 1 else 0, 0]
  h ++ leBytes 4 (crc32 (h ++ body)).toNat ++ body

/-! ### Datagrams (R369) -/

def Dgram.udpLen (d : Dgram) : Nat := d.bytes.length
def Dgram.magicOk (d : Dgram) : Bool := d.bytes.take 4 = [0x4F, 0x44, 0x47, 0x4D]
def Dgram.ver (d : Dgram) : Byte := d.bytes.getD 4 0
def Dgram.chan (d : Dgram) : Byte := d.bytes.getD 5 0
def Dgram.type (d : Dgram) : Byte := d.bytes.getD 6 0
def Dgram.dir (d : Dgram) : Byte := d.bytes.getD 7 0
def Dgram.bootId (d : Dgram) : Word64 := BitVec.ofNat 64 (leAt d.bytes 8 8)
def Dgram.seq (d : Dgram) : Word := BitVec.ofNat 32 (leAt d.bytes 16 4)
def Dgram.ack (d : Dgram) : Word := BitVec.ofNat 32 (leAt d.bytes 20 4)
def Dgram.epoch (d : Dgram) : Byte := d.bytes.getD 26 0

/-- LEN matches: what stands between the header and the tag. -/
def Dgram.lenOk (d : Dgram) : Bool := 48 + leAt d.bytes 24 2 = d.bytes.length

/-- The payload, decrypted. -/
def Dgram.payload (d : Dgram) : List Byte := (d.bytes.drop 32).take (d.bytes.length - 48)

/-- The 32 bytes of a datagram's header. -/
def dgHeader (ver chan type dir : Byte) (bootId : Nat) (seq ack : Word) (len : Nat) (epoch : Byte) : List Byte :=
  [0x4F, 0x44, 0x47, 0x4D, ver, chan, type, dir] ++ leBytes 8 bootId ++ leBytes 4 seq.toNat ++ leBytes 4 ack.toNat ++
    leBytes 2 len ++ [epoch, 0, 0, 0, 0, 0]

/-- The IPv6 fragments of `n` bytes of UDP at an MTU (R368): offset and length of each; one that fits is not fragmented. -/
def ipFragments (mtu n : Nat) : List (Nat × Nat) :=
  let k := (mtu - 48) / 8 * 8
  if 40 + n ≤ mtu then [(0, n)] else (List.range (ceilDiv n k)).map (fun i => (i * k, min k (n - i * k)))

/-! ### XMSS signatures (R317, R318) -/

/-- h of a SIGTYPE. -/
def xmssHeight (set : Byte) : Nat := if set = 1 then 10 else 16

/-- Bytes of a signature of height `h`: leaf index, randomiser, 67 chain values, `h` path nodes. -/
def sigBytes (h : Nat) : Nat := 4 + 32 + 67 * 32 + 32 * h

/-- The leaf index of a signature: its first four bytes, the first the most significant. -/
def leafIndex (sig : List Byte) : Nat := leNat (sig.take 4).reverse

/-- What a SIG field of 2,692 bytes must show whatever the key (R318): a leaf index below 2^h, zeros beyond the signature. -/
def sigFieldOk (set : Byte) (sig : List Byte) : Bool :=
  leafIndex sig < 2 ^ xmssHeight set && (sig.drop (sigBytes (xmssHeight set))).all (fun b => b = 0)

/-! ### Options and MCS (R141 to R144) -/

/-- Data tones of an option (R141). -/
def dataTones (opt : BitVec 2) : Nat :=
  match opt.toNat with
  | 0 => 96
  | 1 => 48
  | 2 => 24
  | _ => 12

/-- Channel spacing of an option in 12.5 kHz units (R141). -/
def spacing (opt : BitVec 2) : Nat :=
  match opt.toNat with
  | 0 => 96
  | 1 => 64
  | 2 => 32
  | _ => 16

/-- PHR symbols of an option (R141). -/
def phrSyms (opt : BitVec 2) : Nat :=
  match opt.toNat with
  | 0 => 1
  | 1 => 2
  | 2 => 3
  | _ => 6

/-- Tone-map header symbols of an option (R153). -/
def tmhSyms (opt : BitVec 2) : Nat := ceilDiv 76 (dataTones opt)

/-- Least MCS of an option (R141). -/
def minMcs (opt : BitVec 2) : Nat :=
  match opt.toNat with
  | 2 => 1
  | 3 => 2
  | _ => 0

/-- Greatest MCS of an option (R141). -/
def maxMcs (opt : BitVec 2) : Nat := if opt = 0 then 3 else 6

/-- The MCS clamp of R143. -/
def clampMcs (opt : BitVec 2) (mcs : Nat) : BitVec 3 :=
  BitVec.ofNat 3 (max (minMcs opt) (min (maxMcs opt) (min mcs 6)))

/-- N_DBPS of an option and a clamped MCS (R142). -/
def nDbps (opt : BitVec 2) (mcs : BitVec 3) : Nat :=
  let t := dataTones opt
  match mcs.toNat with
  | 0 => t / 8
  | 1 => t / 4
  | 2 => t / 2
  | 3 => t
  | 4 => t * 3 / 2
  | 5 => t * 2
  | _ => t * 3

/-- Airtime in ns from the first STF sample to the last PSDU sample: `hdr` header symbols, LENGTH bytes (R144, R153). -/
def airNs (hdr len dbps : Nat) : Nat := (6 + hdr + ceilDiv (8 * len + 6) dbps) * 120000

/-! ### CRC-8 (R461) and SipHash-2-4 (R173) -/

/-- CRC-8 of R461 over bits, first bit first. -/
def crc8 (l : List Bool) : Nat :=
  (l.foldl (fun (r : Nat) b =>
    let fb := xor (r.testBit 7) b
    let r := r * 2 % 256
    if fb then r ^^^ 0x07 else r) 0xFF) ^^^ 0xFF

/-- The bits of bytes, each least significant bit first. -/
def bitsLsb (bs : List Byte) : List Bool := bs.flatMap (fun b => (List.range 8).map b.getLsbD)

/-- One SipRound. -/
def sipRound (v : Word64 × Word64 × Word64 × Word64) : Word64 × Word64 × Word64 × Word64 :=
  let (a, b, c, d) := v
  let a := a + b
  let b := b.rotateLeft 13 ^^^ a
  let a := a.rotateLeft 32
  let c := c + d
  let d := d.rotateLeft 16 ^^^ c
  let a := a + d
  let d := d.rotateLeft 21 ^^^ a
  let c := c + b
  let b := b.rotateLeft 17 ^^^ c
  let c := c.rotateLeft 32
  (a, b, c, d)

/-- SipHash-2-4 of one 8-byte message `m`, read little-endian, under `key` (its first 8 bytes are the low half). -/
def sipHash (key : BitVec 128) (m : Word64) : Word64 :=
  let k0 := key.setWidth 64
  let k1 := (key >>> 64).setWidth 64
  let v : Word64 × Word64 × Word64 × Word64 :=
    (k0 ^^^ 0x736F6D6570736575, k1 ^^^ 0x646F72616E646F6D, k0 ^^^ 0x6C7967656E657261, k1 ^^^ 0x7465646279746573)
  let blk := fun (v : Word64 × Word64 × Word64 × Word64) (m : Word64) =>
    let (a, b, c, d) := sipRound (sipRound (v.1, v.2.1, v.2.2.1, v.2.2.2 ^^^ m))
    (a ^^^ m, b, c, d)
  let (a, b, c, d) := blk (blk v m) 0x0800000000000000
  let (a, b, c, d) := sipRound (sipRound (sipRound (sipRound (a, b, c ^^^ 0xFF, d))))
  a ^^^ b ^^^ c ^^^ d

/-- The octets of an EUI-64, first octet first (R173). -/
def euiOctets (e : Word64) : List Byte := (leBytes 8 e.toNat).reverse

/-- The candidate bucket of an EUI-64 under a salt (R173). -/
def bucketOf (salt : BitVec 128) (e : Word64) : Nat :=
  (sipHash salt (BitVec.ofNat 64 (leNat (euiOctets e)))).toNat % 32768

/-! ### Node entries (R176) -/

/-- The code of a node state. -/
def NodeState.code : NodeState → Nat
  | .free => 0
  | .joining => 1
  | .active => 2
  | .drifted => 3
  | .unreachable => 4

/-- The STATE an INSERT takes: FREE clamps to JOINING, DRIFTED, UNREACHABLE and unused codes to ACTIVE (R177). -/
def NodeState.ofInsert (c : Nat) : NodeState := if c ≤ 1 then .joining else .active

/-- Bit of a Bool. -/
def b2n (b : Bool) : Nat := if b then 1 else 0

/-- The twelve words of an entry (R176). -/
def Entry.words (e : Entry) : List Nat :=
  [ e.eui.toNat % 2 ^ 32, e.eui.toNat / 2 ^ 32,
    e.handle.toNat + e.state.code * 2 ^ 18 + b2n e.lock * 2 ^ 21 + b2n e.hit * 2 ^ 22 + b2n e.amark * 2 ^ 23 +
      e.gen.toNat * 2 ^ 24,
    e.chan.toNat + e.opt.toNat * 2 ^ 8 + e.mcs.toNat * 2 ^ 10 + b2n e.tl * 2 ^ 13 + e.tmap.toNat * 2 ^ 14 +
      e.nlp.toNat * 2 ^ 26 + b2n e.pin * 2 ^ 29 + b2n e.wheeled * 2 ^ 30 + b2n e.qne * 2 ^ 31,
    e.fcntUl.toNat,
    e.dsnUl.toNat + e.dsnDl.toNat * 2 ^ 8 + e.ulSeq.toNat * 2 ^ 16,
    e.lastContact.toNat, e.clkOfs.toNat,
    e.drift.toNat + e.dNode.toNat * 2 ^ 16 + e.g0.toNat * 2 ^ 20 + e.miss.toNat * 2 ^ 28,
    e.wakeInt.toNat + e.repeatLim.toNat * 2 ^ 24 + e.wcls.toNat * 2 ^ 28,
    e.wakePhase.toNat + e.mcGrp.toNat * 2 ^ 24,
    e.qHead.toNat + e.qTail.toNat * 2 ^ 16 ]

/-- The 48 bytes of an entry. -/
def Entry.bytes (e : Entry) : List Byte := e.words.flatMap (leBytes 4)

/-- REPEAT with its clamp (R177). -/
def clampRepeat (n : Nat) : BitVec 4 := BitVec.ofNat 4 (max n 1)

/-- NLP with its clamp (R177). -/
def clampNlp (n : Nat) : BitVec 3 := BitVec.ofNat 3 (if n = 0 then 1 else min n 4)

/-- The entry an INSERT of 48 bytes makes under a handle: classes H and I from the bytes, class D at its insertion
value, clamps of R177 applied. -/
def Entry.ofInsert (b : List Byte) (h : BitVec 18) : Entry :=
  let w := fun n => leAt b (4 * n) 4
  let opt := BitVec.ofNat 2 (bits (w 3) 8 2)
  { eui := BitVec.ofNat 64 (w 0 + w 1 * 2 ^ 32), handle := h, state := NodeState.ofInsert (bits (w 2) 18 3),
    lock := false, hit := false, amark := false, gen := 0,
    chan := BitVec.ofNat 8 (w 3), opt := opt, mcs := clampMcs opt (bits (w 3) 10 3), tl := (w 3).testBit 13,
    tmap := BitVec.ofNat 12 (bits (w 3) 14 12), nlp := clampNlp (bits (w 3) 26 3), pin := (w 3).testBit 29,
    wheeled := false, qne := false, fcntUl := BitVec.ofNat 32 (w 4), dsnUl := BitVec.ofNat 8 (w 5),
    dsnDl := BitVec.ofNat 8 (bits (w 5) 8 8), ulSeq := 0, lastContact := BitVec.ofNat 32 (w 6),
    clkOfs := BitVec.ofNat 32 (w 7), drift := BitVec.ofNat 16 (w 8), dNode := BitVec.ofNat 4 (bits (w 8) 16 4),
    g0 := BitVec.ofNat 8 (bits (w 8) 20 8), miss := BitVec.ofNat 4 (bits (w 8) 28 4),
    wakeInt := BitVec.ofNat 24 (w 9), repeatLim := clampRepeat (bits (w 9) 24 4),
    wcls := BitVec.ofNat 4 (bits (w 9) 28 4), wakePhase := BitVec.ofNat 24 (w 10),
    mcGrp := BitVec.ofNat 8 (bits (w 10) 24 8), qHead := 0, qTail := 0 }

/-- The class-H fields of the words in `mask`, written from 48 bytes (R182, R176, R177). -/
def Entry.writeH (e : Entry) (b : List Byte) (mask : BitVec 12) : Entry :=
  let w := fun n => leAt b (4 * n) 4
  let e := if mask.getLsbD 3 then
      let opt := BitVec.ofNat 2 (bits (w 3) 8 2)
      { e with chan := BitVec.ofNat 8 (w 3), opt := opt, mcs := clampMcs opt (bits (w 3) 10 3),
               tl := (w 3).testBit 13, tmap := BitVec.ofNat 12 (bits (w 3) 14 12), nlp := clampNlp (bits (w 3) 26 3),
               pin := (w 3).testBit 29 }
    else e
  let e := if mask.getLsbD 8 then
      { e with dNode := BitVec.ofNat 4 (bits (w 8) 16 4), g0 := BitVec.ofNat 8 (bits (w 8) 20 8) }
    else e
  let e := if mask.getLsbD 9 then
      { e with wakeInt := BitVec.ofNat 24 (w 9), repeatLim := clampRepeat (bits (w 9) 24 4),
               wcls := BitVec.ofNat 4 (bits (w 9) 28 4) }
    else e
  if mask.getLsbD 10 then
    { e with wakePhase := BitVec.ofNat 24 (w 10), mcGrp := BitVec.ofNat 8 (bits (w 10) 24 8) }
  else e

/-- The entry copy of an entry (R24), with the DSN and counter of the frame. -/
def Entry.copy (e : Entry) (dsn : Byte) (fcnt : Word) : EntryCopy :=
  { handle := e.handle, chan := e.chan, opt := e.opt, mcs := e.mcs, tl := e.tl, tmap := e.tmap, dsn := dsn,
    nlp := e.nlp, gen := e.gen, fcnt := fcnt }

/-! ### Event records -/

/-- A table event record (R191). -/
def tableEvent (kind : Nat) (gen : Byte) (handle : Option (BitVec 18)) (par : BitVec 12) (eui : Word64) : List Byte :=
  [BitVec.ofNat 8 kind, gen] ++
    leBytes 3 (match handle with | some h => h.toNat + 2 ^ 23 | none => 0) ++ [0] ++ leBytes 2 par.toNat ++
    leBytes 8 eui.toNat

/-- A schedule event record (R226). -/
def schedEvent (kind : Nat) (e : Entry) (u ms : Nat) : List Byte :=
  [BitVec.ofNat 8 kind, e.gen] ++ leBytes 3 e.handle.toNat ++ [BitVec.ofNat 8 (e.miss.toNat + 16 * e.wcls.toNat)] ++
    leBytes 4 (min u 0xFFFFFFFF) ++ [e.chan, 0] ++ leBytes 4 (ms % 2 ^ 32)

/-! ### Tone-map records (R155, R159, R160) -/

/-- Bits of a code (R155). -/
def codeBits (c : Nat) : Nat :=
  match c with
  | 0 => 0
  | 1 => 1
  | 2 => 2
  | 3 => 4
  | _ => 6

/-- N_CBPS of codes (R155). -/
def nCbpsOf (codes : List Nat) : Nat := (codes.map codeBits).sum

/-- N_DBPS of a map (R155). -/
def nDbpsOf (rate : Bool) (cbps : Nat) : Nat := if rate then 3 * (cbps / 4) else cbps / 2

/-- Bytes 0 to 35 of a map: three bits a code. -/
def codeBytes (codes : List Nat) : List Byte :=
  leBytes 36 ((codes.zipIdx.map (fun p => p.1 * 2 ^ (3 * p.2))).sum)

/-- DIGEST of a map (R159): CRC-8 over bytes 0 to 36 with VALID and AUTO taken as 0. -/
def mapDigest (codes : List Nat) (opt : BitVec 2) (rate : Bool) : Byte :=
  BitVec.ofNat 8 (crc8 (bitsLsb (codeBytes codes ++ [BitVec.ofNat 8 (opt.toNat + 4 * b2n rate)])))

/-- A record that nothing names: all zero. -/
def TMap.zero : TMap :=
  { codes := List.replicate 96 0, opt := 0, rate := false, valid := false, auto := false, digest := 0, nCbps := 0,
    nDbps := 0, users := 0, inFlight := 0, perr := false, dead := false }

/-- The map of codes, option and rate, its computed fields filled (R160). -/
def TMap.make (codes : List Nat) (opt : BitVec 2) (rate auto valid : Bool) : TMap :=
  let cb := nCbpsOf codes
  { codes := codes, opt := opt, rate := rate, valid := valid, auto := auto, digest := mapDigest codes opt rate,
    nCbps := cb, nDbps := nDbpsOf rate cb, users := 0, inFlight := 0, perr := false,
    dead := false }

/-- The map a WRITE of 48 bytes makes (R160). -/
def TMap.ofWrite (b : List Byte) : TMap :=
  let x := leAt b 0 36
  let f := leAt b 36 1
  let opt := BitVec.ofNat 2 f
  let codes := (List.range 96).map (fun t => if t < dataTones opt then min (bits x (3 * t) 3) 4 else 0)
  let m := TMap.make codes opt (f.testBit 2) false false
  { m with valid := 12 ≤ m.nDbps }

/-- The 48 bytes of a record (R159). -/
def TMap.bytes (m : TMap) : List Byte :=
  codeBytes m.codes ++
    [BitVec.ofNat 8 (m.opt.toNat + 4 * b2n m.rate + 8 * b2n m.valid + 16 * b2n m.auto), m.digest] ++
    leBytes 2 m.nCbps ++ leBytes 2 m.nDbps ++ leBytes 3 m.users ++ leBytes 2 m.inFlight ++ [0]

/-! ### Receive metadata (R276) -/

/-- Bytes 12 to 52 of a receive completion (R276). -/
def RxInfo.bytes (r : RxInfo) : List Byte :=
  leBytes 3 (match r.handle with | some h => h.toNat + 2 ^ 23 | none => 0) ++ [r.gen] ++ leBytes 2 r.ulSeq.toNat ++
    [BitVec.ofNat 8 r.nlp.toNat, r.epoch] ++ leBytes 8 r.rx.endTime ++
    [r.rx.chan, BitVec.ofNat 8 (r.rx.opt.toNat + 4 * b2n r.rx.priv + 16 * r.rx.aerMask.toNat), r.rx.metric, r.rx.snr] ++
    (List.range 4).map (fun i => r.rx.rssi.getD i 0) ++ leBytes 2 r.rx.cfo.toNat ++ [0, 0] ++
    leBytes 8 r.eui.toNat ++ leBytes 4 r.fcnt.toNat ++ [r.dsn]

/-- The clamp of a field (R9). -/
def Machine.Clamp.apply (c : Clamp) (v : Nat) : Nat :=
  match c with
  | .none => v
  | .range lo hi => max lo (min hi v)
  | .srange lo hi =>
    let x : Int := if v < 128 then v else (v : Int) - 256
    ((max lo (min hi x)) % 256).toNat
  | .align n => v / 2 ^ n * 2 ^ n
  | .bcn =>
    let opt := BitVec.ofNat 2 (bits v 1 2)
    v % 8 + (clampMcs opt (bits v 3 3)).toNat * 8

end Sys2Proof
end

