-- ==== Sys2Proof/Machine/Queues.lean ====
section
/-!
DEFINITION. The cell pool and the queues of the Carafe (R254 to R261): cells, positions, system queues, records. The
operations on node queues, which change an entry's anchors, stand in Machine/Carafe.lean.
-/

namespace Sys2Proof.Machine

/-- A queue that holds nothing. -/
def emptyQueue : Queue := { items := [], read := 0, mark := 0, enqs := 0 }

/-- The cells of the items of a queue. -/
def queueCells (q : Queue) : List Nat := q.items.flatMap (fun i => i.cells)

/-- Every cell that some item holds. -/
def State.usedCells (s : State) : List Nat :=
  s.car.nodeQs.flatMap (fun p => queueCells p.2) ++ s.car.orphans.flatMap (fun p => queueCells p.2) ++
    s.car.sysQs.flatMap (fun p => queueCells p.2)

/-- Cells of a frame of `len` bytes: its header cell and its data cells (R255). -/
def cellsOf (len : Nat) : Nat := 1 + ceilDiv len 64

/-- The number of cells that hold something. -/
def State.cellsInUse (s : State) : Nat := s.usedCells.length

/-- FREE_CELLS (R280). -/
def State.freeCells (s : State) : Nat := 65536 - s.cellsInUse

/-- The first free cell at or after `x`, wrapping. -/
def firstFree (used : List Nat) (x : Nat) : Nat :=
  ((List.range 65536).find? (fun i => !used.contains ((x + i) % 65536))).map (fun i => (x + i) % 65536) |>.getD 0

/-- Take `n` cells from the free list. Which ones the manual leaves open (R254): a free value names each
(log entry 1). -/
def State.takeCells (s : State) (n : Nat) : List Nat × State :=
  match n with
  | 0 => ([], s)
  | k + 1 =>
    let pr := s.takeCells k
    let l := pr.1
    let s := pr.2
    (l ++ [firstFree (s.usedCells ++ l) (s.freeVal 16)], s.tick)

/-- The lowest FREE_CELLS since it was last read (R258). -/
def State.noteFree (s : State) : State := s.trough Reg.CAR_FREE_MIN s.freeCells

/-- A system queue. -/
def State.sysQ (s : State) (q : Nat) : Queue := (mget s.car.sysQs q).getD emptyQueue

/-- Replace a system queue. -/
def State.setSysQ (s : State) (q : Nat) (x : Queue) : State :=
  { s with car.sysQs := mset s.car.sysQs q (if x = emptyQueue then none else some x) }

/-- A node queue (R259). -/
def State.nodeQ (s : State) (h : BitVec 18) : Queue := (mget s.car.nodeQs h.toNat).getD emptyQueue

/-- Append an item to a queue: its enqueue count is its sequence (R20). -/
def Queue.push (q : Queue) (hdr : Option Hdr) (body : List Byte) (cells : List Nat) (note : ItemNote := .plain) : Queue :=
  { q with items := q.items ++ [{ hdr := hdr, body := body, cells := cells, enq := q.enqs, note := note }],
           enqs := q.enqs + 1 }

/-- A header cell of an item that the device made (R256). -/
def devHdr (ikind ring : Nat) (seq : BitVec 16) (h : BitVec 18) (rx : Option RxInfo) : Hdr :=
  { ikind := ikind, wd := false, sendMap := false, handle := h, prio := 0, tlpol := 0, ovr := false, seq := seq,
    ring := ring, desc := 0, expiry := 0, tries := 0, naks := 0, dsn := 0, skips := 0, smiss := false, ochan := 0,
    oopt := 0, omcs := 0, rx := rx }

/-! ### What the RAMs of the Carafe hold (R254 to R256) -/

/-- A header cell of a frame of `len` bytes (R256). -/
def Hdr.bytes (h : Hdr) (len : Nat) : List Byte :=
  leBytes 2 (len % 2048) ++
    [BitVec.ofNat 8 h.ikind, BitVec.ofNat 8 (b2n h.wd + 2 * b2n h.sendMap)] ++ leBytes 3 h.handle.toNat ++
    [BitVec.ofNat 8 (h.prio % 16 + 16 * h.tlpol.toNat + 64 * b2n h.ovr)] ++ leBytes 2 h.seq.toNat ++
    leBytes 2 (h.ring % 16) ++ leBytes 2 h.desc.toNat ++ leBytes 4 h.expiry.toNat ++
    [BitVec.ofNat 8 (h.tries + 16 * h.naks), h.dsn, BitVec.ofNat 8 (h.skips + 16 * b2n h.smiss), h.ochan] ++
    leBytes 2 (h.oopt.toNat + 4 * h.omcs.toNat) ++
    (match h.rx with
      | some r => r.bytes.take 40
      | none => List.replicate 40 0)

/-- The contents of the cells of an item, in link order, as far as R255 and R256 state them: the bytes of the last data cell
past the frame are nobody's. -/
def QItem.image (it : QItem) : List (Nat × List Byte) :=
  let chunks := (List.range (ceilDiv it.body.length 64)).map (fun i => (it.body.drop (64 * i)).take 64)
  match it.hdr with
  | some h => it.cells.zip (Hdr.bytes h it.body.length :: chunks)
  | none => it.cells.zip [it.body ++ List.replicate (64 - it.body.length) 0]

/-- Every queue that holds something. -/
def State.queues (s : State) : List Queue :=
  s.car.nodeQs.map (fun p => p.2) ++ s.car.orphans.map (fun p => p.2) ++ s.car.sysQs.map (fun p => p.2)

/-- The 64 bytes of a cell, as far as a queue states them (R254 to R256); none: a free cell. -/
def State.cell (s : State) (c : Nat) : Option (List Byte) :=
  ((s.queues.flatMap (fun q => q.items.flatMap QItem.image)).find? (fun p => p.1 = c)).map (fun p => p.2)

/-- The header map (R254): the cell is the header cell of an item. -/
def State.headerBit (s : State) (c : Nat) : Bool :=
  s.queues.any (fun q => q.items.any (fun it => it.hdr.isSome && it.cells.head? = some c))

/-- The cell that follows `c` in a list of cells in link order. -/
def nextCell (c : Nat) : List Nat → Option Nat
  | a :: b :: t => if a = c then some b else nextCell c (b :: t)
  | _ => none

/-- The link word of a cell of a queue (R254, R255): the next cell; of the queue's last cell, the header cell of its last
item, which for a record item is that cell itself. -/
def Queue.link (q : Queue) (c : Nat) : Option Nat :=
  let l := queueCells q
  if l.contains c then
    match nextCell c l with
    | some n => some n
    | none => (q.items.getLast?).bind (fun it => it.cells.head?)
  else none

/-- The link RAM (R254). The word of a free cell names the next one of the free list, whose order the manual leaves open
(log entry 1): none. -/
def State.linkWord (s : State) (c : Nat) : Option Nat := s.queues.findSome? (fun q => Queue.link q c)

/-- The code of a Carafe structure in CE_SRC and DE_SRC (R280). -/
def CarMem.code (m : CarMem) : Nat :=
  match m with
  | .cell => 1
  | .link => 2
  | .header => 3

/-- CAR corrects the single-bit errors of the cells it uses: each word is written back, counted and located (R257). -/
def State.correctCells (s : State) (cells : List Nat) : State :=
  let hit := s.car.upsets.filter (fun p => cells.contains p.1)
  hit.foldl (fun (s : State) p =>
    (((s.bump Reg.CAR_CELL_CE).wr Reg.CAR_CE_LOC p.1).wr Reg.CAR_CE_SRC (CarMem.code p.2)).ev Reg.CAR_CAR_EVT 3 104)
    { s with car.upsets := s.car.upsets.filter (fun p => !cells.contains p.1) }

/-- Remove item `i` of a queue; READ and MARK follow (R260). -/
def Queue.drop (q : Queue) (i : Nat) : Queue :=
  { q with items := q.items.eraseIdx i, read := if i < q.read then q.read - 1 else q.read,
           mark := if i < q.mark then q.mark - 1 else q.mark }

/-- Link a frame or record to a system queue: its cells are taken, the watermark follows. The transition of the event
queues from empty to not empty sets TEV_AVAIL or SEV_AVAIL (R270). -/
def State.linkSys (s : State) (q : Nat) (hdr : Option Hdr) (body : List Byte) (note : ItemNote := .plain) : State :=
  let n := if hdr.isSome then cellsOf body.length else 1
  let was := (s.sysQ q).items.isEmpty
  let pr := s.takeCells n
  let cells := pr.1
  let s := pr.2
  let s := (s.setSysQ q (Queue.push (s.sysQ q) hdr body cells note)).noteFree.correctCells cells
  let s := if was && q = 0x12 then s.ev Reg.CAR_CAR_EVT 4 104 else s
  if was && q = 0x13 then s.ev Reg.CAR_CAR_EVT 5 104 else s

/-- The cell limit of a system queue that device items go to (R269); above 0x13 the pool alone bounds a queue. -/
def State.queueLimit (s : State) (q : Nat) : Nat :=
  if q < 0x10 then s.rd Reg.CAR_RXQ_LIM else if q < 0x14 then s.rd Reg.CAR_RECQ_LIM else 65536

/-- The sequence at which a stream is fenced, if it is (R420). -/
def State.fenceAt (s : State) (cls idx : Nat) (h : BitVec 18) : Option (BitVec 16) :=
  (s.sys.fences.find? (fun f => f.cls = cls && f.idx = idx && f.handle = h)).map (fun f => f.l)

/-- An item of a fenced stream at L or later (R420). -/
def State.fenced (s : State) (cls idx : Nat) (h : BitVec 18) (seq : BitVec 16) : Bool :=
  match s.fenceAt cls idx h with
  | some l => laterEq seq l
  | none => false

/-- A device item reaches CAR: admitted, or dropped on the spot and counted (R258, R269); under
the queue's fence it is discarded (R420, R421). -/
def State.takeItem (s : State) (q : Nat) (hdr : Option Hdr) (body : List Byte) (note : ItemNote := .plain) : State :=
  let n := if hdr.isSome then cellsOf body.length else 1
  if s.fenced 7 q 0 (s.sysQ q).enqs then s.bump (if hdr.isSome then Reg.SYS_FENCED_UL else Reg.SYS_FENCED_OTHER)
  else if n ≤ s.freeCells && (queueCells (s.sysQ q)).length + n ≤ s.queueLimit q then
    s.linkSys q hdr body note
  else if q < 0x10 then (s.bump Reg.CAR_RX_DROP).ev Reg.CAR_CAR_EVT 1 104
  else (s.bump Reg.CAR_SQ_DROP).ev Reg.CAR_CAR_EVT 2 104

/-- A device item goes to a system queue; while CAR is stopped it waits for a credit (R16, R279). -/
def State.deviceItem (s : State) (q : Nat) (hdr : Option Hdr) (body : List Byte) (note : ItemNote := .plain) : State :=
  if s.runs .CAR then s.takeItem q hdr body note
  else { s with car.inbox := s.car.inbox ++ [{ q := q, hdr := hdr, body := body, note := note }] }

/-- Queue a record (R191, R226, R167). -/
def State.record (s : State) (q : Nat) (body : List Byte) : State := s.deviceItem q none body

/-- Release the item at HEAD of a system queue (R260). -/
def State.releaseSys (s : State) (q : Nat) : State :=
  (s.setSysQ q (Queue.drop (s.sysQ q) 0)).correctCells (((s.sysQ q).items.head?.map (fun x => x.cells)).getD [])

/-- Take every item out of a system queue: its cells are free. -/
def State.emptySys (s : State) (q : Nat) : State :=
  s.setSysQ q { s.sysQ q with items := [], read := 0, mark := 0 }

/-- The active's mirroring ends: cycles and records not sent are dropped (R406, R411). -/
def State.dropSending (s : State) : State :=
  { s.emptySys 0x28 with twn.sending := [], twn.toLink := [], twn.copy := none }

/-- What a standby holds of a cycle received in part is dropped (R402, R411). -/
def State.dropReceived (s : State) : State := { s.emptySys 0x29 with twn.held := none }

/-- Put a frame's final status into the place of its descriptor on its ring (R277). -/
def State.settleSlot (s : State) (h : Hdr) (c : TxDone) : State :=
  { s with hst.txSlots := s.hst.txSlots.map (fun p =>
      if p.1 = h.ring && p.2.idx = h.desc && p.2.done.isNone &&
          (h.ikind ≠ 1 || (p.2.tgt = 0 && p.2.handle = h.handle && p.2.hseq = h.seq)) then
        (p.1, { p.2 with done := some c })
      else p) }

/-- The completion of a frame from its header cell (R274). -/
def Hdr.completion (h : Hdr) (status reason : Byte) : TxDone :=
  { status := status, reason := reason, tries := h.tries, skips := h.skips, dsn := if h.tries = 0 then 0 else h.dsn,
    hseq := if h.ikind = 1 then h.seq else 0, smiss := h.smiss }

/-- Give a frame its final status: its descriptor's completion (R242, R274). -/
def State.settle (s : State) (h : Hdr) (status reason : Byte) : State :=
  let h' := Hdr.completion h status reason
  let s := s.settleSlot h h'
  -- a descriptor re-posted after a takeover completes with the held frame's status (R408)
  if h.ikind = 1 && s.hst.resumed.contains (h.handle.toNat, h.seq.toNat) then
    let slots := s.hst.txSlots.map (fun p =>
      if p.2.tgt = 0 && p.2.handle = h.handle && p.2.hseq = h.seq && p.2.done.isNone then
        (p.1, { p.2 with done := some h' })
      else p)
    { s with hst.txSlots := slots, hst.resumed := s.hst.resumed.erase (h.handle.toNat, h.seq.toNat) }
  else s

end Sys2Proof.Machine
end

