-- ==== Sys2Proof/Machine/Frame.lean ====
section
/-!
DEFINITION. The IEEE 802.15.4-2020 frame as far as the device reads and writes it (R228, R229, R235, R298): MAC header,
Header IEs with their descriptors, the acknowledgement, securing in place. The layout is the standard's (log entry 97,
PRESUMED).
-/

namespace Sys2Proof.Machine

/-- A Header IE descriptor: length in bits 6 to 0, element ID in bits 14 to 7, type 0. -/
def ieDescriptor (id len : Nat) : List Byte := leBytes 2 (len % 128 + id % 256 * 128)

/-- A Header IE: its descriptor and its contents (R228). -/
def ieBytes (e : Nat × List Byte) : List Byte := ieDescriptor e.1 e.2.length ++ e.2

/-- Octets of a MIC by security level (R298): level 4 carries none. -/
def micLen (level : Nat) : Nat :=
  match level % 4 with
  | 0 => 0
  | 1 => 4
  | 2 => 8
  | _ => 16

/-- The Header IEs that begin some octets, up to a termination element, and the octets they take with it; at most `n` of
them. -/
def parseIes (n : Nat) (b : List Byte) : List (Nat × List Byte) × Nat :=
  match n with
  | 0 => ([], 0)
  | n + 1 =>
    let d := leAt b 0 2
    let len := d % 128
    let id := d / 128 % 256
    if b.length < 2 + len || 32768 ≤ d then ([], 0)
    else if id = 0x7E || id = 0x7F then ([], 2 + len)
    else
      let r := parseIes n (b.drop (2 + len))
      ((id, (b.drop 2).take len) :: r.1, 2 + len + r.2)

/-- What a MAC header holds: the frame control, where the auxiliary security header and the Header IEs begin, and where the
header ends. -/
structure Mhr where
  ctl : Nat
  dsn : Byte
  src : Option Word64
  aux : Nat
  level : Nat
  fc : Word
  ieAt : Nat
  ies : List (Nat × List Byte)
  len : Nat
deriving DecidableEq, Repr

/-- Octets of an address by its mode. -/
def addrLen (mode : Nat) : Nat := if mode = 3 then 8 else if mode = 2 then 2 else 0

/-- Whether a frame of version 0b10 carries its destination and its source PAN identifier. -/
def panIds (dst src : Nat) (comp : Bool) : Bool × Bool :=
  if dst = 0 && src = 0 then (comp, false)
  else if src = 0 then (!comp, false)
  else if dst = 0 then (false, !comp)
  else if dst = 3 && src = 3 then (!comp, false)
  else (true, !comp)

/-- Read the MAC header of an MPDU of frame version 0b10 (R228). -/
def readMhr (b : List Byte) : Option Mhr :=
  let c := leAt b 0 2
  let dstM := bits c 10 2
  let srcM := bits c 14 2
  let pans := panIds dstM srcM (c.testBit 6)
  let o := if c.testBit 8 then 2 else 3
  let src := o + (if pans.1 then 2 else 0) + addrLen dstM + (if pans.2 then 2 else 0)
  let aux := src + addrLen srcM
  let k := leAt b aux 1
  let keyId := match bits k 3 2 with
    | 0 => 0
    | 1 => 1
    | 2 => 5
    | _ => 9
  let sec := c.testBit 3
  let ieAt := if sec then aux + 1 + (if k.testBit 5 then 0 else 4) + keyId else aux
  let level := if sec then k % 8 else 0
  let pay := b.length - micLen level
  let ies := if c.testBit 9 then parseIes (pay - ieAt) ((b.take pay).drop ieAt) else ([], 0)
  if b.length < ieAt || bits c 12 2 ≠ 2 then none
  else some {
    ctl := c, dsn := if c.testBit 8 then 0 else (b.drop 2).headD 0,
    src := if srcM = 3 then some (BitVec.ofNat 64 (leAt b src 8)) else none,
    aux := aux, level := level, fc := BitVec.ofNat 32 (if sec && !k.testBit 5 then leAt b (aux + 1) 4 else 0),
    ieAt := ieAt, ies := ies.1, len := ieAt + ies.2 }

/-- The PSDU of a node frame: what its MAC header says, with `mic` the key under which its MIC checks and `plain` what its
payload decrypts to under that key (log entry 3). None: no frame of version 0b10 with the node's EUI-64 as its source. -/
def readPsdu (b : List Byte) (mic : Option Key) (plain : List Byte) : Option Psdu :=
  match readMhr b with
  | none => none
  | some h =>
    match h.src with
    | none => none
    | some eui =>
      let n := b.length - micLen h.level - h.len
      let body := (b.drop h.len).take n
      some {
        eui := eui, fc := h.fc, dsn := h.dsn, ackReq := h.ctl.testBit 5, enhAck := h.ctl % 8 = 2, level := h.level,
        mic := mic, ies := h.ies,
        body := b.take h.len ++ (if 4 ≤ h.level then (List.range n).map (fun i => plain.getD i 0) else body) ++
          b.drop (h.len + n) }

/-- The contents of the first Header IE with an element ID and at least `n` octets (R228). -/
def ieOf (p : Psdu) (id n : Nat) : Option (List Byte) := (p.ies.find? (fun e => e.1 = id && n ≤ e.2.length)).map (fun e => e.2)

/-- The timestamp element of a node frame (R228). -/
def State.tsIe (s : State) (p : Psdu) : Option (List Byte) := ieOf p (s.rd Reg.SCH_IE_TS_ID) 5

/-- The node acknowledgement element (R228). -/
def State.ackIe (s : State) (p : Psdu) : Option (List Byte) := ieOf p (s.rd Reg.SCH_IE_ACK_ID) 1

/-- The join element (R228). -/
def State.joinIe (s : State) (p : Psdu) : Option (List Byte) := ieOf p (s.rd Reg.SCH_IE_JOIN_ID) 9

/-! ### What goes out -/

/-- An Enh-Ack before its MIC (R235): frame version 0b10, security and Header IEs, no address; auxiliary security header of
level 5 and key identifier mode 0, its counter still zero; the element. -/
def ackMpdu (dsn : Byte) (e : Nat × List Byte) : List Byte :=
  leBytes 2 0x220A ++ [dsn, 5, 0, 0, 0, 0] ++ ieBytes e ++ [0, 0, 0, 0]

/-- Put Header IEs ahead of a frame's own (R238). A frame that has none gets the bit that says so. -/
def insertIes (b : List Byte) (l : List (Nat × List Byte)) : List Byte :=
  match readMhr b with
  | some h =>
    if l.isEmpty then b
    else
      let b := leBytes 2 (if h.ctl.testBit 9 then h.ctl else h.ctl + 512) ++ b.drop 2
      b.take h.ieAt ++ l.flatMap ieBytes ++ b.drop h.ieAt
  | none => b ++ l.flatMap ieBytes

/-- The DSN, the security level and the frame counter as the device writes them into a host frame's header (R238, R298). -/
def stamp (b : List Byte) (dsn : Option Byte) (level : Nat) (fc : Word) : List Byte :=
  match readMhr b with
  | some h =>
    let b := match dsn with
      | some d => if h.ctl.testBit 8 then b else b.take 2 ++ [d] ++ b.drop 3
      | none => b
    if h.ctl.testBit 3 then
      let k := leAt b h.aux 1
      let c := if k.testBit 5 then [] else leBytes 4 fc.toNat
      b.take h.aux ++ [BitVec.ofNat 8 (k / 8 * 8 + level % 8)] ++ c ++ b.drop (h.aux + 1 + c.length)
    else b
  | none => b

/-- Octets of the MAC header of an MPDU. -/
def mhrLen (b : List Byte) : Nat := ((readMhr b).map (fun h => h.len)).getD 0

/-- A frame secured with AES-128-CCM* (R298): its first `h` octets, the header, stand; payload and MIC are the cipher's. -/
def sealFrame (k : Key) (eui : Word64) (fc : Word) (level h : Nat) (b : List Byte) : List Byte :=
  (List.range b.length).map (fun i =>
    if i < h || (level < 4 && i < b.length - micLen level) then b.getD i 0 else Config.ccmOctet k eui fc level b i)

end Sys2Proof.Machine
end

