-- ==== Sys2Proof/Machine/Table.lean ====
section
/-!
DEFINITION. The node table and the handle directory: locations, probe, parity, directory rebuild, field updates, hit
operation, insertion and relocation, removal (R172 to R197).
-/

namespace Sys2Proof.Machine

/-- Location of slot `n` of a way (R180). -/
def slotLoc (way n : Nat) : Nat := way * 2 ^ 17 + n

/-- Location of a stash entry (R180). -/
def stashLoc (i : Nat) : Nat := 2 ^ 18 + i

/-- The slot numbers of a bucket, as locations. -/
def bucketLocs (way b : Nat) : List Nat := (List.range 4).map (fun i => slotLoc way (b * 4 + i))

/-- The locations of the stash. -/
def stashLocs : List Nat := (List.range 16).map stashLoc

/-- The candidate bucket of an EUI-64 in a way (R173). -/
def State.bucket (s : State) (way : Nat) (e : Word64) : Nat :=
  bucketOf (if way = 0 then s.otp.salt0 else s.otp.salt1) e

/-- The words of a mask. -/
def words (l : List Nat) : BitVec 12 := BitVec.ofNat 12 ((l.map (fun n => 2 ^ n)).sum)

/-- An access that reads a slot finds parity errors in it: BAD is set, the error is recorded and reported
(R196). `src` codes the access as PAR_SRC does. -/
def State.parityFail (s : State) (loc : Nat) (sl : Slot) (src : Nat) : State :=
  let known := !sl.perr.getLsbD 2
  let s := { s with ntb.slots := mput s.ntb.slots loc { sl with bad := true } }
  let s := (((s.wr Reg.NTB_PAR_LOC loc).wr Reg.NTB_PAR_WORDS sl.perr.toNat).wr Reg.NTB_PAR_SRC src).bump Reg.NTB_PAR_ERR
  let s := if known then s.wr Reg.NTB_PAR_HANDLE (sl.entry.handle.toNat + 2 ^ 23) else s.wr Reg.NTB_PAR_HANDLE 0
  let s := s.ev Reg.NTB_NTB_EVT 0 72
  let eui := if sl.perr.getLsbD 0 || sl.perr.getLsbD 1 then 0 else sl.entry.eui
  s.record 0x12 (tableEvent 2 (if known then sl.entry.gen else 0) (if known then some sl.entry.handle else none) sl.perr
    eui)

/-- Check the parity of an entry that an access reads, every word of it (R196; log entry 42): the state after, and whether
it checks. Every access that reads a failing word reports it, of a slot that is BAD already too; what stops at the BAD bit
(a probe, a search, a hit, a field update, a sweeper visit) reads no word. -/
def State.checkWords (s : State) (loc : Nat) (sl : Slot) (src : Nat) : Bool × State :=
  if sl.perr = 0 then (true, s) else (false, s.parityFail loc sl src)

/-- The locations a probe reads: both buckets and the stash (R178). -/
def State.probeLocs (s : State) (e : Word64) : List Nat :=
  bucketLocs 0 (s.bucket 0 e) ++ bucketLocs 1 (s.bucket 1 e) ++ stashLocs

/-- A probe reads a slot (R178): whether it is VALID, not BAD and holds the EUI-64. -/
def State.probeAt (s : State) (e : Word64) (src loc : Nat) : Bool × State :=
  match mget s.ntb.slots loc with
  | none => (false, s)
  | some sl =>
    if sl.bad then (false, s)
    else
      let pr := s.checkWords loc sl src
      (pr.1 && sl.entry.eui = e, pr.2)

/-- Probe by EUI-64 (R178): the location of a VALID slot that is not BAD and holds it. -/
def State.probe (s : State) (e : Word64) (src : Nat) : Option Nat × State :=
  (s.probeLocs e).foldl (fun (r : Option Nat × State) loc =>
    let pr := r.2.probeAt e src loc
    (if pr.1 && r.1.isNone then some loc else r.1, pr.2)) (none, s)

/-- Count a lookup (R179). -/
def State.countLookup (s : State) (hit : Bool) : State :=
  let s := s.wrap Reg.NTB_LOOKUPS
  if hit then s else s.bump Reg.NTB_LOOKUP_MISS

/-- The location the directory names for a handle; a record whose parity fails is rebuilt first (R197). -/
def State.dirLoc (s : State) (h : BitVec 18) : Option Nat × State :=
  match mget s.ntb.dir h.toNat with
  | none => (none, s)
  | some r =>
    if r.perr then
      let found := s.ntb.slots.find? (fun p => p.2.entry.handle = h && !p.2.perr.getLsbD 2)
      let s := { s with ntb.dir := mset s.ntb.dir h.toNat (found.map (fun (p : Nat × Slot) => (⟨BitVec.ofNat 19 p.1, false⟩ : DirRec))) }
      let s := s.bump Reg.NTB_DIR_REBUILD
      let gen := (found.map (fun p => p.2.entry.gen)).getD 0
      let eui := (found.map (fun p => p.2.entry.eui)).getD 0
      (found.map (fun p => p.1), s.record 0x12 (tableEvent 4 gen (some h) 0 eui))
    else (some r.loc.toNat, s)

/-- The slot of a handle, BAD or not. -/
def State.slotOf (s : State) (h : BitVec 18) : Option (Nat × Slot) :=
  match (s.dirLoc h).1 with
  | none => none
  | some loc => (mget s.ntb.slots loc).bind (fun sl => if sl.entry.handle = h then some (loc, sl) else none)

/-- The entry of a handle, if it is not BAD: a BAD entry's node is handled as unknown (R196). -/
def State.entry (s : State) (h : BitVec 18) : Option Entry :=
  (s.slotOf h).bind (fun p => if p.2.bad then none else some p.2.entry)

/-- An access by handle reads its slot (R196, R197): its directory record is rebuilt where it fails, its words are
checked as the access `src` codes; none where there is no entry, where it is BAD or where a word fails. -/
def State.access (s : State) (h : BitVec 18) (src : Nat) : Option (Nat × Slot) × State :=
  let pr := s.dirLoc h
  let s := pr.2
  match pr.1.bind (fun loc => (mget s.ntb.slots loc).map (fun sl => (loc, sl))) with
  | none => (none, s)
  | some (loc, sl) =>
    if sl.bad || sl.entry.handle ≠ h then (none, s)
    else
      let ck := s.checkWords loc sl src
      (if ck.1 then some (loc, sl) else none, ck.2)

/-- A read of an entry that is none of the accesses of R196: the prediction probe of R227, which moves no counter. A failing
word answers as no entry. -/
def State.readEntry (s : State) (h : BitVec 18) : Option Entry × State :=
  let pr := s.dirLoc h
  ((pr.1.bind (fun loc => mget pr.2.ntb.slots loc)).bind (fun sl =>
    if sl.bad || sl.perr ≠ 0 || sl.entry.handle ≠ h then none else some sl.entry), pr.2)

/-- One field update of the entry of a handle (R189): dropped where there is no entry, where it is BAD, or where a word
fails its parity (R196). -/
def State.updEntry (s : State) (h : BitVec 18) (f : Entry → Entry) : State :=
  let pr := s.access h 5
  match pr.1 with
  | none => pr.2
  | some (loc, sl) => { pr.2 with ntb.slots := mput pr.2.ntb.slots loc { sl with entry := f sl.entry } }

/-- OCC (R199). -/
def State.occ (s : State) : Nat := s.ntb.slots.length

/-- STASH_OCC (R199). -/
def State.stashOcc (s : State) : Nat := (s.ntb.slots.filter (fun p => 2 ^ 18 ≤ p.1)).length

/-- Watermarks after an insertion (R199): OCC_PEAK, STASH_HI. -/
def State.noteOcc (s : State) (stashWas : Nat) : State :=
  let s := s.peak Reg.NTB_OCC_PEAK s.occ
  if stashWas < s.rd Reg.NTB_STASH_WARN && s.rd Reg.NTB_STASH_WARN ≤ s.stashOcc then s.ev Reg.NTB_NTB_EVT 1 72 else s

/-- place(): the entry with VALID = 1, then its directory record (R186). -/
def State.place (s : State) (e : Entry) (loc : Nat) : State :=
  let w := s.stashOcc
  let s := { s with ntb.slots := mput s.ntb.slots loc { entry := e, bad := false, perr := 0 },
                    ntb.dir := mput s.ntb.dir e.handle.toNat ⟨BitVec.ofNat 19 loc, false⟩ }
  s.noteOcc w

/-- move(): copy, directory, invalidate; HIT and AMARK carried over (R186). -/
def State.move (s : State) (src dst : Nat) : State :=
  match mget s.ntb.slots src with
  | none => s
  | some sl =>
    { s with ntb.slots := mdel (mput s.ntb.slots dst sl) src,
             ntb.dir := mput s.ntb.dir sl.entry.handle.toNat ⟨BitVec.ofNat 19 dst, false⟩ }

/-- The lowest free slot of a bucket. -/
def State.freeIn (s : State) (way b : Nat) : Option Nat :=
  (bucketLocs way b).find? (fun l => (mget s.ntb.slots l).isNone)

/-- The search of R186 from step `i`, with `n` steps left: the path of victims and the slot at its far end. A victim
that is locked, BAD or fails its parity ends the chain. -/
def State.search (s : State) (n i way bk : Nat) (path : List Nat) : Option (List Nat × Nat) × State :=
  match n with
  | 0 => (none, s)
  | n + 1 =>
    let cand := (List.range 4).map (fun k => slotLoc way (bk * 4 + (i + k) % 4))
    match cand.find? (fun l => !path.contains l) with
    | none => (none, s)
    | some l =>
      match mget s.ntb.slots l with
      | none => (none, s)
      | some sl =>
        let pr := if sl.bad then (false, s) else s.checkWords l sl 3
        let ok := pr.1
        let s := pr.2
        if !ok || sl.entry.lock then (none, s)
        else
          let w := 1 - way
          let b := s.bucket w sl.entry.eui
          let path := path ++ [l]
          match s.freeIn w b with
          | some d => (some (path, d), s)
          | none => s.search n (i + 1) w b path

/-- How an insertion found its place. -/
inductive Placed where
  | at_ (loc moves : Nat)
  | stash (loc : Nat)
  | full
deriving DecidableEq, Repr

/-- Run the moves of a path from its far end (R186). -/
def State.runPath (s : State) (path : List Nat) (dest : Nat) : State :=
  (path.reverse.foldl (fun (r : Nat × State) l => (l, r.2.move l r.1)) (dest, s)).2

/-- A place for an EUI-64 outside the stash: the location, and the moves that free it (R186). -/
def State.findPlace (s : State) (e : Word64) : Option (Nat × Nat) × State :=
  let b0 := s.bucket 0 e
  let b1 := s.bucket 1 e
  match s.freeIn 0 b0 with
  | some l => (some (l, 0), s)
  | none =>
    match s.freeIn 1 b1 with
    | some l => (some (l, 0), s)
    | none =>
      let pr := s.search 96 0 0 b0 []
      match pr.1 with
      | none => (none, pr.2)
      | some (path, d) =>
        (some (path.headD 0, path.length), (pr.2.runPath path d).peak Reg.NTB_MOVES_MAX path.length)

/-- insert() of R186 for an entry whose handle is chosen. -/
def State.insert (s : State) (e : Entry) : Placed × State :=
  let pr := s.findPlace e.eui
  let s := pr.2
  match pr.1 with
  | some (l, m) => (.at_ l m, s.place e l)
  | none =>
    match stashLocs.find? (fun l => (mget s.ntb.slots l).isNone) with
    | some l => (.stash l, (s.bump Reg.NTB_STASHED).place e l)
    | none => (.full, s)

/-- The first free handle from `h` on among `n`, wrapping (R180); a record that fails its parity is rebuilt as the search
meets it (R197). -/
def State.freeHandle (s : State) (n : Nat) (h : BitVec 18) : Option (BitVec 18) × State :=
  match n with
  | 0 => (none, s)
  | n + 1 =>
    let pr := s.dirLoc h
    if pr.1.isNone then (some h, pr.2) else pr.2.freeHandle n (h + 1)

/-- The first free handle after LAST_ALLOC, wrapping (R181). One more handle than the directory has records is enough. -/
def State.nextHandle (s : State) : Option (BitVec 18) × State :=
  s.freeHandle (min (2 ^ 18) (s.ntb.dir.length + 1)) (BitVec.ofNat 18 (s.rd Reg.NTB_LAST_ALLOC + 1))

/-- A proposal's table write that NTB has not yet applied names the map (R168). -/
def State.mapPromised (s : State) (i : Nat) : Bool := s.phy.propWrites.any (fun w => w.tmap.toNat = i)

/-- Adjust USERS of the tone maps as an entry's map changes (R162). An AUTO map whose USERS falls to 0 becomes free
while its IN_FLIGHT is 0; one that a proposal has taken and whose table write is to come is in use (log entry 24). -/
def State.users (s : State) (idx : Nat) (up : Bool) : State :=
  let m := (mget s.phy.tmaps idx).getD TMap.zero
  let u := if up then m.users + 1 else m.users - 1
  let m := { m with users := u, valid := if m.auto && u = 0 && m.inFlight = 0 && !s.mapPromised idx then false else m.valid }
  { s with phy.tmaps := mset s.phy.tmaps idx (if m = TMap.zero then none else some m) }

/-- An AUTO map that no entry and no frame uses becomes free (R162, R168). -/
def State.freeAuto (s : State) (idx : Nat) : State :=
  match mget s.phy.tmaps idx with
  | none => s
  | some m =>
    if m.auto && m.users = 0 && m.inFlight = 0 && !s.mapPromised idx then
      { s with phy.tmaps := mput s.phy.tmaps idx { m with valid := false } }
    else s

/-- Remove the entry at a location: its slot, its directory record; its map loses a user (R190, R183). With the entry go its
anchors: a queue that it leaves is reached through none. -/
def State.removeAt (s : State) (loc : Nat) (e : Entry) : State :=
  let s := { s with ntb.slots := mdel s.ntb.slots loc, ntb.dir := mdel s.ntb.dir e.handle.toNat,
                    ntb.locks := s.ntb.locks.filter (fun p => p.1 ≠ e.handle.toNat) }
  let q := (mget s.car.nodeQs e.handle.toNat)
  let s := match q with
    | some x =>
      { s with car.nodeQs := mdel s.car.nodeQs e.handle.toNat, car.orphans := s.car.orphans ++ [(e.handle, x)] }
    | none => s
  s.users e.tmap.toNat false

/-- INSERT under a chosen handle: the map named gains a user (R162). -/
def State.insertUsers (s : State) (e : Entry) : Placed × State :=
  let pr := s.insert e
  (pr.1, if pr.1 = .full then pr.2 else pr.2.users e.tmap.toNat true)

end Sys2Proof.Machine
end

