-- ==== Sys2Proof/Machine/Wheel.lean ====
section
/-!
DEFINITION. The wake model (R200 to R218): the contact update, prediction, uncertainty, placement in the wheel or the
overflow list, DRIFTED and UNREACHABLE, the plan in effect.
-/

namespace Sys2Proof.Machine

/-- A plan entry in effect. -/
def State.planAt (s : State) (c : Byte) : Nat := ((mget s.grn.live c.toNat).getD 0).toNat

/-- The plan entry is enabled in PLAN_LIVE (R122). -/
def State.chanLive (s : State) (c : Byte) : Bool := (s.planAt c).testBit 20

/-- The group of a plan entry in effect. -/
def State.chanGrp (s : State) (c : Byte) : Grp := Grp.ofCode (bits (s.planAt c) 14 2)

/-- Wmax of a class, µs (R203). -/
def wmaxUs (c : BitVec 4) : Nat :=
  match c.toNat with
  | 0 => 250 | 1 => 500 | 2 => 1000 | 3 => 1500 | 4 => 2000 | 5 => 3000 | 6 => 4000 | 7 => 6000
  | 8 => 8000 | 9 => 12000 | 10 => 16000 | 11 => 24000 | 12 => 32000 | 13 => 48000 | 14 => 64000
  | _ => 96000

/-- Wake k of a node, ms (R201), for every integer k; `wakeInt` above 0. -/
def wakeMs (e : Entry) (k : Int) : Int := k * e.wakeInt.toNat + (e.wakePhase.toNat % e.wakeInt.toNat : Nat)

/-- Δ of a wake, ms (R207). -/
def wakeDelta (e : Entry) (w : Int) : Nat := ((w - e.lastContact.toNat) % 2 ^ 32).toNat

/-- P of a wake, mesh µs (R207). -/
def wakeP (e : Entry) (w : Int) : Int :=
  1000 * w - e.clkOfs.toInt - roundDiv (e.drift.toInt * wakeDelta e w) 100000

/-- u(Δ), µs (R208). -/
def uncertainty (e : Entry) (delta : Nat) : Nat :=
  16 * e.g0.toNat + ceilDiv ((5 * e.dNode.toNat + 6) * delta) 1000

/-- The least index from `lo` to `hi` that `p` names, where it names `hi` and, with an index, every later one of them;
`n` halvings suffice for 2^n indices. -/
def bisect (p : Int → Bool) (n : Nat) (lo hi : Int) : Int :=
  match n with
  | 0 => hi
  | n + 1 =>
    if hi ≤ lo then hi
    else
      let mid := (lo + hi) / 2
      if p mid then bisect p n lo mid else bisect p n (mid + 1) hi

/-- No P lies further than this from its wake, µs: CLK_OFS and the drift term stay below 3.6 × 10^9 µs (R203, R207). -/
def wakeSpan : Int := 4000000000

/-- The index of the least wake, over every integer k, whose P is `t` or later, mesh µs (R207). P rises with k, but where
Δ wraps it jumps by the drift of 2^32 ms; at most one such index `b` lies in the span that matters. -/
def nextWakeAt (e : Entry) (t : Int) : Int :=
  let m : Int := e.wakeInt.toNat
  let lo := (t - wakeSpan) / (1000 * m) - 1
  let hi := (t + wakeSpan) / (1000 * m) + 1
  let lc : Int := e.lastContact.toNat
  let wrap := lc + ((wakeMs e lo - lc) / 2 ^ 32 + 1) * 2 ^ 32
  let b := (wrap - (e.wakePhase.toNat % e.wakeInt.toNat : Nat) + m - 1) / m
  let ok := fun k => decide (t ≤ wakeP e (wakeMs e k))
  if b ≤ hi then (if ok (b - 1) then bisect ok 64 lo (b - 1) else bisect ok 64 b hi)
  else bisect ok 64 lo hi

/-- The index of the next wake: the least whose P is at least 3 ms after `nowUs` (R207). -/
def nextWake (e : Entry) (nowUs : Nat) : Int := nextWakeAt e (nowUs + 3000)

/-- Mesh time in µs. -/
def State.us (s : State) : Nat := s.sys.timeNs / 1000

/-- The bucket last processed; before the first, the one whose instant is now (R212). -/
def State.bucketNow (s : State) : Nat := s.sch.lastBucket.getD (s.ms + 3)

/-- The mesh millisecond of an event's P. -/
def WEvent.ms (v : WEvent) : Nat := (v.p / 1000).toNat

/-- Events that count toward a mesh millisecond (R209). -/
def State.inBucket (s : State) (m : Nat) : Nat :=
  (s.sch.wheel.filter (fun v => WEvent.ms v = m)).length + (s.sch.ovf.filter (fun v => WEvent.ms v = m)).length

/-- Insert an event into the overflow list by P (R209). -/
def insertByP (l : List WEvent) (v : WEvent) : List WEvent :=
  match l with
  | [] => [v]
  | x :: t => if v.p < x.p then v :: x :: t else x :: insertByP t v

/-- Put an event for wake index `k` where it belongs, moving on from full buckets (R209, R210). -/
def State.putEvent (s : State) (e : Entry) (n : Nat) (k : Int) : State :=
  let w := wakeMs e k
  let v : WEvent := { handle := e.handle, wk := (w % 2 ^ 32).toNat, p := wakeP e w }
  match n with
  | 0 => s
  | n + 1 =>
    if 512 ≤ s.inBucket (WEvent.ms v) then
      ((s.bump Reg.SCH_BKT_FULL).ev Reg.SCH_SCH_EVT 2 80).putEvent e n (k + 1)
    else
      let ovf := s.sch.ovf.filter (fun x => x.handle ≠ e.handle)
      let s := if s.bucketNow + 65536 ≤ WEvent.ms v then { s with sch.ovf := insertByP ovf v }
        else { s with sch.ovf := ovf, sch.wheel := s.sch.wheel ++ [v] }
      s.updEntry e.handle (fun e => { e with wheeled := true })

/-- Place a node at its least wake with P at `t` or later (R210). Nothing is placed before TIME_SET (R200); a node that is
not ACTIVE is not placed (R215, R217, R234); one without scheduled wakes has its WHEELED cleared. A stopped SCH places
nothing: its scan does so at its restart (R225). -/
def State.placeFrom (s : State) (h : BitVec 18) (t : Int) : State :=
  match s.entry h with
  | none => s
  | some e =>
    if !s.runs .SCH || !s.on Reg.TIM_TIME_SET || e.state ≠ .active then s
    else if e.wakeInt = 0 then s.updEntry h (fun e => { e with wheeled := false })
    else s.putEvent e ((s.sch.wheel.length + s.sch.ovf.length) / 256 + 1) (nextWakeAt e t)

/-- Place a node at its next wake (R207, R210). -/
def State.placeNode (s : State) (h : BitVec 18) : State := s.placeFrom h (s.us + 3000)

/-- Place a node at the wake after one at `p`, mesh µs, that has ended before its instant (log entry 28). -/
def State.placeAfter (s : State) (h : BitVec 18) (p : Int) : State := s.placeFrom h (max (s.us + 3000) (p + 1))

/-- Queue a schedule event record for a node (R226). -/
def State.schedRecord (s : State) (kind : Nat) (e : Entry) (u : Nat) : State :=
  s.record 0x13 (schedEvent kind e u s.ms)

/-- A node becomes DRIFTED by the guard test (R215). -/
def State.driftGuard (s : State) (e : Entry) (u : Nat) : State :=
  let s := s.updEntry e.handle (fun e => { e with state := .drifted, wheeled := false })
  ((s.schedRecord 1 e u).bump Reg.SCH_GUARD_DRIFT).ev Reg.SCH_SCH_EVT 0 80

/-- A node becomes DRIFTED by its misses (R215). -/
def State.driftMiss (s : State) (e : Entry) : State :=
  let s := s.updEntry e.handle (fun e => { e with state := .drifted, wheeled := false })
  ((s.schedRecord 2 e 0).bump Reg.SCH_MISS_DRIFT).ev Reg.SCH_SCH_EVT 0 80

/-- A node becomes UNREACHABLE (R217). -/
def State.unreach (s : State) (h : BitVec 18) : State :=
  match s.entry h with
  | none => s
  | some e =>
    if e.state = .active || e.state = .drifted then
      let s := s.updEntry h (fun e => { e with state := .unreachable, wheeled := false })
      ((s.schedRecord 4 e 0).bump Reg.SCH_UNREACH).ev Reg.SCH_SCH_EVT 1 80
    else s

/-- QNE of a node went from 0 to 1 (R210, R217): placed, or UNREACHABLE where its channel is not live. -/
def State.queueRose (s : State) (h : BitVec 18) : State :=
  match s.entry h with
  | none => s
  | some e =>
    if !s.runs .SCH then s else if (e.state = .active || e.state = .drifted) && !s.chanLive e.chan then s.unreach h else s.placeNode h

/-- What an authenticated frame carries for the timing model (R202, R228). -/
structure TsIe where
  time : Nat
  rb : Bool
  ver : Nat
deriving DecidableEq, Repr

/-- Read a timestamp element (R228). -/
def tsOf (b : List Byte) : TsIe :=
  { time := leAt b 0 4, rb := (leAt b 4 1).testBit 0, ver := bits (leAt b 4 1) 1 3 }

/-- The contact update of R205 on an entry, and whether the observation was clipped. -/
def contactUpd (s : State) (e : Entry) (t : TsIe) (endNs : Nat) : Entry × Nat :=
  let ofs := signed32 ((t.time : Int) - endNs / 1000)
  let c := BitVec.ofNat 32 (endNs / 1000000)
  let dc := (c - e.lastContact).toNat
  let pr : Int × Nat :=
    if !t.rb && e.state ≠ .joining && 1000 * s.rd Reg.SCH_DRIFT_MIN ≤ dc then
      let obs := roundDiv ((ofs - e.clkOfs.toInt) * 100000) dc
      let lim : Int := 500 * (e.dNode.toNat + 1)
      let pr := if lim < obs then (lim, 1) else if obs < -lim then (-lim, 1) else (obs, 0)
      let obs := pr.1
      let clip := pr.2
      (e.drift.toInt + roundDiv (obs - e.drift.toInt) (2 ^ s.rd Reg.SCH_DRIFT_K), clip)
    else (e.drift.toInt, 0)
  let drift := pr.1
  let clip := pr.2
  ({ e with drift := BitVec.ofInt 16 drift, clkOfs := BitVec.ofInt 32 ofs, lastContact := c, miss := 0 }, clip)

/-- A contact (R204, R205, R210, R216): the model is updated; a DRIFTED node returns to ACTIVE; a wheeled node is placed
anew. -/
def State.contact (s : State) (h : BitVec 18) (t : TsIe) (endNs : Nat) : State :=
  match s.entry h with
  | none => s
  | some e =>
    let pr := contactUpd s e t endNs
    let e' := pr.1
    let clip := pr.2
    let back := e.state = .drifted
    let s := s.updEntry h (fun _ => if back then { e' with state := .active } else e')
    let s := s.bumpN Reg.SCH_DRIFT_CLIP clip
    if back then
      let s := (s.bump Reg.SCH_RESYNC).schedRecord 3 { e' with state := .active } 0
      if e.qne then s.placeNode h else s
    else if e.wheeled then s.placeNode h
    else s

end Sys2Proof.Machine
end

