-- ==== Sys2Proof/Machine/Carafe.lean ====
section
/-!
DEFINITION. Node queues and the fate of their frames: anchors, enqueue, release, withdraw, the outcome of a try, the
dispatch of a head frame with its tests (R213, R214, R238 to R243, R246, R250, R259 to R264, R420, R421).
-/

namespace Sys2Proof.Machine

/-- Status codes (R414). -/
def stCOMPLETED : Byte := 1
def stALREADY : Byte := 2
def stABORTED : Byte := 3
def stBUSY : Byte := 4
def stREFUSED : Byte := 5
def stFULL : Byte := 6

/-- EPOCH_CUR (R316): the store's epoch while a network secret is held and usable. -/
def State.epochCur (s : State) : Byte := if s.rd Reg.KEY_KSTATE = 1 then s.aon.store.epoch else 0

/-- The anchors and QNE of a node queue (R259, R261). -/
def Queue.anchor (q : Queue) (e : Entry) : Entry :=
  let hd := (q.items.head?.bind (fun i => i.cells.head?)).getD 0
  let tl := (q.items.getLast?.bind (fun i => i.cells.getLast?)).getD 0
  if q.items.isEmpty then { e with qne := false }
  else { e with qne := true, qHead := BitVec.ofNat 16 hd, qTail := BitVec.ofNat 16 tl }

/-- Replace a node queue, and its anchors and QNE in one field update (R259, R261). While NTB is stopped the update waits
for a credit, and State.syncAnchors applies it (R16, R198). -/
def State.setNodeQ (s : State) (h : BitVec 18) (q : Queue) : State :=
  let s := { s with car.nodeQs := mset s.car.nodeQs h.toNat (if q.items.isEmpty then none else some q) }
  if s.runs .NTB then s.updEntry h (Queue.anchor q) else s

/-- The updates of the anchors that waited for NTB are applied (R16, R198). -/
def State.syncAnchors (s : State) : State :=
  s.ntb.slots.foldl (fun (s : State) (p : Nat × Slot) =>
    let h := p.2.entry.handle
    if Queue.anchor (s.nodeQ h) p.2.entry = p.2.entry then s else s.updEntry h (Queue.anchor (s.nodeQ h))) s

/-- Change item `i` of a node queue in place: the header fields the device writes (R256). -/
def State.updHdr (s : State) (h : BitVec 18) (i : Nat) (f : Hdr → Hdr) : State :=
  let q := s.nodeQ h
  let q' := { q with items := q.items.modify i (fun x => { x with hdr := x.hdr.map f }) }
  { s with car.nodeQs := mset s.car.nodeQs h.toNat (if q.items.isEmpty then none else some q') }

/-- Where a node's frame of a host sequence stands in its queue. -/
def Queue.find (q : Queue) (seq : BitVec 16) : Option Nat :=
  q.items.findIdx? (fun x => match x.hdr with | some h => h.seq = seq | none => false)

/-- ENQUEUE of a node downlink (R262): refused without an entry or out of order, discarded under its fence (R420). -/
def State.enqueueNode (s : State) (h : BitVec 18) (hdr : Hdr) (body : List Byte) : State :=
  let q := s.nodeQ h
  if s.fenced 0 0 h hdr.seq then (s.settle hdr stABORTED 8).bump Reg.SYS_FENCED_DL
  else
    let pr := s.access h 5
    let s := pr.2
    match pr.1 with
    | none => (s.settle hdr stABORTED 7).bump Reg.CAR_NO_ENTRY_TX
    | some (_, sl) =>
      match q.items.getLast?.bind (fun x => x.hdr) with
      | some last =>
        if later hdr.seq last.seq then
          let pr := s.takeCells (cellsOf body.length)
          let cells := pr.1
          let s := pr.2
          (s.setNodeQ h (Queue.push q (some hdr) body cells)).noteFree
        else (s.settle hdr stABORTED 6).bump Reg.CAR_SEQ_ORDER
      | none =>
        let pr := s.takeCells (cellsOf body.length)
        let cells := pr.1
        let s := pr.2
        let s := (s.setNodeQ h (Queue.push q (some hdr) body cells)).noteFree
        if sl.entry.qne then s else s.queueRose h

/-- The status a discarded frame takes: COMPLETED if one of its tries left, ABORTED if none did (R242). -/
def byTries (h : Hdr) : Byte := if 1 ≤ h.tries then stCOMPLETED else stABORTED

/-- The status of a host abort (R251). -/
def abortStatus (h : Hdr) : Byte := if 1 ≤ h.tries then stALREADY else stABORTED

/-- RELEASE or WITHDRAW of item `i` of a node queue with a final status (R260). -/
def State.releaseNode (s : State) (h : BitVec 18) (i : Nat) (status : Hdr → Byte) (reason : Byte) : State :=
  let q := s.nodeQ h
  match q.items[i]?.bind (fun x => x.hdr) with
  | none => s
  | some hd =>
    ((s.settle hd (status hd) reason).setNodeQ h (Queue.drop q i)).correctCells ((q.items[i]?.map (fun x => x.cells)).getD [])

/-- REWIND of a node queue (R260). -/
def State.rewind (s : State) (h : BitVec 18) : State :=
  let q := s.nodeQ h
  { s with car.nodeQs := mset s.car.nodeQs h.toNat (if q.items.isEmpty then none else some { q with read := q.mark }) }

/-- The part of a removed entry's queue that is dispatched: it waits for its outcome, to be released and not rewound
(R264). -/
def Queue.offered (q : Queue) : Queue :=
  { q with items := (q.items.take q.read).map (fun x => { x with hdr := x.hdr.map (fun hd => { hd with wd := true }) }) }

/-- Withdraw the frames of one orphaned queue that have not been offered, oldest first, with REASON REMOVED (R196,
R265). -/
def State.removeQueue (s : State) (q : Queue) : State :=
  ((q.items.drop q.read).filterMap (fun x => x.hdr)).foldl (fun (s : State) hd => s.settle hd (byTries hd) 5) s

/-- Withdraw every frame of handle `h` that no anchors reach (R196, R264, R265); a frame that is dispatched waits for its
outcome. Answers how many went. -/
def State.removeFrames (s : State) (h : BitVec 18) : Nat × State :=
  let mine := s.car.orphans.filter (fun p => p.1 = h)
  let s := mine.foldl (fun (s : State) p => s.removeQueue p.2) s
  let rest := s.car.orphans.filter (fun p => p.1 ≠ h)
  let kept := (mine.map (fun p => (p.1, Queue.offered p.2))).filter (fun p => !p.2.items.isEmpty)
  ((mine.map (fun p => p.2.items.length - p.2.read)).sum, { s with car.orphans := rest ++ kept })

/-- A dispatched frame of handle `h` stands in an orphaned queue: the queue and the frame's header (R264). -/
def State.orphanOf (s : State) (h : BitVec 18) (seq : BitVec 16) : Option (Queue × Hdr) :=
  (s.car.orphans.find? (fun p => p.1 = h && 1 ≤ p.2.read && (p.2.items.head?.bind (fun x => x.hdr)).any (fun hd =>
    hd.seq = seq))).bind (fun p => (p.2.items.head?.bind (fun x => x.hdr)).map (fun hd => (p.2, hd)))

/-- Replace an orphaned queue; an empty one goes. -/
def State.setOrphan (s : State) (q q' : Queue) : State :=
  { s with car.orphans := (s.car.orphans.map (fun p => if p.2 = q then (p.1, q') else p)).filter (fun p =>
      !p.2.items.isEmpty) }

/-- The outcome of a dispatched frame whose entry has been removed (R195, R241, R264): an acknowledgement releases it; under
a purge any other outcome does too; otherwise it is rewound and waits for a purge or the sweep of R279. -/
def State.orphanOutcome (s : State) (q : Queue) (hd : Hdr) (o : TryEnd) : State :=
  if o = .acked then (s.settle hd stCOMPLETED 0).setOrphan q (Queue.drop q 0)
  else if hd.wd then (s.settle hd (abortStatus hd) 4).setOrphan q (Queue.drop q 0)
  else if o = .epoch then ((s.settle hd (byTries hd) 3).setOrphan q (Queue.drop q 0)).bump Reg.SCH_DL_EPOCH
  else s.setOrphan q { q with read := q.mark }

/-- Change the header of a frame on its way, wherever its queue stands (R256). -/
def State.updFrame (s : State) (h : BitVec 18) (seq : BitVec 16) (f : Hdr → Hdr) : State :=
  match s.orphanOf h seq with
  | some (q, _) => s.setOrphan q { q with items := q.items.modify 0 (fun x => { x with hdr := x.hdr.map f }) }
  | none =>
    match Queue.find (s.nodeQ h) seq with
    | some i => s.updHdr h i f
    | none => s

/-- The frame's part of an outcome (R225, R241, R242, R264); `rep`: REPEAT as SCH read it at dispatch (R25). -/
def State.frameOutcome (s : State) (h : BitVec 18) (seq : BitVec 16) (rep : Nat) (o : TryEnd) : State :=
  match Queue.find (s.nodeQ h) seq with
  | none => s
  | some i =>
    match (s.nodeQ h).items[i]?.bind (fun x => x.hdr) with
    | none => s
    | some hd =>
      match o with
      | .acked => s.releaseNode h i (fun _ => stCOMPLETED) 0
      | .epoch =>
        (if hd.wd then s.releaseNode h i abortStatus 4 else s.releaseNode h i byTries 3).bump Reg.SCH_DL_EPOCH
      | .lost => if hd.wd then s.releaseNode h i abortStatus 4 else s.rewind h
      | .nak =>
        let s := s.updHdr h i (fun x => { x with naks := min 15 (x.naks + 1), sendMap := true })
        if hd.wd then s.releaseNode h i abortStatus 4
        else if hd.tries = 15 then (s.releaseNode h i (fun _ => stCOMPLETED) 1).bump Reg.SCH_DL_REPEAT
        else s.rewind h
      | .noAck =>
        if hd.wd then s.releaseNode h i abortStatus 4
        else if hd.tries = 15 || rep ≤ hd.tries - hd.naks then
          (s.releaseNode h i (fun _ => stCOMPLETED) 1).bump Reg.SCH_DL_REPEAT
        else s.rewind h
      | .never synth =>
        let s := s.updHdr h i (fun x => { x with skips := min 15 (x.skips + 1), smiss := x.smiss || synth })
        if hd.wd then s.releaseNode h i abortStatus 4
        else if hd.tries = 15 then (s.releaseNode h i (fun _ => stCOMPLETED) 1).bump Reg.SCH_DL_REPEAT
        else s.rewind h

/-- What follows a settled wake (R214): DRIFTED at three misses, else the next wake while the queue holds a frame. While
NTB is stopped the node waits for its entry (R16); a stopped SCH leaves it to its scan (R225). -/
def State.afterWake (s : State) (h : BitVec 18) : State :=
  if !s.runs .SCH then s
  else if !s.runs .NTB then
    if s.sch.placeQ.contains h then s else { s with sch.placeQ := s.sch.placeQ ++ [h] }
  else
  match s.entry h with
  | none => s
  | some e =>
    if e.state = .active && 3 ≤ e.miss.toNat then s.driftMiss e
    else if e.qne && e.state = .active then s.placeNode h
    else s

/-- Apply the outcome of a dispatched try (R214, R241) to the entry and to the queue. -/
def State.settleTry (s : State) (t : Try) (o : TryEnd) : State :=
  let s := match o with
    | .acked => (s.wrap Reg.SCH_DL_ACKED).updEntry t.handle (fun e => { e with miss := 0 })
    | .nak => (s.bump Reg.SCH_NAK_MAP).updEntry t.handle (fun e => { e with miss := 0 })
    | .noAck => (s.bump Reg.SCH_DL_NOACK).updEntry t.handle
        (fun e => { e with miss := BitVec.ofNat 4 (min 15 (e.miss.toNat + 1)) })
    | _ => s
  match s.orphanOf t.handle t.seq with
  | some (q, hd) => s.orphanOutcome q hd o
  | none => (s.frameOutcome t.handle t.seq t.rep o).afterWake t.handle

/-- A try acknowledged before its window ends leaves the window standing for the tests of R239. -/
def State.keepWindow (s : State) (t : Try) : State :=
  let tmo := s.rd Reg.SCH_ACK_TMO * 100000
  let w : AckWindow := { grp := t.grp, first := t.first, dur := t.dur }
  { s with sch.wins := s.sch.wins.filter (fun w => s.sys.timeNs ≤ w.first + w.dur + tmo) ++ [w] }

/-- A dispatched try ends (R214, R241). Its outcome waits for a credit while CAR or NTB is stopped (R16, R198, R279). -/
def State.tryEnd (s : State) (t : Try) (o : TryEnd) : State :=
  let s := { s with sch.tries := s.sch.tries.filter (fun x => x ≠ t) }
  let s := if o = .acked || o = .nak then s.keepWindow t else s
  if s.runs .CAR && s.runs .NTB then s.settleTry t o else { s with sch.held := s.sch.held ++ [(t, o)] }

/-- The outcomes that waited for CAR and NTB are applied, in their order (R16). -/
def State.flushHeld (s : State) : State :=
  if s.runs .CAR && s.runs .NTB && s.runs .SCH then
    s.sch.held.foldl (fun s p => s.settleTry p.1 p.2) { s with sch.held := [] }
  else s

/-- The outstanding try of a node's frame. -/
def State.tryOf (s : State) (h : BitVec 18) (seq : BitVec 16) : Option Try :=
  s.sch.tries.find? (fun t => t.kind = .dl && t.handle = h && t.seq = seq)

/-- A start beacon has been sent or missed (R221): after the last, BOOT_STAGE becomes RUNNING. -/
def State.startDone (s : State) (slot : Nat) : State :=
  let l := s.sys.startLeft.filter (fun x => x ≠ slot)
  let fin := s.sys.startLeft.contains slot && l.isEmpty
  let s := { s with sys.startLeft := l }
  if fin && s.rd Reg.SYS_BOOT_STAGE = 11 && !s.on Reg.TWN_TW_EN then s.wr Reg.SYS_BOOT_STAGE 0xD
  else if fin && s.rd Reg.SYS_BOOT_STAGE = 11 && s.rd Reg.TWN_TW_STATE = 2 then s.wr Reg.SYS_BOOT_STAGE 0xD
  else s

/-- A dispatched item that its group or KEY did not send (R94, R103, R111, R117, R213, R220, R249, R299): a node frame
ends as a try that never committed, a beacon counts as missed, a block stays at its head, an acknowledgement is
dropped. -/
def State.notSent (s : State) (f : TxItem) (synth : Bool) : State :=
  match f.kind with
  | .dl => match s.tryOf f.copy.handle f.seq with
    | some t => s.tryEnd t (.never synth)
    | none => s
  | .beacon =>
    let s := { s with sch.tries := s.sch.tries.filter (fun (t : Try) => !(t.kind = TxKind.beacon && t.idx = f.idx && t.first = f.first)) }
    let s := (s.bump Reg.SCH_BCN_MISS).ev Reg.SCH_SCH_EVT 3 80
    if f.start then s.startDone f.idx else s
  | .mc =>
    let s := { s with sch.tries := s.sch.tries.filter (fun (t : Try) => !(t.kind = TxKind.mc && t.idx = f.idx && t.first = f.first)) }
    let q := s.sysQ (0x18 + f.idx)
    (s.setSysQ (0x18 + f.idx) { q with read := q.mark }).bumpI Reg.SCH_MC_MISSED f.idx
  | .ack => { s with sch.acks := s.sch.acks.filter (fun a => a.id ≠ f.idx) }

/-- A secured item that fails the epoch test (R295). -/
def State.epochDrop (s : State) (f : TxItem) : State :=
  let s := s.bump Reg.KEY_EPOCH_DROP
  match f.kind with
  | .dl => match s.tryOf f.copy.handle f.seq with
    | some t => s.tryEnd t .epoch
    | none => s
  | _ => s.notSent f false

/-! ### Airtime and the dispatch of a node's head frame -/

/-- FCS length (R147). -/
def State.fcsLen (s : State) : Nat := if s.on Reg.PHY_FCS_TYPE then 4 else 2

/-- LENGTH of an item: body, the elements with their two-octet descriptors until KEY has put them into it, FCS (R145, R228). -/
def State.txLen (s : State) (f : TxItem) : Nat :=
  f.body.length + (if f.secured then 0 else (f.ies.map (fun e => e.2.length + 2)).sum) + s.fcsLen

/-- The map under which an item goes tone-loaded, if it does (R157). -/
def State.toneMap (s : State) (f : TxItem) : Option TMap :=
  if f.kind = .dl && f.copy.tl && 3 ≤ f.copy.nlp.toNat then
    match mget s.phy.tmaps f.copy.tmap.toNat with
    | some m => if m.valid && m.opt = f.copy.opt then some m else none
    | none => none
  else none

/-- Time on the air of an item, ns (R144, R153). -/
def State.airtime (s : State) (f : TxItem) : Nat :=
  match s.toneMap f with
  | some m => airNs (phrSyms f.copy.opt + tmhSyms f.copy.opt) (s.txLen f) (max 1 m.nDbps)
  | none => airNs (phrSyms f.copy.opt) (s.txLen f) (max 1 (nDbps f.copy.opt f.copy.mcs))

/-- Two closed intervals overlap. -/
def overlaps (a b c d : Int) : Bool := a ≤ d && c ≤ b

/-- End of the acknowledgement window after E, ns (R239). -/
def State.ackWin (s : State) : Nat := s.rd Reg.SCH_ACK_TMO * 100000

/-- The clash tests of R239 for a frame of a group with first symbol `first` and airtime `dur`. -/
def State.ackClash (s : State) (g : Grp) (first dur : Nat) : Bool :=
  let lo : Int := (first : Int) - 120000
  let e : Int := first + dur
  s.sch.wins.any (fun w => w.grp = g && overlaps lo (e + 120000) (w.first + w.dur + 120000)
    (w.first + w.dur + s.ackWin)) ||
  s.sch.tries.any (fun t =>
    let tlo : Int := (t.first : Int) - 120000
    let te : Int := t.first + t.dur
    t.grp = g && ((t.kind = .dl && overlaps lo (e + 120000) (te + 120000) (te + s.ackWin)) ||
      overlaps (e + 120000) (e + s.ackWin) tlo (te + 120000)))

/-- A session serves its group (R250). -/
def State.serves (s : State) (i : Nat) : Bool :=
  s.rdI Reg.SCH_MC_EN i = 1 && !(s.sysQ (0x18 + i)).items.isEmpty

/-- A block instant of session `i` lies within 10 ms of a mesh instant (R250). -/
def State.nearBlock (s : State) (i first : Nat) : Bool :=
  let d := (first / 1000000 + 2 ^ 32 - s.rdI Reg.SCH_MC_START i % 2 ^ 32) % 2 ^ 32
  let b := s.rdI Reg.SCH_MC_BINT i * 1000000
  if d < 2 ^ 31 then
    let r := (d * 1000000 + first % 1000000) % b
    r ≤ 10000000 || b - r ≤ 10000000
  else (2 ^ 32 - d) * 1000000 - first % 1000000 ≤ 10000000

/-- The clash test of R250 for a frame to a node. -/
def State.mcClash (s : State) (e : Entry) (first : Nat) : Bool :=
  2 ≤ e.nlp.toNat &&
    (List.range 8).any (fun i => s.serves i && s.rdI Reg.SCH_MC_GRPID i = e.mcGrp.toNat && s.nearBlock i first)

/-- A frame has expired before a mesh instant (R238, R243): the instant's mesh millisecond is later than EXPIRY in the
comparison of R256 (log entry 91). -/
def expired (hd : Hdr) (first : Nat) : Bool :=
  let d := (BitVec.ofNat 32 (first / 1000000) - hd.expiry).toNat
  1 ≤ d && d < 2 ^ 31

/-- Discard the expired frames at the head of a queue (R238, step 1). -/
def State.dropExpired (s : State) (h : BitVec 18) (first n : Nat) : State :=
  match n with
  | 0 => s
  | n + 1 =>
    match (s.nodeQ h).items.head?.bind (fun x => x.hdr) with
    | some hd =>
      if expired hd first then ((s.releaseNode h 0 byTries 2).bump Reg.SCH_DL_EXPIRED).dropExpired h first n else s
    | none => s

/-- The element with RB_REQ that R238 inserts, if the predicted offset at Δ = `d` asks for it. -/
def rbElement (e : Entry) (d : Nat) : Option (List Byte) :=
  let o := e.clkOfs.toInt + roundDiv (e.drift.toInt * d) 100000
  if 1000000 < o.natAbs then
    some ([BitVec.ofNat 8 (1 + 8 * e.nlp.toNat)] ++ leBytes 2 (e.fcntUl.toNat % 65536) ++
      leBytes 4 (BitVec.ofInt 32 o).toNat)
  else none

/-- The tone-map element of R246. -/
def mapElement (idx : BitVec 12) (m : TMap) : List Byte :=
  leBytes 2 (idx.toNat + m.opt.toNat * 4096 + b2n m.rate * 16384) ++ [m.digest, 0] ++ codeBytes m.codes

/-- The item SCH builds for the head frame of a node (R212, R238, R246, R273). -/
def State.buildDl (s : State) (e : Entry) (hd : Hdr) (body : List Byte) (first delta : Nat) (dsn : Byte) : TxItem :=
  let c := e.copy dsn 0
  let c := if hd.ovr then { c with chan := hd.ochan, opt := hd.oopt, mcs := hd.omcs, tl := false } else c
  let c := if hd.tlpol ≠ 0 then { c with tl := false } else c
  let m := (mget s.phy.tmaps c.tmap.toNat).getD TMap.zero
  let rb := (rbElement e delta).toList.map (fun b => (s.rd Reg.SCH_IE_ACK_ID, b))
  let fits := body.length + (rb.map (fun x => x.2.length + 2)).sum + 42 + s.fcsLen ≤ 2047
  let send := hd.sendMap && fits && 3 ≤ c.nlp.toNat
  { kind := .dl, grp := s.chanGrp c.chan, copy := if hd.sendMap then { c with tl := false } else c, eui := e.eui, seq := hd.seq,
    idx := 0, gid := 0, epoch := s.epochCur, prio := hd.prio, first := first, dur := 0, fence := false,
    host := true, secured := false, ready := false, start := false,
    ies := rb ++ (if send then [(s.rd Reg.SCH_IE_MAP_ID, mapElement c.tmap m)] else []), own := 0, body := body,
    level := 0, key := none, ppdu := none, phase := .waiting }

/-- An item enters a channel that holds others (R22, R23): before those of lower PRIO that wait there, but behind every
one of its own stream. -/
def txInsert (f : TxItem) : List TxItem → List TxItem
  | [] => [f]
  | x :: t =>
    let same := fun (y : TxItem) => y.kind = f.kind && y.copy.handle = f.copy.handle && y.idx = f.idx
    if x.prio < f.prio && !(x :: t).any same then f :: x :: t else x :: txInsert f t

/-- SCH sends an item toward KEY (R22). -/
def State.sendKey (s : State) (f : TxItem) : State := { s with key.tx := txInsert f s.key.tx }

/-- Offer the head frame of a node for a first symbol at `first` and dispatch it (R238, R212, R247); `delta`: Δ of its
wake. A channel that is not
live names no group, and the wake ends as never committed (log entry 87). -/
def State.offerHead (s : State) (h : BitVec 18) (first delta : Nat) (opp : Bool) : State :=
  let s := s.dropExpired h first (s.nodeQ h).items.length
  match s.entry h, (s.nodeQ h).items.head? with
  | some e, some it =>
    match it.hdr with
    | none => s
    | some hd =>
      let dsn := if hd.tries = 0 then e.dsnDl else hd.dsn
      let f := s.buildDl e hd it.body first delta dsn
      let f := { f with dur := s.airtime f }
      if !s.chanLive f.copy.chan then s.placeAfter h (first / 1000)
      else if s.ackClash f.grp first f.dur then (s.bump Reg.SCH_ACK_CLASH).placeAfter h (first / 1000)
      else if s.mcClash e first then (s.bump Reg.SCH_MC_CLASH).placeAfter h (first / 1000)
      else
        let s := if hd.tries = 0 then s.updEntry h (fun e => { e with dsnDl := e.dsnDl + 1 }) else s
        let s := s.updHdr h 0 (fun x => { x with dsn := dsn })
        let q := s.nodeQ h
        let s := ({ s with car.nodeQs := mput s.car.nodeQs h.toNat { q with mark := 0, read := 1 } }).correctCells it.cells
        let t : Try := { kind := .dl, grp := f.grp, handle := h, seq := hd.seq, dsn := dsn, chan := f.copy.chan, idx := 0,
                         first := first, dur := f.dur, committed := false, start := false, opp := opp,
                         rep := e.repeatLim.toNat }
        ({ s with sch.tries := s.sch.tries ++ [t] }).sendKey f
  | _, _ => s

end Sys2Proof.Machine
end

