-- ==== Sys2Proof/Machine/Gate.lean ====
section
/-!
DEFINITION. The way of a host access to its register (R28, R34, R59, R85, R421, R422, R462): which writes HST completes,
discards, counts, numbers and fences.
-/

namespace Sys2Proof.Machine

/-- The effective BOOT_MODE 0b10, in TEST or RMA (R57). -/
def State.testMode (s : State) : Bool :=
  s.rd Reg.SYS_BOOT_MODE = 2 && (s.rd Reg.SYS_LC_STATE = 1 || s.rd Reg.SYS_LC_STATE = 4)

/-- The test halt of R449: stage 3 has ended with BOOT_MODE 0b10 in TEST or RMA. -/
def State.testHalt (s : State) : Bool := s.rd Reg.SYS_BOOT_STAGE = 3 && s.testMode

/-- The halted state lasts until PORST_N (R79, R449). The spec does not say whether the test halt is a halted state of R79; it is
one here, so that ALERT_N is released in it and a clock loss and 135 °C end nothing (log entry 49, DESIGN CHOICE). -/
def State.halted (s : State) : Bool := s.rd Reg.SYS_BOOT_STAGE = 0xF || s.testHalt

/-- HST meets a host write of some bytes to island `isl`, each of which takes a number (R421): whether it takes effect,
and the state with its number taken or its discard recorded. With the link down no access completes (R462); before SEAL a
write is dropped and counted (R85); under a register fence it is discarded (R421). A write to a stopped island is
discarded and fences the register-write stream at its number (R34, R419): every later write waits behind it (R28) and is
discarded with it. -/
def State.hostGate (s : State) (isl : Isl) (bytes : Nat := 1) : Bool × State :=
  if !s.sys.linkUp then (false, s)
  else if !s.live then (false, s.bumpN Reg.SYS_HOSTWR_DROP bytes)
  else if s.on Reg.SYS_REGW_FENCED then (false, s.bumpN Reg.SYS_FENCED_OTHER bytes)
  else if s.runs isl && s.runs .HST then (true, { s with sys.regW := s.sys.regW + BitVec.ofNat 16 bytes })
  else
    (false, ((s.wr Reg.SYS_REGW_FENCED 1).wr Reg.SYS_REGW_RESUME s.sys.regW.toNat).bumpN Reg.SYS_FENCED_OTHER bytes)

/-- A command whose trigger is a host write to island `isl`, with the effect `f` of that write. -/
def State.hostOp (s : State) (isl : Isl) (f : State → State) (bytes : Nat := 1) : State :=
  let pr := s.hostGate isl bytes
  if pr.1 then f pr.2 else pr.2

/-- Whether a host read of island `isl` reaches it: the link is up and the island runs, and a halted device serves SYS
alone; every other read completes with 0x00 (R34, R79). -/
def State.hostReads (s : State) (isl : Isl) : Bool :=
  s.sys.linkUp && s.runs isl && s.runs .HST && (!s.halted || isl = .SYS)

/-- A read that no island serves completes with 0x00 (R34, R79); with the link down it does not complete (R462). -/
def State.readZero (s : State) : State := if s.sys.linkUp then { s with hostData := 0 } else s

end Sys2Proof.Machine
end

