-- ==== Sys2Proof/Machine/FrontOps.lean ====
section
/-!
DEFINITION. The shared operations of a front-end group: receivers live or deaf, lanes aborted, bursts and their frames,
composite slots, cuts, the levels of its pins (R89 to R118).
-/

namespace Sys2Proof.Machine

/-- The turn-round in each direction, ns (R96). -/
def turnNs : Nat := 120000

/-- Nothing holds the device in reset. -/
def State.up (s : State) : Bool := s.sys.hold = .none

/-- The radios may leave the state they have in reset: not before stage 8, not in the halted state, not in service mode (R79, R80,
R88). -/
def State.radioOn (s : State) : Bool := s.up && s.live && !s.halted && s.rd Reg.SYS_BOOT_STAGE ≠ 0xE

/-- The group is enabled and did not fail at stage 9, and the radios are in use (R79, R80, R89, R95; log entry 21). -/
def State.usable (s : State) (g : Grp) : Bool := s.radioOn && s.on (Reg.FE_GRP_EN g) && (s.rd Reg.SYS_CAP_BANDS).testBit g.code

/-- The synthesiser is LOCKED (R90). -/
def State.locked (s : State) (g : Grp) : Bool := s.usable g && s.rd (Reg.FE_SYN_STATE g) = 3

/-- A forced calibration is due (R92, R93). -/
def State.calForced (s : State) (g : Grp) : Bool :=
  match (s.fe g).cal with
  | some c => c.forced
  | none => false

/-- The receivers of a group are live (R97): outside bursts, in LOCKED, with the island running, and no forced
calibration due (R93). -/
def State.rxLive (s : State) (g : Grp) : Bool :=
  s.sys.hold = .none && s.runs g.isl && s.locked g && (s.fe g).burst.isNone && !s.calForced g

/-- Abort the lanes that `p` names, each counted in `f` (R98, R124, R135, R138). -/
def State.abortLanes (s : State) (p : Nat × Lane → Bool) (f : Fld) : State :=
  let s' := { s with grn.lanes := s.grn.lanes.filter (fun l => !p l) }
  s'.bumpN f (s.grn.lanes.filter p).length

/-- Abort every lane that a group feeds (R93, R98). -/
def State.abortGrp (s : State) (g : Grp) (f : Fld) : State := s.abortLanes (fun l => s.chanGrp l.2.ent = g) f

/-- Change the burst under way. -/
def State.updBurst (s : State) (g : Grp) (f : Burst → Burst) : State :=
  s.setFe g { s.fe g with burst := (s.fe g).burst.map f }

/-- The frame with the earliest first symbol among those that `p` names. -/
def earliest (l : List TxItem) (p : TxItem → Bool) : Option TxItem :=
  l.foldl (fun r x =>
    if p x then
      match r with
      | some y => if x.first < y.first then some x else r
      | none => some x
    else r) none

/-- E of a burst (R100, R101): the latest last-symbol end of the frames it has not lost; T when it has lost all. -/
def Burst.calcE (b : Burst) : Nat :=
  if b.search.isSome then b.e
  else b.frames.foldl (fun m f => max m (f.first + f.dur)) (if b.frames.isEmpty then b.first else 0)

/-- Replace the frames of a burst; E follows. -/
def Burst.setFrames (b : Burst) (l : List TxItem) : Burst :=
  let b := { b with frames := l }
  { b with e := b.calcE }

/-- Set the phase of a frame of the burst. -/
def State.setPhase (s : State) (g : Grp) (f : TxItem) (p : Phase) : State :=
  s.updBurst g (fun b => b.setFrames (b.frames.map (fun x => if x = f then { x with phase := p } else x)))

/-- The lowest return-loss window of a burst that has met no mismatch: a free value at the threshold or above (R112,
R119, log entry 1). -/
def State.freeRl (s : State) (g : Grp) : Nat := max (4 * s.rd (Reg.FE_RL_THR g)) (s.freeVal 8)

/-- E of a burst has come: every frame that it has not lost is past its end. RL_MEAS of its port holds the lowest window
(R112). A burst that lost every frame had no window. -/
def State.noteRl (s : State) (g : Grp) : State :=
  match (s.fe g).burst with
  | some b =>
    match b.port with
    | some p =>
      if b.search.isNone && !b.frames.isEmpty && b.frames.all (fun f => f.phase = .ended) then
        (s.wrI (Reg.FE_RL_MEAS g) p (s.freeRl g)).tick
      else s
    | none => s
  | none => s

/-- A burst without a frame; PA_EN stays low if it had not risen (R100, R101). -/
def Burst.without (b : Burst) (f : TxItem) (now : Nat) : Burst :=
  let b := b.setFrames (b.frames.erase f)
  if b.paOn.any (fun t => now < t) && b.search.isNone && !b.frames.any (fun x => x.phase = .checked || x.phase = .onAir) then
    { b with paOn := none }
  else b

/-- A frame of the burst, or one that waits for a burst, is not sent and not released: counted in `c`, and reported to
SCH (R94, R103, R111, R117). -/
def State.lose (s : State) (g : Grp) (f : TxItem) (c : Option Fld) (synth : Bool) : State :=
  let was := match (s.fe g).burst with
    | some b => b.frames.contains f
    | none => false
  let s := s.updBurst g (fun b => b.without f s.sys.timeNs)
  let s := if was then s.noteRl g else s
  let s := s.setFe g { s.fe g with wait := (s.fe g).wait.erase f }
  let s := match c with
    | some c => s.bump c
    | none => s
  s.notSent f synth

/-- R99: a frame joins the burst if its turn-round would begin before the burst's would end. -/
def Burst.joins (b : Burst) (f : TxItem) : Bool := f.first < b.e + 2 * turnNs

/-- The port of a burst that carries frames (R111). -/
def State.choosePort (s : State) (g : Grp) : Option Nat :=
  let ok := fun n =>
    (s.fe g).txEn.getLsbD n && !(s.rd (Reg.FE_PORT_MM g)).testBit n && !(s.rd (Reg.FE_PORT_FAULT g)).testBit n
  let p := s.rd (Reg.FE_TX_PORT g)
  let a := s.rd (Reg.FE_TX_ALT g)
  if ok p then some p else if s.on (Reg.FE_ALT_EN g) && ok a then some a else none

/-- The codes that the registers give the tuners of a group (R109, R115). -/
def State.tunerCodes (s : State) (g : Grp) : List (Nat × Nat) :=
  (List.range 4).map (fun p => (s.rdI (Reg.FE_TUNE_SER g) p, s.rdI (Reg.FE_TUNE_SHT g) p))

/-- A burst begins (R96, R100, R109): its values are held, its codes go into the tuners, BURSTS counts it, the receivers go
deaf. REQ that has risen for it stays up (R116). -/
def State.beginBurst (s : State) (g : Grp) (first : Nat) (port search : Option Nat) (e : Nat) (frames : List TxItem) :
    State :=
  let ramp := s.rd (Reg.FE_RAMP g) * 1000
  let lead := s.rd (Reg.FE_PA_LEAD g) * 1000
  let b : Burst := {
    first := first, e := e, port := port, frames := frames, search := search,
    paOn := if search.isSome then some (first - ramp - lead) else none,
    trOn := first - 100000, drvOn := first - 60000, req := decide ((s.fe g).req = some first), ramp := ramp, lead := lead, lag := s.rd (Reg.FE_PA_LAG g) * 1000,
    pwr := match port with
      | some p => s.rdI (Reg.FE_TX_PWR g) p
      | none => 0,
    aux := (List.range 4).map (s.rdI (Reg.FE_FEM_AUX g)), allow := s.on (Reg.FE_TX_ALLOW g) }
  let s := (s.wrap (Reg.FE_BURSTS g)).abortGrp g (Reg.FE_BLANK_LOSS g)
  s.setFe g { s.fe g with
    burst := some { b with e := b.calcE }, wait := (s.fe g).wait.filter (fun x => !frames.contains x),
    req := if (s.fe g).req = some first then none else (s.fe g).req, tuner := s.tunerCodes g }

/-- A frame joins the burst under way (R99, R100): E moves, tail events that have occurred are undone. A burst without a
usable port carries none (R111, R113). -/
def State.joinBurst (s : State) (g : Grp) (f : TxItem) : State :=
  match (s.fe g).burst with
  | none => s
  | some b =>
    let s := s.setFe g { s.fe g with wait := (s.fe g).wait.erase f }
    let dead := match b.port with
      | some p => b.search.isNone && (s.rd (Reg.FE_PORT_MM g)).testBit p
      | none => true
    if dead then s.lose g f (some (Reg.FE_TX_NOPORT g)) false
    else
      let now := s.sys.timeNs
      let b := if b.e + b.ramp + b.lag ≤ now then { b with paOn := none } else b
      let b := if b.e + 80000 ≤ now then
          { b with trOn := max now (f.first - 100000), drvOn := max now (f.first - 60000) }
        else b
      s.updBurst g (fun _ => b.setFrames (b.frames ++ [{ f with phase := .joined }]))

/-- Waiting frames that a burst beginning or growing takes in, earliest first (R100). -/
def State.joinWaiting (s : State) (g : Grp) (n : Nat) : State :=
  match n with
  | 0 => s
  | n + 1 =>
    match (s.fe g).burst, earliest (s.fe g).wait (fun _ => true) with
    | some b, some f => if b.joins f then (s.joinBurst g f).joinWaiting g n else s
    | _, _ => s

/-- A frame's first symbol leaves: its commit point (R100). TRIES of a node frame rises (R241); a beacon counts as sent
(R220); a block is released with REASON SENT (R249, R268). -/
def State.commitFrame (s : State) (f : TxItem) : State :=
  match f.kind with
  | .dl =>
    let s : State := { s with sch.tries := s.sch.tries.map (fun (t : Try) =>
      if t.kind = .dl && t.handle = f.copy.handle && t.seq = f.seq then { t with committed := true } else t) }
    let s := if f.ies.any (fun b => b.2.length = 40) then s.bump Reg.SCH_MAP_SENT else s
    s.updFrame f.copy.handle f.seq (fun h => { h with tries := min 15 (h.tries + 1) })
  | .beacon =>
    let s := s.bump Reg.SCH_BCN_SENT
    if f.start then s.startDone f.idx else s
  | .mc =>
    let q := 0x18 + f.idx
    match (s.sysQ q).items.head? with
    | none => s
    | some it =>
      let s := match it.hdr with
        | some h => s.settle { h with tries := 1 } stCOMPLETED 9
        | none => s
      let s := (s.releaseSys q).bumpI Reg.SCH_MC_SENT f.idx
      if (s.sysQ q).items.isEmpty then (s.ev Reg.SCH_MC_DONE_MAP f.idx 96).ev Reg.SCH_AX_EVT 3 88 else s
  | .ack => { s with sch.acks := s.sch.acks.filter (fun a => a.id ≠ f.idx) }

/-- A beacon or block has left the air: it is dispatched no longer (R239). -/
def State.offAir (s : State) (f : TxItem) : State :=
  match f.kind with
  | .beacon | .mc =>
    { s with sch.tries := s.sch.tries.filter (fun (t : Try) => !(t.kind = f.kind && t.idx = f.idx && t.first = f.first)) }
  | _ => s

/-- The time on the air of a node frame as it turns out: SCH reckons E from it (R239). -/
def State.tryDur (s : State) (f : TxItem) (dur : Nat) : State :=
  if f.kind = .dl then
    { s with sch.tries := s.sch.tries.map (fun t =>
      if t.kind = .dl && t.handle = f.copy.handle && t.seq = f.seq then { t with dur := dur } else t) }
  else s

/-- Truncate the frames on the air: ramped down at once, counted in TX_TRUNC (R95, R113, R117, R118). The ramp-down of one cut in its
ramp begins at once as well. -/
def State.truncate (s : State) (g : Grp) : State :=
  match (s.fe g).burst with
  | none => s
  | some b =>
    let now := s.sys.timeNs
    let air := b.frames.filter (fun f => f.phase = .onAir)
    let s := s.updBurst g (fun b => b.setFrames (b.frames.map (fun f =>
      if f.phase = .onAir then { f with phase := .ended, first := min f.first now, dur := now - f.first } else f)))
    (air.foldl (fun s f => (s.offAir f).tryDur f (now - f.first)) s).bumpN (Reg.FE_TX_TRUNC g) air.length

/-- The frames of the burst that have not started: one in its ramp, whose first symbol has not left, is among them at a loss of
lock too, which R95 does not say (log entry 108, DESIGN CHOICE). -/
def Burst.unstarted (b : Burst) : List TxItem :=
  b.frames.filter (fun f => f.phase ≠ .onAir && f.phase ≠ .ended)

/-- End a burst early (R95, R113, R117): the frames on the air are truncated, the rest are not sent. -/
def State.cutBurst (s : State) (g : Grp) (c : Fld) (synth : Bool) : State :=
  let s := s.truncate g
  match (s.fe g).burst with
  | none => s
  | some b => (b.unstarted.foldl (fun s f => s.lose g f (some c) synth) s).noteRl g

/-- GRANT, or the hold on XLOCK (R106), falls (R117). The tone of a tuner search is no frame: what a fall after its check does to it
R114 does not say, and the search runs on, its pins gated by XLOCK (log entry 100, DESIGN CHOICE). -/
def State.grantFell (s : State) (g : Grp) : State :=
  match (s.fe g).burst with
  | none => s
  | some b =>
    if b.frames.any (fun f => f.phase = .onAir) then s.cutBurst g (Reg.FE_TX_ABANDON g) false
    else (b.frames.filter (fun f => f.phase = .checked)).foldl
      (fun s f => s.lose g f (some (Reg.FE_TX_ABANDON g)) false) s

/-- IN_FLIGHT of a tone map falls as a frame that names it leaves PHY; an AUTO map that nothing uses any more becomes
free (R162); one that a proposal has just taken and whose table write is to come is in use (log entry 24). -/
def State.mapLeave (s : State) (f : TxItem) : State :=
  if f.kind = .dl && f.copy.tl then
    match mget s.phy.tmaps f.copy.tmap.toNat with
    | none => s
    | some m =>
      let m := { m with inFlight := m.inFlight - 1 }
      let m := { m with valid := m.valid && !(m.auto && m.users = 0 && m.inFlight = 0 && !s.mapPromised f.copy.tmap.toNat) }
      { s with phy.tmaps := mset s.phy.tmaps f.copy.tmap.toNat (if m = TMap.zero then none else some m) }
  else s

/-- IN_FLIGHT rises as a frame that names a map reaches PHY (R162). -/
def State.mapEnter (s : State) (f : TxItem) : State :=
  if f.kind = .dl && f.copy.tl then
    let m := (mget s.phy.tmaps f.copy.tmap.toNat).getD TMap.zero
    { s with phy.tmaps := mput s.phy.tmaps f.copy.tmap.toNat { m with inFlight := m.inFlight + 1 } }
  else s

/-- Withdraw items from wherever they stand between SCH and the air, frames on the air and past it apart (R224, R251,
R420). -/
def State.pullItems (s : State) (p : TxItem → Bool) : State :=
  let s := (s.phy.tx.filter p).foldl State.mapLeave s
  let s := { s with key.tx := s.key.tx.filter (fun f => !p f), phy.tx := s.phy.tx.filter (fun f => !p f) }
  allGrps.foldl (fun s g =>
    let x := s.fe g
    let s := s.setFe g { x with arrive := x.arrive.filter (fun f => !p f), wait := x.wait.filter (fun f => !p f) }
    s.updBurst g (fun b => b.setFrames (b.frames.filter (fun f => !(p f && f.phase ≠ .onAir && f.phase ≠ .ended))))) s

/-- An acknowledgement that KEY or PHY drops leaves its group's burst as well (R104, R237). -/
def State.undeclare (s : State) (f : TxItem) : State :=
  if f.kind = .ack then s.pullItems (fun x => x.kind = TxKind.ack && x.idx = f.idx) else s

/-! ### Composite slots (R102, R103) -/

/-- The frames that hold a slot at some instant of the interval from `lo` up to `hi`. -/
def holders (l : List TxItem) (ramp lo hi : Nat) : List TxItem :=
  l.filter (fun f => (f.phase = .checked || f.phase = .onAir || f.phase = .ended) && f.first - ramp < hi &&
    lo < f.first + f.dur + ramp)

/-- Insert into a rising list. -/
def sortIn (x : Nat) (l : List Nat) : List Nat :=
  match l with
  | [] => [x]
  | y :: t => if x ≤ y then x :: y :: t else y :: sortIn x t

/-- The holders at the earliest instant of the interval at which they are `n` or more: a slot is lacking there. -/
def lacking (l : List TxItem) (n ramp lo : Nat) : Option (List TxItem) :=
  let starts := (l.map (fun f => f.first - ramp)).filter (fun p => lo < p)
  let at_ := fun p => l.filter (fun f => f.first - ramp ≤ p && p < f.first + f.dur + ramp)
  ((lo :: starts.foldr sortIn []).find? (fun p => n ≤ (at_ p).length)).map at_

/-- Composite slots of a group (R102). -/
def State.slots (s : State) (g : Grp) : Nat := if s.on (Reg.FE_COMPOSITE g) then 4 else 1

/-- Displace frames for an acknowledgement while a slot is lacking: the latest first symbol among those not yet on the
air goes first (R103). -/
def State.displace (s : State) (g : Grp) (lo hi n : Nat) : State :=
  match n with
  | 0 => s
  | n + 1 =>
    match (s.fe g).burst with
    | none => s
    | some b =>
      match lacking (holders b.frames b.ramp lo hi) (s.slots g) b.ramp lo with
      | none => s
      | some l =>
        let late := l.foldl (fun (r : Option TxItem) x =>
          if x.phase ≠ .checked then r
          else match r with
            | some y => if y.first < x.first then some x else r
            | none => some x) none
        match late with
        | some f => (s.lose g f (some (Reg.FE_TX_DISPLACED g)) false).displace g lo hi n
        | none => s

/-- Find a composite slot for a frame at its GRANT check, and whether it has one (R103). An acknowledgement displaces
frames whose first symbol has not left. -/
def State.takeSlot (s : State) (g : Grp) (b : Burst) (f : TxItem) : Bool × State :=
  let lo := f.first - b.ramp
  let hi := f.first + f.dur + b.ramp
  let h := holders b.frames b.ramp lo hi
  if f.kind ≠ .ack then
    if h.any (fun x => x.copy.chan = f.copy.chan) || (lacking h (s.slots g) b.ramp lo).isSome then
      (false, s.lose g f (some (Reg.FE_TX_DISPLACED g)) false)
    else (true, s)
  else
    let gone := h.filter (fun x => x.phase ≠ .checked)
    if gone.any (fun x => x.copy.chan = f.copy.chan) || (lacking gone (s.slots g) b.ramp lo).isSome then
      (false, s.lose g f (some (Reg.FE_ACK_NOSLOT g)) false)
    else
      let same := h.filter (fun x => x.phase = .checked && x.copy.chan = f.copy.chan)
      let s := same.foldl (fun s x => s.lose g x (some (Reg.FE_TX_DISPLACED g)) false) s
      (true, s.displace g lo hi b.frames.length)

/-! ### Pins (R105, R100, R116) -/

/-- GRANT as the group takes it (R116). -/
def State.grantHigh (s : State) (g : Grp) : Bool := !s.on (Reg.FE_COEX_EN g) || (s.fe g).grant

/-- A burst that has lost every frame, or its tone (R101). -/
def Burst.emptied (b : Burst) : Bool := b.frames.isEmpty && (b.search.isNone || b.e = b.first)

/-- The waiting frames of the burst that is to come, in the order of their first symbols: each falls less than 240 µs after the one
before (R99). -/
def State.nextFrames (s : State) (g : Grp) : List TxItem :=
  let l := (s.fe g).wait
  match earliest l (fun _ => true) with
  | none => []
  | some f => l.foldl (fun (r : List TxItem) _ =>
      let e := r.foldl (fun (m : Nat) x => max m (x.first + x.dur)) 0
      r ++ l.filter (fun x => !r.contains x && x.first < e + 2 * turnNs)) [f]

/-- REQ is high for the burst under way: from its rise to E + RAMP, or to T in a burst that has lost every frame (R101, R116). -/
def State.reqNow (s : State) (g : Grp) : Bool :=
  match (s.fe g).burst with
  | some b => b.req && s.sys.timeNs < (if b.emptied then b.first else b.e + b.ramp)
  | none => false

/-- REQ has risen for the burst that is to come (R116). -/
def State.reqNext (s : State) (g : Grp) : Bool :=
  match (s.fe g).req, earliest (s.fe g).wait (fun _ => true) with
  | some t, some f => f.first = t
  | _, _ => false

/-- The level of REQ (R116). -/
def State.reqPin (s : State) (g : Grp) : Bool := s.up && s.on (Reg.FE_COEX_EN g) && (s.reqNow g || s.reqNext g)

/-- The level of PRIO (R116). -/
def State.prioPin (s : State) (g : Grp) : Bool :=
  let thr := fun (f : TxItem) => s.rd (Reg.FE_PRIO_THR g) ≤ f.prio
  s.reqPin g && ((s.reqNow g && match (s.fe g).burst with
      | some b => b.frames.any thr
      | none => false) || (s.reqNext g && (s.nextFrames g).any thr))

/-- Port `n` is the transmit port of the burst under way, and this unit holds XLOCK (R105, R106). -/
def State.txPort (s : State) (g : Grp) (n : Nat) : Option Burst :=
  match (s.fe g).burst with
  | some b => if s.up && s.holds && b.port = some n then some b else none
  | none => none

/-- The level of PA_EN (R100, R101, R106). -/
def State.paEn (s : State) (g : Grp) (n : Nat) : Bool :=
  match s.txPort g n with
  | some b => b.paOn.any (fun t => t ≤ s.sys.timeNs) && s.sys.timeNs < b.e + b.ramp + b.lag
  | none => false

/-- The level of TR_SW (R100, R106). -/
def State.trSw (s : State) (g : Grp) (n : Nat) : Bool :=
  match s.txPort g n with
  | some b => b.trOn ≤ s.sys.timeNs && s.sys.timeNs < b.e + 80000
  | none => false

/-- DAC and driver of a port are enabled (R100, R106). -/
def State.driverOn (s : State) (g : Grp) (n : Nat) : Bool :=
  match s.txPort g n with
  | some b => b.drvOn ≤ s.sys.timeNs && s.sys.timeNs < b.e + 80000
  | none => false

/-- The level of LNA_EN (R100, R105). -/
def State.lnaEn (s : State) (g : Grp) (n : Nat) : Bool :=
  (s.fe g).rxEn.getLsbD n &&
    match (s.fe g).burst with
    | none => s.rxLive g
    | some b => s.up && b.e + 90000 ≤ s.sys.timeNs && s.runs g.isl && s.locked g && !s.calForced g

/-- The level of AUX: FEM_AUX bit 0, and bit 1 during a burst (R105, R109). In the states in which the radios stay as in reset it
is low (R37, R79, R80, R88). -/
def State.auxPin (s : State) (g : Grp) (n : Nat) : Bool :=
  s.radioOn &&
    match (s.fe g).burst with
    | none => (s.rdI (Reg.FE_FEM_AUX g) n).testBit 0
    | some b => (b.aux.getD n 0).testBit 1

/-- The level of the FEM control pins of port `n` at the present instant, PA_EN, TR_SW, LNA_EN, AUX (R37, R105). -/
def State.femPins (s : State) (g : Grp) (n : Nat) : Bool × Bool × Bool × Bool :=
  (s.paEn g n, s.trSw g n, s.lnaEn g n, s.auxPin g n)

/-- The power of a frame at the ball of the transmit port, 0.5 dB units: TX_PWR as the burst began with it, 6.0 dB less in a group
that may carry more than one (R102, R108, R109). -/
def State.framePower (s : State) (g : Grp) (b : Burst) : Int :=
  (BitVec.ofNat 8 b.pwr).toInt - if s.on (Reg.FE_COMPOSITE g) then 12 else 0

/-- What leaves the transmit ball of port `n`: the power of each frame there from its S to the end of its ramp-down, and the tone
of a tuner search at −10 dBm (R100, R102, R106, R107, R114). Empty: no output, the ball terminated (R37). -/
def State.rfOut (s : State) (g : Grp) (n : Nat) : List Int :=
  let t := s.sys.timeNs
  match s.txPort g n with
  | some b =>
    if !s.driverOn g n then []
    else if b.search.isSome then (if b.first - b.ramp ≤ t && t < b.e + b.ramp then [-20] else [])
    else (b.frames.filter (fun f => (f.phase = .checked || f.phase = .onAir || f.phase = .ended) &&
        f.first - b.ramp ≤ t && t < f.first + f.dur + b.ramp)).map (fun _ => s.framePower g b)
  | none => []

end Sys2Proof.Machine
end

