-- ==== Sys2Proof/Machine/Ofdm.lean ====
section
/-!
DEFINITION. The OFDM modem on bits and constellation points (R141 to R156, R461): parameters of options and MCS, frame
checks, scrambler, convolutional code with its decoder, interleavers, mappings, the PPDU. What the manual takes from
IEEE 802.15.4-2020 without stating it is log entry 98, PRESUMED.
-/

namespace Sys2Proof.Machine

/-! ### Options and MCS (R141, R142) -/

/-- FFT size of an option (R141). -/
def fftSize (opt : BitVec 2) : Nat := 128 / 2 ^ opt.toNat

/-- Pilot tones of an option (R141). -/
def pilotTones (opt : BitVec 2) : Nat :=
  match opt.toNat with
  | 0 => 8
  | 1 => 4
  | _ => 2

/-- Nominal bandwidth in thirds of a hertz: (active tones + 1) × 10,416⅔ Hz (R141). -/
def bandwidth3 (opt : BitVec 2) : Nat := (dataTones opt + pilotTones opt + 1) * 31250

/-- Sample rate in thirds of a sample a second: one FFT every 96 µs of the 120 µs symbol (R141). -/
def sampleRate3 (opt : BitVec 2) : Nat := fftSize opt * 31250

/-- Samples of a 120 µs symbol, the cyclic prefix among them (R150). -/
def symbolSamples (opt : BitVec 2) : Nat := fftSize opt * 5 / 4

/-- Bits of a point. -/
def Modn.bits : Modn → Nat
  | .bpsk => 1
  | .qpsk => 2
  | .qam16 => 4
  | .qam64 => 6

/-- Modulation of an MCS (R142). -/
def mcsMod (mcs : BitVec 3) : Modn :=
  match mcs.toNat with
  | 0 | 1 => .bpsk
  | 2 | 3 | 4 => .qpsk
  | _ => .qam16

/-- Whether the code rate of an MCS is 3/4 (R142). -/
def mcsRate (mcs : BitVec 3) : Bool := mcs = 4 || 6 ≤ mcs.toNat

/-- Frequency repetition of an MCS (R142). -/
def mcsRep (mcs : BitVec 3) : Nat :=
  match mcs.toNat with
  | 0 => 4
  | 1 | 2 => 2
  | _ => 1

/-- Coded bits of a symbol of a standard frame. -/
def mcsCbps (opt : BitVec 2) (mcs : BitVec 3) : Nat := dataTones opt * (mcsMod mcs).bits / mcsRep mcs

/-! ### Checks: HCS, TCS, FCS (R145, R147, R461) -/

/-- The `n` bits of a number, bit 0 first. -/
def bitsOf (n x : Nat) : List Bool := (List.range n).map x.testBit

/-- A number from its bits, bit 0 first. -/
def natOf : List Bool → Nat
  | [] => 0
  | b :: t => b2n b + 2 * natOf t

/-- An 8-bit check in transmission order: its first bit is bit 7 of the result (R154). -/
def checkBits (l : List Bool) : List Bool := (bitsOf 8 (crc8 l)).reverse

/-- Bits of bytes, bit 0 of each first, into bytes. -/
def bytesOfBits : List Bool → List Byte
  | a :: b :: c :: d :: e :: f :: g :: h :: t => BitVec.ofNat 8 (natOf [a, b, c, d, e, f, g, h]) :: bytesOfBits t
  | _ => []

/-- CRC-16 of the standard: x^16 + x^12 + x^5 + 1, from zero, least significant bit first. -/
def crc16 (bs : List Byte) : Nat :=
  (bitsLsb bs).foldl (fun (r : Nat) b => if xor (r.testBit 0) b then (r / 2) ^^^ 0x8408 else r / 2) 0

/-- The FCS of an MPDU: 32-bit or 16-bit by FCS_TYPE (R147). A 32-bit FCS of fewer than four octets is taken over the octets
and zeros. -/
def fcsOf (wide : Bool) (mpdu : List Byte) : List Byte :=
  if wide then leBytes 4 (crc32 (mpdu ++ List.replicate (4 - mpdu.length) 0)).toNat else leBytes 2 (crc16 mpdu)

/-- A PSDU without its FCS, if that checks (R147). -/
def checkFcs (wide : Bool) (psdu : List Byte) : Option (List Byte) :=
  let n := psdu.length - if wide then 4 else 2
  if psdu.drop n = fcsOf wide (psdu.take n) then some (psdu.take n) else none

/-! ### Scrambler (R147, R150) -/

/-- The seed of the PN9 scrambler by SCRAMBLER. -/
def pn9Seed (i : BitVec 2) : Nat :=
  match i.toNat with
  | 0 => 0x017
  | 1 => 0x01C
  | 2 => 0x177
  | _ => 0x17C

/-- `n` bits of PN9, x^9 + x^5 + 1, from a register. -/
def pn9 (n r : Nat) : List Bool :=
  match n with
  | 0 => []
  | k + 1 => r.testBit 0 :: pn9 k (r / 2 + b2n (xor (r.testBit 0) (r.testBit 5)) * 256)

/-- Scramble or descramble bits. -/
def scramble (i : BitVec 2) (l : List Bool) : List Bool := (l.zip (pn9 l.length (pn9Seed i))).map (fun p => xor p.1 p.2)

/-! ### Convolutional code (R148, R149) -/

/-- Parity of a number of at most 7 bits. -/
def parity7 (x : Nat) : Bool :=
  xor (x.testBit 0) (xor (x.testBit 1) (xor (x.testBit 2) (xor (x.testBit 3) (xor (x.testBit 4) (xor (x.testBit 5)
    (x.testBit 6))))))

/-- The two coded bits of a window of seven: generators 133 and 171, octal; the newest bit is bit 6. -/
def codePair (w : Nat) : Bool × Bool := (parity7 (w &&& 0o133), parity7 (w &&& 0o171))

/-- Rate 1/2 encoding from register `s`. -/
def encodeFrom (s : Nat) : List Bool → List Bool
  | [] => []
  | b :: t =>
    let w := b2n b * 64 + s
    (codePair w).1 :: (codePair w).2 :: encodeFrom (w / 2) t

/-- Rate 1/2 encoding from the all-zero state (R148). -/
def encode (l : List Bool) : List Bool := encodeFrom 0 l

/-- Puncturing of rate 1/2 to rate 3/4: of six coded bits the fourth and the fifth are left out. -/
def puncture : List Bool → List Bool
  | a :: b :: c :: _ :: _ :: f :: t => a :: b :: c :: f :: puncture t
  | l => l

/-- Encode at rate 1/2 or 3/4. -/
def encodeRate (threeQ : Bool) (l : List Bool) : List Bool := if threeQ then puncture (encode l) else encode l

/-- Undo the puncturing: the bits left out enter as erasures (R149). A soft input is positive for a coded 1. -/
def depuncture : List Int → List Int
  | a :: b :: c :: f :: t => a :: b :: c :: 0 :: 0 :: f :: depuncture t
  | l => l

/-- A soft input of 4 bits (R149). -/
def soft4 (x : Int) : Int := max (-8) (min 7 x)

/-- Soft inputs by pairs. -/
def softPairs : List Int → List (Int × Int)
  | a :: b :: t => (soft4 a, soft4 b) :: softPairs t
  | [a] => [(soft4 a, 0)]
  | [] => []

/-- A survivor: its metric, and its bits, newest first. -/
abbrev Path := Int × List Bool

/-- How well a window's coded bits agree with a pair of soft inputs. -/
def agree (w : Nat) (p : Int × Int) : Int :=
  (if (codePair w).1 then p.1 else -p.1) + (if (codePair w).2 then p.2 else -p.2)

/-- One new survivor: of the two registers `s` and `s + 1` that lead to it, the one that agrees best. -/
def survive (b : Bool) (s : Nat) (p : Int × Int) (x y : Path) : Path :=
  let mx := x.1 + agree (b2n b * 64 + s) p
  let my := y.1 + agree (b2n b * 64 + s + 1) p
  if my ≤ mx then (mx, b :: x.2) else (my, b :: y.2)

/-- The 32 new survivors whose newest bit is `b`; the registers of the old ones rise from `s`. -/
def surviveAll (b : Bool) (s : Nat) (p : Int × Int) : List Path → List Path
  | x :: y :: t => survive b s p x y :: surviveAll b (s + 2) p t
  | _ => []

/-- One stage of the decoder. -/
def viterbiStage (l : List Path) (p : Int × Int) : List Path := surviveAll false 0 p l ++ surviveAll true 0 p l

/-- The survivors before the first stage: the encoder starts from the all-zero state. -/
def viterbiStart : List Path := (0, []) :: List.replicate 63 (-1000000, [])

/-- The decoder (R149): the survivor that ends in the all-zero state, traced back whole. -/
def viterbi (soft : List Int) : List Bool :=
  (((softPairs soft).foldl viterbiStage viterbiStart).head?.map (fun x => x.2.reverse)).getD []

/-- Decode a block of rate 1/2 or 3/4 whose six tail bits follow `n` bits: the block is terminated at its tail. -/
def decodeBlock (threeQ : Bool) (n : Nat) (soft : List Int) : List Bool :=
  let l := if threeQ then depuncture soft else soft
  (viterbi (l.take (2 * (n + 6)))).take n

/-! ### Interleaving (R148, R156) -/

/-- Where the SUN OFDM interleaver puts coded bit `k` of a symbol of `n` coded bits: `rep` the repetition, `bps` the bits of a
point. -/
def interleaveTo (n rep bps k : Nat) : Nat :=
  let rows := 12 / rep
  let i := n / rows * (k % rows) + k / rows
  let s := max 1 (bps / 2)
  s * (i / s) + (i + n - rows * i / n) % s

/-- Interleave the coded bits of a symbol. -/
def interleave (rep bps : Nat) (l : List Bool) : List Bool :=
  (List.range l.length).map (fun j =>
    ((List.range l.length).find? (fun k => interleaveTo l.length rep bps k = j)).elim false (fun k => l.getD k false))

/-- Undo the interleaving of a symbol's soft inputs. -/
def deinterleave (rep bps : Nat) (l : List Int) : List Int :=
  (List.range l.length).map (fun k => l.getD (interleaveTo l.length rep bps k) 0)

/-- load(c) of R156: the bits of each data tone, tone 0 first. -/
def loadTones (codes : List Nat) (n : Nat) (c : List Bool) : List (List Bool) :=
  let order := (List.range 6).flatMap (fun b =>
    ((List.range n).map (fun k => k * 7 % n)).filterMap (fun t => if b < codeBits (codes.getD t 0) then some (t, b) else none))
  let slots := order.zip c
  (List.range n).map (fun t => (List.range (codeBits (codes.getD t 0))).map (fun b =>
    ((slots.find? (fun p => p.1 = (t, b))).map (fun p => p.2)).getD false))

/-! ### Constellation points (R150, R156) -/

/-- The square of the reciprocal of a modulation's normalisation. -/
def Modn.norm : Modn → Nat
  | .bpsk => 1
  | .qpsk => 2
  | .qam16 => 10
  | .qam64 => 42

/-- A Gray-coded coordinate. -/
def gray : List Bool → Int
  | [b] => if b then 1 else -1
  | [a, b] => (if a then 1 else -1) * (if b then 1 else 3)
  | [a, b, c] => (if a then 1 else -1) * (if b then (if c then 3 else 1) else (if c then 5 else 7))
  | _ => 0

/-- The point of some bits. -/
def mapPoint (l : List Bool) : Point :=
  match l.length with
  | 1 => ⟨gray l, 0, some .bpsk⟩
  | 2 => ⟨gray (l.take 1), gray (l.drop 1), some .qpsk⟩
  | 4 => ⟨gray (l.take 2), gray (l.drop 2), some .qam16⟩
  | 6 => ⟨gray (l.take 3), gray (l.drop 3), some .qam64⟩
  | _ => ⟨0, 0, none⟩

/-- Cut a list into pieces of `n`, the last of them short. -/
def chunks {α : Type} (n fuel : Nat) (l : List α) : List (List α) :=
  match fuel with
  | 0 => []
  | k + 1 => if l.isEmpty || n = 0 then [] else l.take n :: chunks n k (l.drop n)

/-- The data tones of a symbol of a standard frame: interleaved, mapped, and repeated over the tones (R148, R150). -/
def standardSymbol (md : Modn) (rep : Nat) (c : List Bool) : List Point :=
  let pts := (chunks md.bits c.length (interleave rep md.bits c)).map mapPoint
  (List.replicate rep pts).flatten

/-- The power gain of the loaded data tones of a map, as a ratio: what the off tones would have carried, shared equally, up
to +3 dB (R156). -/
def loadGain (codes : List Nat) (n : Nat) : Nat × Nat :=
  let on := ((codes.take n).filter (fun c => c ≠ 0)).length
  if on * 1995 < n * 1000 then (1995, 1000) else (n, max 1 on)

/-! ### The PPDU (R144, R145, R153, R154) -/

/-- The 36 bits of a PHR (R145). -/
def phrBits (rate len : Nat) (scr : BitVec 2) : List Bool :=
  let h := bitsOf 5 rate ++ [false] ++ bitsOf 11 len ++ [false] ++ bitsOf 2 scr.toNat ++ [false, false]
  h ++ checkBits h ++ List.replicate 6 false

/-- The HCS of a PHR checks (R145, R146). -/
def phrOk (l : List Bool) : Bool := (l.drop 22).take 8 = checkBits (l.take 22)

/-- RATE of a tone-loaded frame (R145). -/
def rateLoaded : Nat := 0b11100

/-- The 38 bits of a tone-map header (R154). -/
def tmhBits (idx : BitVec 12) (rate : Bool) (digest : Byte) : List Bool :=
  let h := bitsOf 12 idx.toNat ++ [rate, false, false, false] ++ bitsOf 8 digest.toNat
  h ++ checkBits h ++ List.replicate 6 false

/-- The symbols of a header block: BPSK, rate 1/2, neither repeated nor scrambled; the coded bits fill the data tones of the
last symbol with zeros (R145, R153). -/
def headerSymbols (opt : BitVec 2) (l : List Bool) : List (List Point) :=
  let n := dataTones opt
  let c := encode l
  let c := c ++ List.replicate (ceilDiv c.length n * n - c.length) false
  (chunks n c.length c).map (standardSymbol .bpsk 1)

/-- The bits of a PSDU block before the encoder: the PSDU scrambled, six zero tail bits, and the fill of the last symbol,
zero before scrambling (R144, R148). -/
def psduBits (scr : BitVec 2) (dbps : Nat) (psdu : List Byte) : List Bool :=
  let b := bitsLsb psdu
  let total := ceilDiv (b.length + 6) dbps * dbps
  let x := scramble scr (b ++ List.replicate (total - b.length) false)
  x.take b.length ++ List.replicate 6 false ++ x.drop (b.length + 6)

/-- A standard PPDU (R144, R150). -/
def standardPpdu (opt : BitVec 2) (mcs : BitVec 3) (scr : BitVec 2) (psdu : List Byte) : Ppdu :=
  let phr := phrBits mcs.toNat psdu.length scr
  let c := encodeRate (mcsRate mcs) (psduBits scr (max 1 (nDbps opt mcs)) psdu)
  { opt := opt, phr := phr, tmh := [], psdu := psdu, header := headerSymbols opt phr,
    data := (chunks (mcsCbps opt mcs) c.length c).map (standardSymbol (mcsMod mcs) (mcsRep mcs)), gain := (1, 1) }

/-- A tone-loaded PPDU under a map (R153 to R156): each symbol carries N_DBPS / rate coded bits; the positions left over carry
zero. -/
def loadedPpdu (opt : BitVec 2) (idx : BitVec 12) (m : TMap) (scr : BitVec 2) (psdu : List Byte) : Ppdu :=
  let phr := phrBits rateLoaded psdu.length scr
  let tmh := tmhBits idx m.rate m.digest
  let n := dataTones opt
  let coded := if m.rate then m.nDbps / 3 * 4 else m.nDbps * 2
  let c := encodeRate m.rate (psduBits scr (max 1 m.nDbps) psdu)
  { opt := opt, phr := phr, tmh := tmh, psdu := psdu, header := headerSymbols opt phr ++ headerSymbols opt tmh,
    data := (chunks coded c.length c).map (fun x =>
      (loadTones m.codes n (x ++ List.replicate (m.nCbps - x.length) false)).map mapPoint),
    gain := loadGain m.codes n }

/-- Symbols of a PPDU on the air: STF 4, LTF 2, headers, PSDU (R144, R153). -/
def Ppdu.symbols (p : Ppdu) : Nat := 6 + p.header.length + p.data.length

/-- The whole waveform of a PPDU at its channel sample rate (R150): four STF symbols, two of the LTF, the headers, the
PSDU. -/
def Ppdu.waveform (p : Ppdu) : List (Int × Int) :=
  let tone := fun (x : Point) => (x.re, x.im, (x.modn.map Modn.norm).getD 1)
  (List.range 6).flatMap (fun i => Config.samples p.opt i (1, 1) []) ++
    p.header.zipIdx.flatMap (fun x => Config.samples p.opt (6 + x.2) (1, 1) (x.1.map tone)) ++
    p.data.zipIdx.flatMap (fun x => Config.samples p.opt (6 + p.header.length + x.2) p.gain (x.1.map tone))

/-! ### Reception (R147, R149) -/

/-- The PSDU of a reception from the soft inputs of its symbols, in the order they arrive: de-interleaved, decoded,
descrambled (R147 to R149). -/
def decodePsdu (mcs : BitVec 3) (scr : BitVec 2) (len : Nat) (soft : List (List Int)) : List Byte :=
  let c := soft.flatMap (deinterleave (mcsRep mcs) (mcsMod mcs).bits)
  bytesOfBits (scramble scr (decodeBlock (mcsRate mcs) (8 * len) c))

/-- The 30 bits of a PHR before its tail, from the soft inputs of its symbols (R145, R146). -/
def decodePhr (soft : List (List Int)) : List Bool :=
  decodeBlock false 30 (soft.flatMap (deinterleave 1 1))

end Sys2Proof.Machine
end

