-- ==== Sys2Proof/Machine/Grinder.lean ====
section
/-!
DEFINITION. The Grinder: the plan, search, decode lanes, noise floor, and the capacity changes of a slot boundary (R120
to R139, R223, R224).
-/

namespace Sys2Proof.Machine

/-! ### Plan entries (R122 to R124) -/

/-- FOFS of a plan entry word, 12.5 kHz units. -/
def planFofs (w : Nat) : Int := (BitVec.ofNat 14 w).toInt

/-- EN of a plan entry word. -/
def planEn (w : Nat) : Bool := w.testBit 20

/-- PRIV of a plan entry word. -/
def planPriv (w : Nat) : Bool := w.testBit 21

/-- OPT_MASK of a plan entry word. -/
def planOpts (w : Nat) : Nat := bits w 16 4

/-- The FOFS limit of a group (R123). -/
def fofsLim (g : Grp) : Int :=
  match g with
  | .L => 464
  | .H => 976
  | .I => 3312

/-- The clamps of R123 on a word for entry `i`. -/
def State.planClamp (s : State) (i : Nat) (w : Nat) : Word :=
  let g := Grp.ofCode (bits w 14 2)
  let f := max (-(fofsLim g)) (min (fofsLim g) (planFofs w))
  let others := (s.grn.plan.filter (fun p => p.1 ≠ i && planEn p.2.toNat && planPriv p.2.toNat)).length
  let priv := planPriv w && planEn w && planOpts w ≠ 0 && others < 8
  let ed := max 4 (min 0x3C (bits w 24 8))
  BitVec.ofNat 32 ((f % 2 ^ 14).toNat + g.code * 2 ^ 14 + planOpts w * 2 ^ 16 + b2n (planEn w) * 2 ^ 20 +
    b2n priv * 2 ^ 21 + ed * 2 ^ 24)

/-- The boundary of a change written now: the first slot boundary 100 µs or more after it, in mesh ms (R223). -/
def State.boundary (s : State) : Nat := ceilDiv (s.sys.timeNs + 100000) 1000000

/-- Queue a capacity change for its boundary. -/
def State.capChange (s : State) (c : CapChange) : State := { s with grn.cap := s.grn.cap ++ [(s.boundary, c)] }

/-- The effect of a word written to PLAN_ENT of entry `i` (R123, R124): clamped, read back at once, queued. -/
def State.planWrite (s : State) (i : Nat) (w : Nat) : State :=
  let v := s.planClamp i w
  let s := { s with grn.plan := mset s.grn.plan i (if v = 0 then none else some v) }
  s.capChange (.plan (BitVec.ofNat 8 i) v)

/-- PLAN_ENT_WRITE: the host writes the entry that PLAN_IDX names (R124); the group's staged bytes are used up (R5). -/
def execPlanEntWrite (v : Word) (s : State) : Host.Outcome State Fault Refusal :=
  .next (s.hostOp .GRN (fun s =>
    let s := { s with staged := s.staged.filter (fun p => p.1 < 0x5004 || 0x5008 ≤ p.1) }
    s.planWrite (s.rd Reg.GRN_PLAN_IDX) v.toNat) 4)

/-! ### Lanes -/

/-- The privileged entries in effect, in ascending index (R133). -/
def State.privs (s : State) : List Nat :=
  (s.grn.live.filter (fun p => planEn p.2.toNat && planPriv p.2.toNat)).map (fun p => p.1)

/-- The lane reserved for a privileged entry: 0x5F for the lowest index, and downward (R133). -/
def State.rsvOf (s : State) (e : Nat) : Option Nat := (s.privs.idxOf? e).map (fun k => 0x5F - k)

/-- Whether a lane is reserved as the plan stands. -/
def State.isRsv (s : State) (lane : Nat) : Bool := 0x60 - s.privs.length ≤ lane

/-- Whether a lane is IDLE. -/
def State.laneIdle (s : State) (lane : Nat) : Bool := (mget s.grn.lanes lane).isNone

/-- SRCH_THR of a group. -/
def State.srchThr (s : State) (g : Grp) : Nat :=
  match g with
  | .L => s.rd Reg.GRN_SRCH_THR_L
  | .H => s.rd Reg.GRN_SRCH_THR_H
  | .I => s.rd Reg.GRN_SRCH_THR_I

/-- An entry has streams (R120) and they carry samples (R121), and the Grinder runs. -/
def State.streams (s : State) (e : Byte) : Bool :=
  s.runs .GRN && s.chanLive e && s.rxLive (s.chanGrp e) && (s.fe (s.chanGrp e)).rxEn ≠ 0

/-- Give a lane to a detection: ACQUIRING (R128). -/
def State.takeLane (s : State) (lane : Nat) (e : Byte) (opt : BitVec 2) (metric : Byte) (priv : Bool) : State :=
  let l : Lane := { ent := e, opt := opt, metric := metric, since := s.sys.uptime, decoding := false, priv := priv,
                    aer := (s.fe (s.chanGrp e)).rxEn, mcs := 0, len := 0, scr := 0, rsv := s.isRsv lane }
  let s := { s with grn.lanes := mput s.grn.lanes lane l }
  s.peak Reg.GRN_LANE_PEAK s.grn.lanes.length

/-- place() of R129. A lane that is pre-empted still has the aborted reception's PHR report to come (R137). -/
def State.placeDet (s : State) (e : Byte) (opt : BitVec 2) (metric : Byte) (priv : Bool) : State :=
  let own := match s.rsvOf e.toNat with
    | some r => if s.laneIdle r then some r else none
    | none => none
  match own with
  | some r => s.takeLane r e opt metric priv
  | none =>
    let vict := s.grn.lanes.foldl (fun (r : Option (Nat × Lane)) p =>
      if !p.2.decoding && p.2.ent = e && p.2.opt = opt && p.2.metric.toNat + 12 ≤ metric.toNat then
        match r with
        | some v => if p.2.metric.toNat < v.2.metric.toNat then some p else r
        | none => some p
      else r) none
    match vict with
    | some v =>
      let s := s.bump Reg.GRN_FALSE_START
      ({ s with grn.late := s.grn.late ++ [v.1] }).takeLane v.1 e opt metric priv
    | none =>
      match (List.range 96).find? (fun n => !s.isRsv n && s.laneIdle n) with
      | some n => s.takeLane n e opt metric priv
      | none => (s.bump Reg.GRN_LANE_OVF).ev Reg.GRN_GRN_EVT 0 56

/-- R127: another entry of the group already receives this packet. -/
def State.aliased (s : State) (e : Byte) (opt : BitVec 2) : Bool :=
  s.grn.lanes.any (fun p => p.2.ent ≠ e && s.chanGrp p.2.ent = s.chanGrp e && p.2.opt = opt &&
    2 * (planFofs (s.planAt e) - planFofs (s.planAt p.2.ent)).natAbs < spacing opt &&
    (s.sys.uptime - p.2.since) * 8 < 120000)

/-- A declared detection (R125, R127, R129). -/
def State.detect (s : State) (e : Byte) (opt : BitVec 2) (metric : Byte) (priv : Bool) : State :=
  let s := (s.wrap Reg.GRN_DET_CNT).bumpB Reg.GRN_ENT_DET e.toNat
  if s.aliased e opt then s.bump Reg.GRN_DET_ALIAS else s.placeDet e opt metric priv

/-- The entry is searched on the path of R134: privileged, with a completed noise-floor window. -/
def State.fastPath (s : State) (e : Byte) : Bool :=
  planPriv (s.planAt e) && match mget s.grn.nf e.toNat with
    | some n => n.done.isSome
    | none => false

/-- DETECTION (R125): the search lane of an entry reaches its threshold for an option of OPT_MASK. -/
def execDetection (ent : Byte) (opt : BitVec 2) (metric : Byte) (s : State) : Host.Outcome State Fault Refusal :=
  if s.streams ent && !s.fastPath ent && (planOpts (s.planAt ent)).testBit opt.toNat &&
      s.srchThr (s.chanGrp ent) ≤ metric.toNat then .next (s.detect ent opt metric false)
  else .next s

/-- ED_WINDOW (R134): a 24 µs window whose power exceeds an aerial's noise floor by ED_THR starts the qualifier.
An aerial that has entered PORT_RX_EN since the last window completed is compared with the value it had before, or with 0x00
(log entry 23, DESIGN CHOICE). -/
def execEdWindow (ent : Byte) (power : List Int) (s : State) : Host.Outcome State Fault Refusal :=
  if s.streams ent && s.fastPath ent && !s.grn.qual.contains ent.toNat then
    let nf := (mget s.grn.nf ent.toNat).elim [] (fun n => n.vals)
    let rx := (s.fe (s.chanGrp ent)).rxEn
    let hit := (List.range 4).any (fun i => rx.getLsbD i &&
      -140000 + 500 * ((nf.getD i 0 : Nat) : Int) + 500 * (bits (s.planAt ent) 24 8 : Nat) ≤ power.getD i (-200000))
    .next (if hit then { s with grn.qual := s.grn.qual ++ [ent.toNat] } else s)
  else .next s

/-- QUALIFIER_END (R134): 240 µs after the window; the detection is declared if its best metric reaches SRCH_THR. A
qualifier whose streams ceased meanwhile ends with nothing; one whose entry has meanwhile lost PRIV and stays ends as it would
have, with its detection marked PRIV (log entry 23, DESIGN CHOICE). -/
def execQualifierEnd (ent : Byte) (opt : BitVec 2) (metric : Byte) (s : State) : Host.Outcome State Fault Refusal :=
  if s.grn.qual.contains ent.toNat then
    let s := { s with grn.qual := s.grn.qual.erase ent.toNat }
    if !s.streams ent then .next s
    else if (planOpts (s.planAt ent)).testBit opt.toNat && s.srchThr (s.chanGrp ent) ≤ metric.toNat then
      .next (s.detect ent opt metric true)
    else .next (s.bump Reg.GRN_ED_REJECT)
  else .next s

/-- Return a lane to IDLE. -/
def State.freeLane (s : State) (lane : Nat) : State := { s with grn.lanes := mdel s.grn.lanes lane }

/-- A lane's PHR as PHY has decoded it (R130, R146): good, or bad and counted under exactly one cause. -/
def State.phrOf (s : State) (lane : Nat) (l : Lane) (phr : List Bool) : State :=
  let rate := natOf (phr.take 5)
  let len := natOf ((phr.drop 6).take 11)
  let bad := fun (c : Fld) => ((s.bump c).bump Reg.GRN_PHR_BAD).freeLane lane
  if !phrOk phr then bad Reg.PHY_PHR_HCS_BAD
  else if rate < minMcs l.opt || maxMcs l.opt < rate then bad Reg.PHY_PHR_RATE_BAD
  else if len ≤ s.fcsLen then bad Reg.PHY_PHR_LEN_BAD
  else
    let l := { l with decoding := true, mcs := BitVec.ofNat 3 rate, len := len,
                      scr := BitVec.ofNat 2 (natOf ((phr.drop 18).take 2)) }
    { s with grn.lanes := mput s.grn.lanes lane l }

/-- PHR_REPORT (R130, R137, R146): PHY decodes the PHR of a lane's reception and reports it; the report of a reception that
was pre-empted is discarded. -/
def execPhrReport (lane : Nat) (first : List Int) (rest : List (List Int)) (s : State) : Host.Outcome State Fault Refusal :=
  if !s.runs .GRN || !s.runs .PHY then .next s
  else if s.grn.late.contains lane then .next { s with grn.late := s.grn.late.erase lane }
  else
    match mget s.grn.lanes lane with
    | some l => if l.decoding then .next s else .next (s.phrOf lane l (decodePhr (first :: rest)))
    | none => .next s

/-- ACQ_TIMEOUT (R130), while GRN runs (R138). -/
def execAcqTimeout (lane : Nat) (s : State) : Host.Outcome State Fault Refusal :=
  match mget s.grn.lanes lane with
  | some l =>
    if l.decoding || !s.runs .GRN then .next s else .next ((s.bump Reg.GRN_ACQ_TIMEOUT).freeLane lane)
  | none => .next s

/-- NF_WINDOW_DONE (R139): the mean powers P, encoded as round(2 × (P + 140)); an aerial outside PORT_RX_EN reads 0. -/
def execNfWindowDone (ent : Byte) (power : List Int) (s : State) : Host.Outcome State Fault Refusal :=
  if s.streams ent && !s.grn.lanes.any (fun p => p.2.ent = ent) then
    let rx := (s.fe (s.chanGrp ent)).rxEn
    let v := (List.range 4).map (fun i =>
      if rx.getLsbD i then (max 0 (min 255 (roundDiv (power.getD i (-140000) + 140000) 500))).toNat else 0)
    .next { s with grn.nf := mput s.grn.nf ent.toNat { vals := v, done := some s.sys.uptime } }
  else .next s

/-! ### A slot boundary (R223, R224) -/

/-- A plan entry removed by a change of its word (R124). -/
def planRemoved (old new : Nat) : Bool :=
  planEn old && (!planEn new || bits old 0 16 ≠ bits new 0 16)

/-- Apply one entry's new word: lanes aborted, noise floor afresh where the entry is new (R124, R139). -/
def State.applyPlan (s : State) (i : Nat) (new : Word) : State :=
  let old := ((mget s.grn.live i).getD 0).toNat
  let w := new.toNat
  let gone := planRemoved old w
  let s := s.abortLanes (fun p => p.2.ent.toNat = i && (gone || !(planOpts w).testBit p.2.opt.toNat)) Reg.GRN_CAP_ABORT
  let fresh := bits old 0 16 ≠ bits w 0 16 || (planEn w && !planEn old)
  let nf := if fresh then mdel s.grn.nf i else s.grn.nf
  { s with
    grn.live := mset s.grn.live i (if new = 0 then none else some new), grn.nf := nf,
    grn.qual := if gone then s.grn.qual.erase i else s.grn.qual }

/-- The last word written for each entry among the plan changes given. -/
def lastPlan (l : List (Nat × CapChange)) : List (Nat × Word) :=
  l.foldl (fun m c => match c.2 with
    | .plan e v => mput m e.toNat v
    | _ => m) []

/-- A dispatched node frame whose plan entry is removed before its first symbol (R224): held back; the node becomes
UNREACHABLE. -/
def State.capHeld (s : State) (t : Try) : State :=
  let s := s.pullItems (fun f => f.kind = .dl && f.copy.handle = t.handle && f.seq = t.seq)
  ((s.bump Reg.SCH_CAP_HELD).unreach t.handle).tryEnd t (.never false)

/-- The UNREACHABLE scan after a plan removal (R217): every entry whose CHAN names a removed index. -/
def State.unreachScan (s : State) (gone : List Nat) : State :=
  (s.ntb.slots.filter (fun p => !p.2.bad && gone.contains p.2.entry.chan.toNat)).foldl
    (fun s p => s.unreach p.2.entry.handle) s

/-- Apply the ports in effect of a group; a lane left with no aerial is aborted (R109, R135). -/
def State.applyPorts (s : State) (g : Grp) (rx tx : BitVec 4) : State :=
  let s := s.setFe g { s.fe g with rxEn := rx, txEn := tx }
  let lanes := s.grn.lanes.map (fun p => if s.chanGrp p.2.ent = g then (p.1, { p.2 with aer := p.2.aer &&& rx }) else p)
  ({ s with grn.lanes := lanes }).abortLanes (fun p => s.chanGrp p.2.ent = g && p.2.aer = 0) Reg.GRN_CAP_ABORT

/-- The island that acts on a capacity change runs: a CAP_CHANGE that meets a stopped island is acted on when it arrives,
after B (R223). -/
def State.capReady (s : State) (c : CapChange) : Bool :=
  match c with
  | .plan _ _ => s.runs .GRN
  | .ports g _ _ => s.runs g.isl
  | .twinJoin | .twinLeave => s.runs .TWN

/-- A change of port enables applies (R109, R223). -/
def State.applyCap (s : State) (c : CapChange) : State :=
  match c with
  | .ports g rx tx => s.applyPorts g rx tx
  | _ => s

/-- The twin joins or leaves (R223, R401). -/
def State.applyTwin (s : State) (c : CapChange) : State :=
  match c with
  | .twinJoin => { s with twn.joined := true, twn.fullCopy := true }
  | .twinLeave => { s with twn.joined := false, twn.fullCopy := false }.dropSending
  | _ => s

/-- CAP_BOUNDARY (R223): the changes whose boundary has come, in the order plan, reservations (which follow the plan),
ports, twin. -/
def execCapBoundary (s : State) : Host.Outcome State Fault Refusal :=
  let due := s.grn.cap.filter (fun c => c.1 * 1000000 ≤ s.sys.timeNs && s.capReady c.2)
  if due.isEmpty || !s.runs .SCH then .next s
  else
    let s := { s with grn.cap := s.grn.cap.filter (fun c => !(c.1 * 1000000 ≤ s.sys.timeNs && s.capReady c.2)) }
    let plan := lastPlan due
    let gone := (plan.filter (fun p => planRemoved ((mget s.grn.live p.1).getD 0).toNat p.2.toNat)).map (fun p => p.1)
    let s := plan.foldl (fun s p => s.applyPlan p.1 p.2) s
    let s := if plan.isEmpty then s else s.ev Reg.GRN_GRN_EVT 1 56
    let s := (s.sch.tries.filter (fun t => t.kind = .dl && !t.committed && gone.contains t.chan.toNat)).foldl
      State.capHeld s
    let s := if gone.isEmpty then s
      else { (if s.runs .NTB then s.unreachScan gone else s) with sch.scan := some (s.sch.scan.getD [] ++ gone) }
    let s := due.foldl (fun (s : State) c => s.applyCap c.2) s
    let s := due.foldl (fun (s : State) c => s.applyTwin c.2) s
    .next (s.wr Reg.SCH_CAP_LAST (due.foldl (fun m c => max m c.1) 0))

/-- SCAN_DONE (R217): the scan ends. -/
def execScanDone (s : State) : Host.Outcome State Fault Refusal :=
  match s.sch.scan with
  | some _ =>
    if !s.runs .SCH || !s.runs .NTB then .next s
    else .next (({ s with sch.scan := none }).ev Reg.SCH_SCH_EVT 4 80)
  | none => .next s

end Sys2Proof.Machine
end

