-- ==== Sys2Proof/Machine/Phy.lean ====
section
/-!
DEFINITION. PHY: the end of a reception with its acknowledgement, the release order, tone-map proposals, the transmit
chain and the tone-map table (R27, R132, R136, R144 to R169, R235).
-/

namespace Sys2Proof.Machine

/-! ### The end of a reception (R132, R136, R147, R235) -/

/-- Airtime of a declared acknowledgement: 21 bytes, 4 more with RB_REQ, 2 less with a 16-bit FCS (R235). -/
def State.ackDur (s : State) (opt : BitVec 2) (mcs : BitVec 3) (rb : Bool) : Nat :=
  airNs (phrSyms opt) (17 + s.fcsLen + (if rb then 4 else 0)) (max 1 (nDbps opt mcs))

/-- An item that is no node frame, on a plan entry. -/
def plainItem (kind : TxKind) (grp : Grp) (chan : Byte) (opt : BitVec 2) (mcs : BitVec 3) (eui : Word64) (idx prio first
    dur : Nat) (epoch : Byte) : TxItem :=
  { kind := kind, grp := grp,
    copy := { handle := 0, chan := chan, opt := opt, mcs := mcs, tl := false, tmap := 0, dsn := 0, nlp := 0, gen := 0,
              fcnt := 0 },
    eui := eui, seq := 0, idx := idx, gid := 0, epoch := epoch, prio := prio, first := first, dur := dur,
    fence := false, host := false, secured := false, ready := false, start := false, ies := [], own := 0, body := [],
    level := 0, key := none, ppdu := none, phase := .waiting }

/-- ACK_DECLARE (R104, R235): the acknowledgement leaves 120 µs after the end of the reception, and its burst begins. -/
def State.ackDeclare (s : State) (g : Grp) (id : Nat) (m : RxMeta) (eui : Word64) : State :=
  let s := s.wrap Reg.SCH_ACKS_DECL
  let a : AckDecl := { id := id, grp := g, chan := m.chan, opt := m.opt, mcs := m.mcs, endTime := m.endTime,
                       classified := false, opp := none }
  let s := { s with sch.acks := s.sch.acks ++ [a] }
  let first := m.endTime + turnNs
  let f := plainItem .ack g m.chan m.opt m.mcs eui id 12 first (s.ackDur m.opt m.mcs false) s.epochCur
  let n := (s.fe g).wait.length
  match s.choosePort g with
  | some p => (s.beginBurst g first (some p) none first [{ f with phase := .due }]).joinWaiting g n
  | none => ((s.beginBurst g first none none first []).lose g f (some (Reg.FE_TX_NOPORT g)) false).joinWaiting g n

/-- Insert into PHY's release order: by end of reception, ties by plan index (R27). -/
def insertUl (l : List UlItem) (u : UlItem) : List UlItem :=
  match l with
  | [] => [u]
  | x :: t =>
    if u.rx.endTime < x.rx.endTime || (u.rx.endTime = x.rx.endTime && u.rx.chan.toNat < x.rx.chan.toNat) then u :: x :: t
    else x :: insertUl t u

/-- The MPDU that a lane has received, if its FCS checks (R147 to R149). -/
def State.mpduOf (s : State) (l : Lane) (r : Reception) : Option (List Byte) :=
  checkFcs (s.on Reg.PHY_FCS_TYPE) (decodePsdu l.mcs l.scr l.len r.soft)

/-- The metadata of a lane's reception (R136). -/
def State.metaOf (s : State) (l : Lane) (r : Reception) : RxMeta :=
  { endTime := s.sys.timeNs, chan := l.ent, opt := l.opt, mcs := l.mcs, aerMask := l.aer, metric := l.metric,
    rssi := (List.range 4).map (fun i => if l.aer.getLsbD i then r.rssi.getD i 0 else 0), snr := r.snr, cfo := r.cfo,
    priv := l.priv }

/-- A frame that PHY has decoded waits for its release (R27); its SNR values lie from 0 to 63.5 dB (R164). An acknowledgement
that it asks for is declared (R235), not on a standby (R397). -/
def State.received (s : State) (l : Lane) (r : Reception) (p : Psdu) : State :=
  let g := s.chanGrp l.ent
  let m := s.metaOf l r
  let id := s.grn.recvNo
  let u : UlItem := { id := id, grp := g, rx := m, psdu := p, tones := r.tones.map (fun x => min x 127), copy := none,
                      ulSeq := 0, epoch := s.epochCur, auth := .unchecked, dup := false }
  let s := { s with grn.recvNo := id + 1, phy.ul := insertUl s.phy.ul u }
  if p.ackReq && s.runs .SCH && !s.quiet then s.ackDeclare g id m p.eui else s

/-- RECEPTION_END (R132, R136, R138, R147, R235): of a DECODING lane. An MPDU that is no frame of R228 ends here (log
entry 97). -/
def execReceptionEnd (lane : Nat) (r : Reception) (s : State) : Host.Outcome State Fault Refusal :=
  match mget s.grn.lanes lane with
  | none => .next s
  | some l =>
    if !l.decoding || !s.runs .GRN || !s.runs .PHY then .next s
    else
      let pr := s.mpduOf l r
      let s := s.freeLane lane
      match pr with
      | none => .next (s.bump Reg.PHY_FCS_BAD)
      | some b =>
        let s := s.wrap Reg.PHY_RX_FRAMES
        match readPsdu b r.mic r.plain with
        | some p => .next (s.received l r p)
        | none => .next s

/-! ### Proposals (R164 to R168) -/

/-- The loading threshold of a code, 0.5 dB units (R166). -/
def loadThr (rate : Bool) (c : Nat) : Nat :=
  match c with
  | 1 => if rate then 11 else 6
  | 2 => if rate then 17 else 12
  | 3 => if rate then 29 else 24
  | _ => if rate then 41 else 36

/-- The highest code whose threshold plus margin an SNR reaches. -/
def loadCode (rate : Bool) (margin snr : Nat) : Nat :=
  ([4, 3, 2, 1].find? (fun c => loadThr rate c + margin ≤ snr)).getD 0

/-- The proposal of a slot (R165, R166): codes from the minimum SNRs. -/
def State.proposal (s : State) (p : PropSlot) : TMap :=
  let rate := s.on Reg.PHY_TL_RATE
  let codes := (List.range 96).map (fun t =>
    if t < dataTones p.opt then loadCode rate (s.rd Reg.PHY_TL_MARGIN) (p.snr.getD t 0) else 0)
  TMap.make codes p.opt rate false false

/-- A map fits a proposal (R166). -/
def State.fits (s : State) (m p : TMap) : Bool :=
  m.valid && m.opt = p.opt && m.rate = p.rate && (m.codes.zip p.codes).all (fun c => c.1 ≤ c.2) &&
    p.nDbps * (100 - 5 * s.rd Reg.PHY_TL_SLACK) ≤ 100 * m.nDbps

/-- The fitting map with the greatest N_DBPS, then the most USERS, then the lowest index. -/
def State.bestFit (s : State) (p : TMap) : Option Nat :=
  (s.phy.tmaps.foldl (fun (r : Option (Nat × TMap)) x =>
    if s.fits x.2 p then
      match r with
      | some b =>
        if b.2.nDbps < x.2.nDbps || (b.2.nDbps = x.2.nDbps && b.2.users < x.2.users) then some x else r
      | none => some x
    else r) none).map (fun x => x.1)

/-- A map is free (R161) and open to a proposal: one that a parity error has invalidated waits for host software (R163). -/
def State.mapOpen (s : State) (i : Nat) : Bool :=
  match mget s.phy.tmaps i with
  | some m => !m.valid && m.users = 0 && !m.dead
  | none => true

/-- Queue a report record (R167). -/
def State.propReport (s : State) (p : TMap) (h : BitVec 18) (chan : Byte) (action : Nat) (gen : Byte) (tmap : BitVec 12)
    (endTime : Nat) : State :=
  let r := { p with valid := false, auto := false, users := 0, inFlight := 0 }
  (s.record 0x11 (r.bytes ++ leBytes 3 h.toNat ++ [chan, BitVec.ofNat 8 action, gen] ++ leBytes 2 tmap.toNat ++
    leBytes 8 endTime)).ev Reg.PHY_PHY_EVT 0 64

/-- Act on a proposal (R166): the outcomes in order. A change of the entry goes to NTB as a table write (R168). `c`: the entry
copy of the last uplink (R25). -/
def State.propAct (s : State) (c : EntryCopy) (p : PropSlot) (prop : TMap) : State :=
  let rep := fun (s : State) act => s.propReport prop c.handle p.chan act p.gen c.tmap p.last
  let send := fun (s : State) (i act : Nat) =>
    let w : PropWrite := { handle := c.handle, gen := p.gen, tmap := BitVec.ofNat 12 i, action := act, chan := p.chan,
                           last := p.last, prop := prop }
    { s with phy.propWrites := s.phy.propWrites ++ [w] }
  let mode := s.rd Reg.PHY_TL_MODE
  if mode = 1 then rep s 0
  else if prop.nDbps ≤ nDbps c.opt c.mcs then rep s 1
  else if (match mget s.phy.tmaps c.tmap.toNat with
      | some m => s.fits m prop
      | none => false) then rep s 2
  else
    match s.bestFit prop with
    | some i => send s i 3
    | none =>
      let slot := if mode = 3 then (List.range 4096).find? s.mapOpen else none
      match slot with
      | some i =>
        let m := { prop with auto := true, valid := 12 ≤ prop.nDbps,
                             inFlight := ((mget s.phy.tmaps i).getD TMap.zero).inFlight }
        send { s with phy.tmaps := mput s.phy.tmaps i m } i 4
      | none =>
        let s := s.bump Reg.PHY_PROP_NOFIT
        rep (if mode = 3 then s.ev Reg.PHY_PHY_EVT 1 64 else s) 5

/-- Merge an uplink into its node's slot (R165). A slot that is too old, or of another channel or option, starts again
from this uplink (log entry 24). -/
def State.propMerge (s : State) (c : EntryCopy) (u : UlItem) : State :=
  let now := s.sys.uptime
  let new : PropSlot := { handle := c.handle, first := now, n := 1, snr := u.tones, chan := u.rx.chan, opt := u.rx.opt,
                          gen := c.gen, last := u.rx.endTime }
  let age := s.rd Reg.PHY_PROP_AGE * 10000
  let others := s.phy.props.filter (fun p => p.handle ≠ c.handle)
  let pr : PropSlot × State := match s.phy.props.find? (fun p => p.handle = c.handle) with
    | some p =>
      if age < s.msSince p.first || p.chan ≠ u.rx.chan || p.opt ≠ u.rx.opt then
        (new, { s with phy.props := others ++ [new] })
      else
        let p := { p with n := p.n + 1, snr := (p.snr.zip u.tones).map (fun (x : Nat × Nat) => min x.1 x.2), gen := c.gen,
                          last := u.rx.endTime }
        (p, { s with phy.props := others ++ [p] })
    | none =>
      if s.phy.props.length < 256 then (new, { s with phy.props := others ++ [new] })
      else
        let oldest := s.phy.props.foldl (fun (m : Nat) (p : PropSlot) => min m p.first) now
        let l := s.phy.props.eraseP (fun (p : PropSlot) => p.first = oldest)
        (new, ({ s with phy.props := l ++ [new] }).bump Reg.PHY_PROP_EVICT)
  let slot := pr.1
  let s := pr.2
  if s.rd Reg.PHY_PROP_N ≤ slot.n then
    let s := { s with phy.props := s.phy.props.filter (fun p => p.handle ≠ c.handle) }
    (s.bump Reg.PHY_PROP_MADE).propAct c slot (s.proposal slot)
  else s

/-- PROPOSAL_FORM (R165): an uplink of a node with NLP 3 or more, on its own downlink channel and option, feeds a proposal. PHY
takes the entry copy from NTB's lookup of the uplink, which makes it (R24, R25; log entry 24, DEDUCED). -/
def State.propFeed (s : State) (u : UlItem) : State :=
  match u.copy with
  | some c =>
    if s.rd Reg.PHY_TL_MODE ≠ 0 && s.runs .PHY && !s.quiet && 3 ≤ c.nlp.toNat && c.chan = u.rx.chan && c.opt = u.rx.opt then
      s.propMerge c u
    else s
  | none => s

/-- UL_RELEASE (R27): the decoded frame whose reception ended first goes to NTB, once no reception can still end at its mesh
time. -/
def execUlRelease (s : State) : Host.Outcome State Fault Refusal :=
  match s.phy.ul with
  | u :: rest =>
    if s.runs .PHY && s.runs .NTB && u.rx.endTime < s.sys.timeNs then
      .next { s with phy.ul := rest, ntb.ul := s.ntb.ul ++ [u] }
    else .next s
  | [] => .next s

/-- A proposal's table write is not applied (R168): a map allocated for it becomes free, and the report says SUPERSEDED. `now`:
the map the entry names. -/
def State.propBack (s : State) (w : PropWrite) (now : BitVec 12) : State :=
  (s.freeAuto w.tmap.toNat).propReport w.prop w.handle w.chan 6 w.gen now w.last

/-- A proposal's table write that a fault of NTB or a failed tag check has destroyed (R166, R198): its report still comes (log
entry 96). -/
def State.propLost (s : State) (w : PropWrite) : State :=
  s.propBack w (((s.slotOf w.handle).map (fun p => p.2.entry.tmap)).getD 0)

/-- TONEMAP_TABLE_WRITE (R168): PHY's change of an entry's map, applied only while the entry has the GEN of the
proposal's last uplink. A slot that fails its parity leaves it unapplied (R196; log entry 96). -/
def execTonemapTableWrite (s : State) : Host.Outcome State Fault Refusal :=
  match s.phy.propWrites with
  | [] => .next s
  | w :: rest =>
    if !s.runs .NTB then .next s
    else
      let pr := ({ s with phy.propWrites := rest }).access w.handle 5
      let s := pr.2
      match pr.1 with
      | some (loc, sl) =>
        let e := sl.entry
        if e.gen = w.gen then
          let s := { s with ntb.slots := mput s.ntb.slots loc { sl with entry := { e with tmap := w.tmap } } }
          let s := (s.users w.tmap.toNat true).users e.tmap.toNat false
          .next (s.propReport w.prop w.handle w.chan w.action w.gen w.tmap w.last)
        else .next ((s.bump Reg.PHY_PROP_SUPERSEDED).propBack w e.tmap)
      | none => .next ((s.bump Reg.PHY_PROP_SUPERSEDED).propBack w 0)

/-! ### The transmit chain (R150 to R157, R163) -/

/-- The waveform of an item (R144, R150 to R157): its FCS appended, then tone-loaded or standard. The standard leaves the choice
of SCRAMBLER to the sender: a free value (log entry 1). -/
def State.modulate (s : State) (f : TxItem) : Ppdu :=
  let psdu := f.body ++ fcsOf (s.on Reg.PHY_FCS_TYPE) f.body
  let scr := BitVec.ofNat 2 (s.freeVal 2)
  match s.toneMap f with
  | some m => loadedPpdu f.copy.opt f.copy.tmap m scr psdu
  | none => standardPpdu f.copy.opt f.copy.mcs scr psdu

/-- A parity error that PHY finds in a record as it modulates a frame invalidates it until host software writes it (R163). -/
def State.mapParity (s : State) (i : BitVec 12) : State :=
  match mget s.phy.tmaps i.toNat with
  | some m =>
    if m.perr then
      let s := { s with phy.tmaps := mput s.phy.tmaps i.toNat { m with valid := false, perr := false, dead := true } }
      (s.wr Reg.PHY_MAP_PAR_IDX i.toNat).ev Reg.PHY_PHY_EVT 2 64
    else s
  | none => s

/-- PHY_MODULATE (R150, R152, R153, R157, R162, R163): the item goes to its group, tone-loaded or standard. -/
def execPhyModulate (s : State) : Host.Outcome State Fault Refusal :=
  match s.phy.tx with
  | [] => .next s
  | f :: rest =>
    if !s.runs .PHY || !s.runs f.grp.isl then .next s
    else
      let s := { s with phy.tx := rest }
      if f.fence then .next (((s.mapLeave f).undeclare f).notSent f false)
      else
        let wants := f.kind = .dl && f.copy.tl
        let s := if wants then s.mapParity f.copy.tmap else s
        let loaded := (s.toneMap f).isSome
        let dur := s.airtime f
        let p := s.modulate f
        let s := s.tick
        let s := if wants && !loaded then s.bump Reg.PHY_TL_FALLBACK else s
        let s := (if loaded then s.wrap Reg.PHY_TX_TL else s).wrap Reg.PHY_TX_FRAMES
        let s := (s.mapLeave f).tryDur f dur
        .next (s.setFe f.grp { s.fe f.grp with arrive := (s.fe f.grp).arrive ++ [{ f with dur := dur, ready := true, ppdu := some p }] })

/-! ### The tone-map table (R158 to R161) -/

/-- Store a record; one that is all zero is not listed. -/
def State.setMap (s : State) (i : Nat) (m : TMap) : State :=
  { s with phy.tmaps := mset s.phy.tmaps i (if m = TMap.zero then none else some m) }

/-- A VALID record in use refuses WRITE and FREE (R161). -/
def State.mapHeld (s : State) (i : Nat) : Bool :=
  match mget s.phy.tmaps i with
  | some m => m.valid && (1 ≤ m.users || 1 ≤ m.inFlight)
  | none => false

/-- WRITE of 48 bytes into a record (R160, R161), and whether it is refused. -/
def State.mapWrite (s : State) (i : Nat) (b : List Byte) : Bool × State :=
  if s.mapHeld i then (false, s)
  else
    let o := (mget s.phy.tmaps i).getD TMap.zero
    (true, s.setMap i { TMap.ofWrite b with users := o.users, inFlight := o.inFlight })

/-- The window TMAP_DATA. -/
def State.mapWindow (s : State) : List Byte := (List.range 48).map (fun i => BitVec.ofNat 8 (s.rdI Reg.PHY_TMAP_DATA i))

/-- Fill the window TMAP_DATA. -/
def State.fillWindow (s : State) (b : List Byte) : State :=
  b.zipIdx.foldl (fun s p => s.wrI Reg.PHY_TMAP_DATA p.2 p.1.toNat) s

/-- The effect of a value written to TMAP_CMD (R161): each command runs to COMPLETED or REFUSED (log entry 7). -/
def State.tmapCmd (s : State) (v : Nat) : State :=
  let i := s.rd Reg.PHY_TMAP_IDX
  match v with
  | 0 => s
  | 1 => (s.fillWindow ((mget s.phy.tmaps i).getD TMap.zero).bytes).wr Reg.PHY_TMAP_STAT 2
  | 2 =>
    let pr := s.mapWrite i s.mapWindow
    let ok := pr.1
    let s := pr.2
    s.wr Reg.PHY_TMAP_STAT (if ok then 2 else 3)
  | _ =>
    if s.mapHeld i then s.wr Reg.PHY_TMAP_STAT 3
    else
      let o := (mget s.phy.tmaps i).getD TMap.zero
      (s.setMap i { TMap.zero with users := o.users, inFlight := o.inFlight }).wr Reg.PHY_TMAP_STAT 2

/-- TMAP_READ: the host writes 0b01 to TMAP_CMD (R161). -/
def execTmapRead (s : State) : Host.Outcome State Fault Refusal := .next (s.hostOp .PHY (fun s => s.tmapCmd 1))

/-- TMAP_WRITE: the host writes 0b10 to TMAP_CMD (R160, R161). -/
def execTmapWrite (s : State) : Host.Outcome State Fault Refusal := .next (s.hostOp .PHY (fun s => s.tmapCmd 2))

/-- TMAP_FREE: the host writes 0b11 to TMAP_CMD (R161). -/
def execTmapFree (s : State) : Host.Outcome State Fault Refusal := .next (s.hostOp .PHY (fun s => s.tmapCmd 3))

end Sys2Proof.Machine
end

