-- ==== Sys2Proof/Machine/Rings.lean ====
section
/-!
DEFINITION. The rings of HST (R272, R382, R384): positions, status block, completion sources; the table ring's
completions (R185, R386).
-/

namespace Sys2Proof.Machine

/-- The table ring's code in RING_SEL (R382). -/
def tblRing : Nat := 0x20

/-- The completion source of a ring (R432). -/
def ringSource (ring : Nat) : Nat :=
  if ring < 16 then 144 + ring else if ring < 32 then 160 + (ring - 16) else 138

/-- Slots of a ring (R382): 2^RING_SIZE. -/
def State.ringSize (s : State) (ring : Nat) : Nat := 2 ^ s.rdB Reg.HST_RING_SIZE 0 ring

/-- Bytes of a slot: 32 of a transmit ring, 64 of a receive ring and of the command ring (R272, R384). -/
def slotBytes (ring : Nat) : Nat := if ring < 16 then 32 else 64

/-- The slot of descriptor index `i` in host memory: slot i mod size (R272, R382, R384). -/
def State.slotAddr (s : State) (ring : Nat) (i : BitVec 16) : Nat :=
  s.rdB Reg.HST_RING_BASE 0 ring + i.toNat % s.ringSize ring * slotBytes ring

/-- The completion slot of command `i` in host memory (R384). -/
def State.complAddr (s : State) (i : BitVec 16) : Nat :=
  s.rd Reg.HST_RING_BASE2 + i.toNat % s.ringSize tblRing * 16

/-- The 8 bytes of a ring's status block: FETCH, COMPL and four bytes of zero (R382). -/
def State.statusBlock (s : State) (ring : Nat) : List Byte :=
  leBytes 2 (s.rdB Reg.HST_RING_FETCH 0 ring) ++ leBytes 2 (s.rdB Reg.HST_RING_COMPL 0 ring) ++ [0, 0, 0, 0]

/-- HST can reach host memory: it runs and the link is up (R386, R462). -/
def State.dma (s : State) : Bool := s.runs .HST && s.sys.linkUp

/-- One more completion has been written to a ring: COMPL, the status block, the source (R272, R382, R432). -/
def State.ringDone (s : State) (ring : Nat) : State :=
  let s := s.wrB Reg.HST_RING_COMPL 0 ring (s.rdB Reg.HST_RING_COMPL 0 ring + 1)
  (s.emit (.status ring (s.rdB Reg.HST_RING_SB 0 ring) (s.statusBlock ring))).event (ringSource ring)

/-- The 16 bytes of a table completion (R185). -/
def TblDone.bytes (d : TblDone) : List Byte :=
  leBytes 2 d.seq.toNat ++ [d.status, d.reason] ++ leBytes 3 d.handle.toNat ++ [d.gen] ++ leBytes 3 d.loc.toNat ++
    [BitVec.ofNat 8 d.moves] ++ leBytes 2 d.par.toNat ++ [0, 0]

/-- HST writes a table command's result to host memory: the entry first, then the completion (R183, R384). -/
def State.writeTblDone (s : State) (d : TblDone) : State :=
  let s := match d.entry with
    | some b => s.emit (.tblEntry d.seq (s.slotAddr tblRing d.seq + 16) b)
    | none => s
  (s.emit (.tblCompl d.seq (s.complAddr d.seq) d.bytes)).ringDone tblRing

/-- Write every table completion that NTB keeps, in command order (R386). -/
def State.flushTbl (s : State) : State :=
  if s.dma then
    let l := s.ntb.done
    l.foldl (fun s d => s.writeTblDone d) { s with ntb.done := [] }
  else s

/-- A table command's result leaves NTB (R184, R185): to HST, or as a TABLE_DONE record to the tunnel (R375). -/
def State.tblReport (s : State) (d : TblDone) : State :=
  if d.tunnel then { s with eth.outQ := s.eth.outQ ++ [(0x93, d.bytes ++ d.entry.getD [])] }
  else ({ s with ntb.done := s.ntb.done ++ [d] }).flushTbl

end Sys2Proof.Machine
end

