-- ==== Sys2Proof/Machine/NodeTable.lean ====
section
/-!
DEFINITION. The commands of the node table: lookup and hit, the six table operations, stash drain, sweeper, lock timeout
(R178 to R196, R217, R218).
-/

namespace Sys2Proof.Machine

/-! ### Lookup (R178, R179) -/

/-- The hit operation (R178, R196): in the slot the directory names, HIT is set, UL_SEQ rises, the entry is returned. -/
def State.hitOp (s : State) (h : BitVec 18) : Option Entry × State :=
  let pr := s.access h 1
  let s := pr.2
  match pr.1 with
  | none => (none, s)
  | some (loc, sl) =>
    let e := { sl.entry with hit := true, ulSeq := sl.entry.ulSeq + 1 }
    (some e, { s with ntb.slots := mput s.ntb.slots loc { sl with entry := e } })

/-- NTB_LOOKUP (R24, R178, R179): the uplink at NTB is looked up and passes to KEY with its entry copy and sequence. On
a standby the lookup probes only (R397). -/
def execNtbLookup (s : State) : Host.Outcome State Fault Refusal :=
  match s.ntb.ul with
  | [] => .next s
  | u :: rest =>
    if !s.runs .NTB || !s.runs .KEY then .next s
    else
      let s := { s with ntb.ul := rest }
      let pr := s.probe u.psdu.eui 0
      let l := pr.1
      let s := pr.2
      let found := (l.bind (fun loc => mget s.ntb.slots loc)).map (fun sl => sl.entry)
      let pr := match found with
        | some e => if s.quiet then (some e, s) else s.hitOp e.handle
        | none => (none, s)
      let hit := pr.1
      let s := pr.2.countLookup hit.isSome
      let u := match hit with
        | some e => { u with copy := some (e.copy u.psdu.dsn u.psdu.fc), ulSeq := e.ulSeq }
        | none => u
      .next (({ s with key.ul := s.key.ul ++ [u] }).propFeed u)

/-! ### Table commands (R182 to R186, R194 to R196) -/

/-- The opcode of a command record (R182). -/
def TblCmd.op (c : TblCmd) : Nat := leAt c.bytes 0 1

/-- HANDLE of a command record. -/
def TblCmd.handle (c : TblCmd) : BitVec 18 := BitVec.ofNat 18 (leAt c.bytes 4 3)

/-- The entry bytes of a command record. -/
def TblCmd.entry (c : TblCmd) : List Byte := c.bytes.drop 16

/-- The completion of a command that changed nothing: no generation, location or moves (log entry 25). -/
def TblCmd.fail (c : TblCmd) (status reason : Byte) : TblDone :=
  { seq := c.seq, status := status, reason := reason, handle := c.handle, gen := 0, loc := 0, moves := 0, par := 0,
    entry := none, tunnel := c.tunnel }

/-- The completion of a command about an entry at a location. -/
def TblCmd.about (c : TblCmd) (e : Entry) (loc : Nat) (status reason : Byte) : TblDone :=
  { c.fail status reason with handle := e.handle, gen := e.gen, loc := BitVec.ofNat 19 loc }

/-- IF_GEN is set and the entry's generation differs (R182, R183). -/
def TblCmd.genMiss (c : TblCmd) (e : Entry) : Bool := (leAt c.bytes 1 1).testBit 2 && leAt c.bytes 7 1 ≠ e.gen.toNat

/-- The handle of an INSERT, or the reason it has none (R181). -/
def State.pickHandle (s : State) (c : TblCmd) : Except (Byte × Byte) (BitVec 18) × State :=
  if (leAt c.bytes 1 1).testBit 0 then
    let pr := s.nextHandle
    match pr.1 with
    | some h => (.ok h, pr.2)
    | none => (.error (stFULL, 0x0A), pr.2)
  else
    let pr := s.dirLoc c.handle
    (if pr.1.isNone then .ok c.handle else .error (stREFUSED, 0x03), pr.2)

/-- An insertion that ended TABLE_FULL is counted (R199). -/
def State.noteFull (s : State) : State := (s.bump Reg.NTB_FULL_CNT).ev Reg.NTB_NTB_EVT 2 72

/-- INSERT (R181, R183, R186). The tests run in the order BAD_EUI, DUP_EUI, handle, place (log entry 25). -/
def State.tblInsert (s : State) (c : TblCmd) : TblDone × State :=
  let eui : Word64 := BitVec.ofNat 64 (leAt c.entry 0 8)
  if eui = 0 || eui = BitVec.allOnes 64 then (c.fail stREFUSED 0x02, s)
  else
    let pr := s.probe eui 3
    let dup := pr.1
    let s := pr.2
    if dup.isSome then (c.fail stREFUSED 0x01, s)
    else
      let pr := s.pickHandle c
      let s := pr.2
      match pr.1 with
      | .error (st, rs) => (c.fail st rs, if st = stFULL then s.noteFull else s)
      | .ok h =>
        let e := Entry.ofInsert c.entry h
        let done := fun (s : State) =>
          let s := s.bump Reg.NTB_INSERTS
          if (leAt c.bytes 1 1).testBit 0 then s.wr Reg.NTB_LAST_ALLOC h.toNat else s
        let pr := s.insertUsers e
        match pr.1 with
        | .at_ loc m => ({ c.about e loc stCOMPLETED 0 with moves := m }, done pr.2)
        | .stash loc => (c.about e loc stCOMPLETED 0x08, done pr.2)
        | .full => (c.fail stFULL 0x09, pr.2.noteFull)

/-- The slot a command names by its handle, its parity checked as a host command's read (R196): a slot that fails is BAD
from then on, and the command meets it as a BAD entry (R183; log entry 26). -/
def State.cmdSlot (s : State) (h : BitVec 18) : Option (Nat × Slot) × State :=
  let pr := s.dirLoc h
  let l := pr.1
  let s := pr.2
  match l.bind (fun loc => (mget s.ntb.slots loc).map (fun sl => (loc, sl))) with
  | none => (none, s)
  | some (loc, sl) =>
    let s := (s.checkWords loc sl 4).2
    match mget s.ntb.slots loc with
    | some sl => (if sl.entry.handle = h then some (loc, sl) else none, s)
    | none => (none, s)

/-- What follows a host WRITE to an entry that is not BAD (R210, R217, R218). -/
def State.afterWrite (s : State) (e : Entry) (mask : BitVec 12) : State :=
  let live := s.chanLive e.chan
  let s := if mask.getLsbD 3 then
      if (e.state = .active || e.state = .drifted) && !live then s.unreach e.handle
      else if e.state = .unreachable && live then
        let d := (BitVec.ofNat 32 s.ms - e.lastContact).toNat
        let st : NodeState := if uncertainty e d ≤ wmaxUs e.wcls then .active else .drifted
        let s := (s.updEntry e.handle (fun e => { e with state := st })).schedRecord 5 e 0
        if st = .active && e.qne then s.placeNode e.handle else s
      else s
    else s
  if (mask.getLsbD 8 || mask.getLsbD 9 || mask.getLsbD 10) && e.state = .active && (e.wheeled || e.qne) &&
      (s.entry e.handle).any (fun x => x.state = .active) then s.placeNode e.handle
  else s

/-- The entry that a WRITE leaves of a slot (R177, R182): a word that fails parity takes the write only where the command
writes the whole of it, and a failing W2 keeps its GEN and LOCK (R196). -/
def writtenSlot (sl : Slot) (c : TblCmd) : Slot :=
  let mask := BitVec.ofNat 12 (leAt c.bytes 2 2)
  let pure := mask &&& words [9, 10]
  let e := sl.entry.writeH c.entry (mask &&& (~~~sl.perr ||| words [9, 10]))
  let perr := sl.perr &&& ~~~pure
  let w2 := sl.perr.getLsbD 2
  { entry := if w2 then e else { e with gen := e.gen + 1, lock := e.lock && !(leAt c.bytes 1 1).testBit 1 },
    bad := sl.bad && perr ≠ 0, perr := perr }

/-- The written slot is stored; UNLOCK ends the lock's time limit (R193); the maps' users follow the entry (R162). -/
def State.tblStore (s : State) (c : TblCmd) (loc : Nat) (sl new : Slot) : State :=
  let e := new.entry
  let s := { s with
    ntb.slots := mput s.ntb.slots loc new,
    ntb.locks := if (leAt c.bytes 1 1).testBit 1 then s.ntb.locks.filter (fun p => p.1 ≠ e.handle.toNat) else s.ntb.locks }
  if e.tmap = sl.entry.tmap then s else (s.users e.tmap.toNat true).users sl.entry.tmap.toNat false

/-- WRITE (R177, R182, R183, R194, R196). -/
def State.tblWrite (s : State) (c : TblCmd) : TblDone × State :=
  let pr := s.cmdSlot c.handle
  let s := pr.2
  match pr.1 with
  | none => (c.fail stREFUSED 0x04, s)
  | some (loc, sl) =>
    if c.genMiss sl.entry then (c.about sl.entry loc stREFUSED 0x05, s)
    else
      let new := writtenSlot sl c
      let s := s.tblStore c loc sl new
      (c.about new.entry loc stCOMPLETED 0,
        if new.bad then s else s.afterWrite new.entry (BitVec.ofNat 12 (leAt c.bytes 2 2)))

/-- READ (R183). -/
def State.tblRead (s : State) (c : TblCmd) : TblDone × State :=
  let pr := s.cmdSlot c.handle
  let s := pr.2
  match pr.1 with
  | none => (c.fail stREFUSED 0x04, s)
  | some (loc, sl) =>
    ({ c.about sl.entry loc stCOMPLETED 0 with entry := some sl.entry.bytes, par := if sl.bad then sl.perr else 0 }, s)

/-- REMOVE (R183, R195, R196): a BAD entry's frames are withdrawn through its anchors, or by a purge. -/
def State.tblRemove (s : State) (c : TblCmd) : TblDone × State :=
  let pr := s.cmdSlot c.handle
  let s := pr.2
  match pr.1 with
  | none => (c.fail stREFUSED 0x04, s)
  | some (loc, sl) =>
    let e := sl.entry
    if c.genMiss e then (c.about e loc stREFUSED 0x05, s)
    else if e.qne && !sl.bad then (c.about e loc stREFUSED 0x06, s)
    else
      let s := s.removeAt loc e
      let s := if !sl.bad then s
        else if e.qne && !sl.perr.getLsbD 3 && !sl.perr.getLsbD 11 then (s.removeFrames e.handle).2
        else { s with car.purge := s.car.purge ++ [e.handle] }
      (c.about e loc stCOMPLETED 0, s)

/-- LOCK (R183, R193). -/
def State.tblLock (s : State) (c : TblCmd) : TblDone × State :=
  let pr := s.cmdSlot c.handle
  let s := pr.2
  match pr.1 with
  | none => (c.fail stREFUSED 0x04, s)
  | some (loc, sl) =>
    if sl.entry.lock then (c.about sl.entry loc stREFUSED 0x07, s)
    else
      let e := { sl.entry with lock := true }
      let s := { s with
        ntb.slots := mput s.ntb.slots loc { sl with entry := e },
        ntb.locks := s.ntb.locks.filter (fun p => p.1 ≠ e.handle.toNat) ++ [(e.handle.toNat, s.sys.uptime)] }
      ({ c.about e loc stCOMPLETED 0 with entry := some e.bytes, par := if sl.bad then sl.perr else 0 }, s)

/-- LOOKUP (R178, R179, R183): probes only. -/
def State.tblLookup (s : State) (c : TblCmd) : TblDone × State :=
  let pr := s.probe (BitVec.ofNat 64 (leAt c.entry 0 8)) 0
  let l := pr.1
  let s := pr.2
  let s := s.countLookup l.isSome
  match l.bind (fun loc => (mget s.ntb.slots loc).map (fun sl => (loc, sl))) with
  | some (loc, sl) => ({ c.about sl.entry loc stCOMPLETED 0 with entry := some sl.entry.bytes }, s)
  | none => (c.fail stREFUSED 0x04, s)

/-- Commands at the front that an ABORT ended, or whose OP the table does not know, are reported (R182, R183). -/
def State.tblSkip (s : State) (n : Nat) : State :=
  match n with
  | 0 => s
  | n + 1 =>
    match s.ntb.cmdQ with
    | [] => s
    | c :: rest =>
      if c.aborted then
        (({ s with ntb.cmdQ := rest }).tblReport (c.fail stABORTED 0)).tblSkip n
      else if c.op = 0 || 6 < c.op then
        (({ s with ntb.cmdQ := rest }).tblReport (c.fail stREFUSED 0x0B)).tblSkip n
      else s

/-- A table command joins NTB's queue (R184). -/
def State.tblPost (s : State) (c : TblCmd) : State :=
  let s := { s with ntb.cmdQ := s.ntb.cmdQ ++ [c] }
  if s.runs .NTB then s.tblSkip s.ntb.cmdQ.length else s

/-- Run the command at the front of NTB's queue if it has opcode `op` (R184). -/
def State.tblStep (s : State) (op : Nat) (f : State → TblCmd → TblDone × State) : State :=
  match s.ntb.cmdQ with
  | [] => s
  | c :: rest =>
    if s.runs .NTB && c.op = op && !c.aborted then
      let pr := f { s with ntb.cmdQ := rest } c
      let d := pr.1
      let s := pr.2
      (s.tblReport d).tblSkip rest.length
    else s

/-- TBL_INSERT (R186). -/
def execTblInsert (s : State) : Host.Outcome State Fault Refusal := .next (s.tblStep 1 State.tblInsert)

/-- TBL_WRITE (R183). -/
def execTblWrite (s : State) : Host.Outcome State Fault Refusal := .next (s.tblStep 2 State.tblWrite)

/-- TBL_READ (R183). -/
def execTblRead (s : State) : Host.Outcome State Fault Refusal := .next (s.tblStep 3 State.tblRead)

/-- TBL_REMOVE (R183). -/
def execTblRemove (s : State) : Host.Outcome State Fault Refusal := .next (s.tblStep 4 State.tblRemove)

/-- TBL_LOCK (R183). -/
def execTblLock (s : State) : Host.Outcome State Fault Refusal := .next (s.tblStep 5 State.tblLock)

/-- TBL_LOOKUP (R183). -/
def execTblLookup (s : State) : Host.Outcome State Fault Refusal := .next (s.tblStep 6 State.tblLookup)

/-- PURGE_END (R265): the purge ends; the next one that waits goes on. -/
def execPurgeEnd (s : State) : Host.Outcome State Fault Refusal :=
  match s.car.purge with
  | [] => .next s
  | h :: rest =>
    let pr := ({ s with car.purge := rest }).removeFrames h
    let n := pr.1
    let s := pr.2
    .next ((s.bumpN Reg.CAR_PURGED n).ev Reg.CAR_CAR_EVT 6 104)

/-! ### Stash drain, sweeper, locks (R187, R190 to R193) -/

/-- STASH_DRAIN_TICK (R187): one attempt, on the next occupied stash entry that is neither locked nor BAD. -/
def execStashDrainTick (s : State) : Host.Outcome State Fault Refusal :=
  if s.on Reg.NTB_STASH_DRAIN && s.runs .NTB && !s.standby then
    let order := (List.range 16).map (fun k => (s.ntb.drainAt + 1 + k) % 16)
    let pick := order.find? (fun i => match mget s.ntb.slots (stashLoc i) with
      | some sl => !sl.bad && !sl.entry.lock
      | none => false)
    match pick with
    | none => .next s
    | some i =>
      let s := { s with ntb.drainAt := i }
      match mget s.ntb.slots (stashLoc i) with
      | none => .next s
      | some sl =>
        let pr := s.checkWords (stashLoc i) sl 3
        let s := pr.2
        if !pr.1 then .next s
        else
          let pr := s.findPlace sl.entry.eui
          match pr.1 with
          | some (d, _) => .next ((pr.2.move (stashLoc i) d).bump Reg.NTB_DRAINED)
          | none => .next pr.2
  else .next s

/-- SWEEP_VISIT (R190, R193, R196): the slot at SWEEP_POS. -/
def execSweepVisit (s : State) : Host.Outcome State Fault Refusal :=
  if s.rd Reg.NTB_SWEEP_PER = 0 || !s.runs .NTB || s.standby then .next s
  else
    let pos := s.rd Reg.NTB_SWEEP_POS
    let s := s.wr Reg.NTB_SWEEP_POS (if pos = 0x4000F then 0 else pos + 1)
    match mget s.ntb.slots pos with
    | none => .next s
    | some sl =>
      if sl.bad then .next s
      else
        let pr := s.checkWords pos sl 2
        let s := pr.2
        if !pr.1 then .next s
        else
          let e := sl.entry
          if e.lock || e.pin || e.qne then .next s
          else if e.hit then
            .next { s with ntb.slots := mput s.ntb.slots pos { sl with entry := { e with hit := false, amark := false } } }
          else if e.amark then .next { s with ntb.sweepCmp := some pos }
          else .next { s with ntb.slots := mput s.ntb.slots pos { sl with entry := { e with amark := true } } }

/-- COMPARE_REMOVE (R190, R192, R196): the second access of the third case. It tests HIT alone; a slot that fails its parity
or has become BAD is not aged. -/
def execCompareRemove (s : State) : Host.Outcome State Fault Refusal :=
  match s.ntb.sweepCmp with
  | none => .next s
  | some loc =>
    let s := { s with ntb.sweepCmp := none }
    match mget s.ntb.slots loc with
    | none => .next s
    | some sl =>
      let e := sl.entry
      let pr := if sl.bad then (false, s) else s.checkWords loc sl 2
      let s := pr.2
      if !pr.1 then .next s
      else if e.hit then
        let s := { s with ntb.slots := mput s.ntb.slots loc { sl with entry := { e with hit := false, amark := false } } }
        .next (s.bump Reg.NTB_AGE_SAVED)
      else
        let s := (s.removeAt loc e).record 0x12 (tableEvent 1 e.gen (some e.handle) 0 e.eui)
        .next ((s.bump Reg.NTB_AGED).ev Reg.NTB_NTB_EVT 3 72)

/-- LOCK_TIMEOUT (R193): a lock held for LOCK_TMO ms is cleared, of a BAD entry too while W2 checks (R183). -/
def execLockTimeout (handle : BitVec 18) (s : State) : Host.Outcome State Fault Refusal :=
  if s.runs .NTB && s.ntb.locks.any (fun p => p.1 = handle.toNat) then
    let s := { s with ntb.locks := s.ntb.locks.filter (fun p => p.1 ≠ handle.toNat) }
    let pr := s.dirLoc handle
    let s := pr.2
    match pr.1.bind (fun loc => (mget s.ntb.slots loc).map (fun sl => (loc, sl))) with
    | some (loc, sl) =>
      let ck := if sl.bad then (!sl.perr.getLsbD 2, s) else s.checkWords loc sl 5
      let s := ck.2
      let e := { sl.entry with lock := false }
      if !ck.1 || sl.entry.handle ≠ handle then .next s
      else
      let s := { s with ntb.slots := mput s.ntb.slots loc { sl with entry := e } }
      let s := s.record 0x12 (tableEvent 3 e.gen (some handle) 0 e.eui)
      .next ((s.bump Reg.NTB_LOCK_EXP).ev Reg.NTB_NTB_EVT 4 72)
    | none => .next s
  else .next s

end Sys2Proof.Machine
end

