-- ==== Sys2Proof/Machine/Wake.lean ====
section
/-!
DEFINITION. The commands of the wake schedule: bucket processing with the gap grants, the overflow list, the hourly clamp,
the prediction probe (R206 to R222, R398).
-/

namespace Sys2Proof.Machine

/-- DL_FRAMEs may be dispatched: every start beacon has been sent or missed (R221). -/
def State.dlOpen (s : State) : Bool := s.rd Reg.SYS_BOOT_STAGE = 0xD

/-- A live event of bucket `m` (R211): the entry and its next wake, if the handle names an entry with WHEELED = 1 whose
next wake is the event's and falls in this bucket. An event placed into a bucket already processed is tested at its own
millisecond (log entry 29). -/
def State.liveEvent (s : State) (v : WEvent) (m : Nat) : Option (Entry × Int) :=
  match s.entry v.handle with
  | none => none
  | some e =>
    if e.wheeled && e.wakeInt ≠ 0 then
      let w := wakeMs e (nextWakeAt e (1000 * (min m (WEvent.ms v) : Nat)))
      if (w % 2 ^ 32).toNat = v.wk && (wakeP e w / 1000).toNat = WEvent.ms v then some (e, w) else none
    else none

/-- P of an event by the model as it stands (R207, R211, R212); of a stale one, P as it was placed. -/
def State.eventP (s : State) (v : WEvent) (m : Nat) : Int :=
  match s.liveEvent v m with
  | some (e, w) => wakeP e w
  | none => v.p

/-- The head of a node's queue is offered for a wake at `p`, mesh µs, with Δ = `d` (R212, R221). A node with a try not yet settled is
offered nothing: the outcome places it (R261; log entry 30). -/
def State.offerWake (s : State) (h : BitVec 18) (p d : Nat) : State :=
  if s.sch.tries.any (fun t => t.kind = .dl && t.handle = h) then s
  else
    let n := s.sch.tries.length
    let s := s.offerHead h (p * 1000) d false
    if n < s.sch.tries.length then s.wrap Reg.SCH_DISPATCHED else s

/-- One event of a bucket (R211, R212). On a standby, and on an active unit in the last steps of a swap, a live event is
offered nothing, moves no counter and is placed at its next wake (R398, R409); before the last start beacon it is a wake that never committed (R221). -/
def State.wakeEvent (s : State) (m : Nat) (v : WEvent) : State :=
  match s.liveEvent v m with
  | none => if s.standby then s else s.bump Reg.SCH_STALE
  | some (e, w) =>
    let p := wakeP e w
    let s := s.updEntry e.handle (fun e => { e with wheeled := false })
    if s.quiet then s.placeAfter e.handle p
    else if !s.dlOpen then if e.qne then s.placeAfter e.handle p else s
    else
      let s := s.wrap Reg.SCH_WAKES
      let u := uncertainty e (wakeDelta e w)
      if e.state ≠ .active then s
      else if !s.chanLive e.chan then s.unreach e.handle
      else if wmaxUs e.wcls < u then s.driftGuard e u
      else s.offerWake e.handle p.toNat (wakeDelta e w)

/-- Insert an event by ascending P, ties by ascending handle (R212). -/
def sortEvent (v : Int × WEvent) (l : List (Int × WEvent)) : List (Int × WEvent) :=
  match l with
  | [] => [v]
  | x :: t =>
    if v.1 < x.1 || (v.1 = x.1 && v.2.handle.toNat ≤ x.2.handle.toNat) then v :: x :: t else x :: sortEvent v t

/-! ### Calibration gaps (R222) -/

/-- The first beacon instant of slot `i` at or after mesh ns `a` (R220). -/
def State.beaconFrom (s : State) (i a : Nat) : Nat :=
  let t := s.rd Reg.SCH_BCN_INT * 100000000
  let o := i * 10000000
  ceilDiv (a - o) t * t + o

/-- A beacon slot is served: enabled, its plan entry live, its group enabled (R220). -/
def State.beaconOn (s : State) (i : Nat) : Bool :=
  let c := BitVec.ofNat 8 (s.rdI Reg.SCH_BCN_ENT i)
  (s.rdI Reg.SCH_BCN_CFG i).testBit 0 && s.chanLive c && s.on (Reg.FE_GRP_EN (s.chanGrp c))

/-- The start beacon of slot `i`, while it is due (R221). -/
def State.startAt (s : State) (i : Nat) : Option Nat :=
  if s.sys.startLeft.contains i then
    some (s.sys.bootAt + 3000000 + i * 10000000)
  else none

/-- The next block instant of session `i` at or after mesh ns `a` (R249). MC_START names an instant modulo 2^32 ms. -/
def State.blockFrom (s : State) (i a : Nat) : Nat :=
  let ms := ceilDiv a 1000000
  let d := (ms + 2 ^ 32 - s.rdI Reg.SCH_MC_START i % 2 ^ 32) % 2 ^ 32
  let b := s.rdI Reg.SCH_MC_BINT i
  let w := if d < 2 ^ 31 then ms + (b - d % b) % b else ms + (2 ^ 32 - d)
  w * 1000000

/-- Stage 11 has begun its beacons, or they run (R221). -/
def State.beaconsRun (s : State) : Bool :=
  s.runs .SCH && !s.quiet && s.on Reg.TIM_TIME_SET &&
    (s.rd Reg.SYS_BOOT_STAGE = 0xB || s.rd Reg.SYS_BOOT_STAGE = 0xD)

/-- A beacon or block of the group has its first symbol from `a` to `b` (R222): one that is dispatched already, or one that
is to come. -/
def State.plannedIn (s : State) (g : Grp) (a b : Nat) : Bool :=
  s.sch.tries.any (fun t => (t.kind = .beacon || t.kind = .mc) && t.grp = g && a ≤ t.first && t.first ≤ b) ||
  s.beaconsRun && (List.range 8).any (fun i => s.beaconOn i && s.chanGrp (BitVec.ofNat 8 (s.rdI Reg.SCH_BCN_ENT i)) = g &&
    (s.beaconFrom i a ≤ b || match s.startAt i with
      | some t => a ≤ t && t ≤ b
      | none => false)) ||
  (List.range 8).any (fun i => s.serves i && s.chanLive (BitVec.ofNat 8 (s.rdI Reg.SCH_MC_ENT i)) &&
    s.chanGrp (BitVec.ofNat 8 (s.rdI Reg.SCH_MC_ENT i)) = g && s.blockFrom i a ≤ b)

/-- GAPS_L, GAPS_H and GAPS_I. -/
def gapsOf (g : Grp) : Fld :=
  match g with
  | .L => Reg.SCH_GAPS_L
  | .H => Reg.SCH_GAPS_H
  | .I => Reg.SCH_GAPS_I

/-- Grant a group its gap at the boundary that begins bucket `m - 1`, as bucket `m` is processed (R222); on a standby
every pending request is granted (R397). `live` holds the groups with a live event in either bucket. -/
def State.grantGap (s : State) (m : Nat) (live : List Nat) (g : Grp) : State :=
  let x := s.fe g
  let at_ := (m - 1) * 1000000
  if (x.cal.isSome || x.tune.isSome) && !x.gap && (s.standby ||
      (!s.sch.tries.any (fun t => t.grp = g && t.first - turnNs ≤ at_ && at_ < t.first + t.dur + turnNs) &&
        !live.contains g.code && !s.plannedIn g at_ (at_ + 2120000))) then
    (s.setFe g { x with gap := true }).bump (gapsOf g)
  else s

/-- BUCKET_PROCESS (R212, R222): the next bucket whose instant, 3 ms before it, has come. SCH reads entries for it, and so
waits while NTB is stopped (R16). -/
def execBucketProcess (s : State) : Host.Outcome State Fault Refusal :=
  let m := match s.sch.lastBucket with
    | some b => b + 1
    | none => s.ms + 3
  if !s.on Reg.TIM_TIME_SET || !s.runs .SCH || !s.runs .NTB || s.ms + 3 < m then .next s
  else
    let due := s.sch.wheel.filter (fun v => WEvent.ms v ≤ m)
    let evs := ((due.map (fun v => (s.eventP v m, v))).foldr sortEvent []).map (fun x => x.2)
    let liveG := evs.filterMap (fun v => (s.liveEvent v m).map (fun x => (s.chanGrp x.1.chan).code))
    let live := s.sch.liveGrps ++ liveG
    let s := { s with
      sch.wheel := s.sch.wheel.filter (fun v => m < WEvent.ms v), sch.lastBucket := some m, sch.liveGrps := liveG }
    let s := if s.standby then s else s.peak Reg.SCH_BKT_PEAK (min evs.length 1023)
    let s := allGrps.foldl (fun s g => s.grantGap m live g) s
    .next (evs.foldl (fun s v => s.wakeEvent m v) s)

/-- OVERFLOW_MOVE (R209): the earliest overflow event goes to its bucket once the wheel reaches that far. -/
def execOverflowMove (s : State) : Host.Outcome State Fault Refusal :=
  match s.sch.ovf with
  | [] => .next s
  | v :: rest =>
    if s.runs .SCH && WEvent.ms v < s.bucketNow + 65536 then
      .next { s with sch.ovf := rest, sch.wheel := s.sch.wheel ++ [v] }
    else .next s

/-- HOURLY_CONTACT_CLAMP (R206): LAST_CONTACT of every entry is kept within 2^30 ms of now. -/
def execHourlyContactClamp (s : State) : Host.Outcome State Fault Refusal :=
  if s.runs .SCH && s.runs .NTB && !s.standby then
    let now := BitVec.ofNat 32 s.ms
    .next (s.ntb.slots.foldl (fun s (p : Nat × Slot) =>
      if 2 ^ 30 < (now - p.2.entry.lastContact).toNat then
        s.updEntry p.2.entry.handle (fun e => { e with lastContact := now - BitVec.ofNat 32 (2 ^ 30) })
      else s) s)
  else .next s

/-- The prediction probe under way ends (R227): it computes the next wake of its handle and moves nothing. It reads the
entry, and so waits while SCH or NTB is stopped (R16). -/
def State.predRun (s : State) : State :=
  match s.sch.pred with
  | none => s
  | some h =>
    if !s.runs .SCH || !s.runs .NTB then s
    else
      let s := { s with sch.pred := none }
      let pr := s.readEntry h
      let s := pr.2
      match pr.1 with
      | none => s.wr Reg.SCH_PRED_STAT 3
      | some e =>
        if e.wakeInt = 0 then s.wr Reg.SCH_PRED_STAT 3
        else
          let w := wakeMs e (nextWake e s.us)
          let u := uncertainty e (wakeDelta e w)
          let s := (s.wr Reg.SCH_PRED_STAT 2).wr Reg.SCH_PRED_FIT (b2n (decide (u ≤ wmaxUs e.wcls)))
          (s.wr Reg.SCH_PRED_TIME ((wakeP e w * 1000) % 2 ^ 64).toNat).wr Reg.SCH_PRED_U (min u 0xFFFFFFFF)

/-- The effect of a value written to PRED_CMD (R227): none while a probe is under way. -/
def State.predCmd (s : State) (v : Nat) : State :=
  if v % 2 = 0 || s.rd Reg.SCH_PRED_STAT = 1 then s
  else
    ({ s.wr Reg.SCH_PRED_STAT 1 with sch.pred := some (BitVec.ofNat 18 (s.rd Reg.SCH_PRED_HANDLE)) }).predRun

/-- PRED_CMD: the host writes 1 (R227). -/
def execPredCmd (s : State) : Host.Outcome State Fault Refusal := .next (s.hostOp .SCH (fun s => s.predCmd 1))

end Sys2Proof.Machine
end

