-- ==== Sys2Proof/Machine/AirExchange.lean ====
section
/-!
DEFINITION. The commands of the air exchange: classification of uplinks with their acknowledgements, joining, the close of
an acknowledgement window, beacons, multicast blocks, aborts (R220, R230 to R251, R268, R427).
-/

namespace Sys2Proof.Machine

/-! ### Acknowledgements (R235 to R237, R247) -/

/-- Withdraw a declared acknowledgement (R104, R237). -/
def State.withdrawAck (s : State) (id : Nat) : State :=
  if s.sch.acks.any (fun a => a.id = id) then
    let s := { s with sch.acks := s.sch.acks.filter (fun a => a.id ≠ id) }
    (s.pullItems (fun f => f.kind = TxKind.ack && f.idx = id)).bump Reg.SCH_ACK_WD
  else s

/-- The first-symbol instant of the downlink that PEND announces: the later of 240 µs after the acknowledgement's end and
2,000 µs after its GRANT check (R247). -/
def State.oppFirst (s : State) (a : AckDecl) (dur : Nat) : Nat :=
  let t := a.endTime + turnNs
  max (t + dur + 240000) (t - s.rd (Reg.FE_RAMP a.grp) * 1000 - 10000 + 2000000)

/-- The conditions of PEND = 1 (R221, R247). -/
def State.pend (s : State) (a : AckDecl) (e : Entry) (dur : Nat) : Bool :=
  s.on Reg.SCH_OPP_DL && s.dlOpen && e.state = .active && e.nlp = 4 && e.qne &&
    !s.sch.tries.any (fun t => t.kind = .dl && t.handle = e.handle) &&
    match (s.nodeQ e.handle).items.head? with
    | none => false
    | some it =>
      match it.hdr with
      | none => false
      | some hd =>
        let p := s.oppFirst a dur
        let f := s.buildDl e hd it.body p (wakeDelta e (p / 1000000 : Nat)) 0
        !expired hd p && !s.ackClash f.grp p (s.airtime f) && !s.mcClash e p

/-- FW of the device acknowledgement element (R236). -/
def State.fwFlag (s : State) (e : Entry) : Bool :=
  2 ≤ e.nlp.toNat && (List.range 8).any (fun i => s.serves i && s.rdI Reg.SCH_MC_GRPID i = e.mcGrp.toNat)

/-- SCH fills the declared acknowledgement of a classified uplink and sends it to KEY (R235, R236); `e`: the entry after
the contact update, none for an UNKNOWN frame. -/
def State.buildAck (s : State) (u : UlItem) (e : Option Entry) : State :=
  match s.sch.acks.find? (fun a => a.id = u.id) with
  | none => s
  | some a =>
    let ofs : Int := match e with
      | some e => e.clkOfs.toInt
      | none => 0
    let rb := decide (1000000 < ofs.natAbs)
    let dur := s.ackDur a.opt a.mcs rb
    let opp := match e with
      | some e => s.pend a e dur
      | none => false
    let fw := match e with
      | some e => s.fwFlag e
      | none => false
    let ver := match e with
      | some e => e.nlp.toNat
      | none => 0
    let elem := [BitVec.ofNat 8 (b2n rb + 2 * b2n opp + 4 * b2n fw + 8 * ver)] ++ leBytes 2 (u.psdu.fc.toNat % 65536) ++
      (if rb then leBytes 4 (BitVec.ofInt 32 ofs).toNat else [])
    let f := plainItem .ack a.grp a.chan a.opt a.mcs u.psdu.eui u.id 12 (a.endTime + turnNs) dur s.epochCur
    let c : EntryCopy := match e with
      | some e => { (e.copy u.psdu.dsn 0) with chan := a.chan, opt := a.opt, mcs := a.mcs, tl := false }
      | none => { f.copy with dsn := u.psdu.dsn }
    let h := match e with
      | some e => some e.handle
      | none => none
    let s : State := { s with
      sch.acks := s.sch.acks.map (fun x =>
        if x.id = u.id then { x with classified := true, opp := if opp then h else none } else x) }
    let body := ackMpdu u.psdu.dsn (s.rd Reg.SCH_IE_ACK_ID, elem)
    (s.sendKey { f with seq := s.localNext 8, copy := c, body := body }).localBump 8

/-! ### Acceptance and delivery (R230 to R234) -/

/-- The classes of an uplink whose lookup hit (R230). -/
inductive UlClass where
  | fresh | duplicate | replay
deriving DecidableEq, Repr

/-- accept() of R230. -/
def accept (e : Entry) (fc : Word) (dsn : Byte) : UlClass × Entry :=
  if e.fcntUl.toNat < fc.toNat then (.fresh, { e with fcntUl := fc, dsnUl := dsn })
  else if dsn = e.dsnUl then (.duplicate, e)
  else (.replay, e)

/-- The receive metadata of an uplink (R256, R276). -/
def ulInfo (u : UlItem) : RxInfo :=
  { handle := u.copy.map (fun c => c.handle),
    gen := match u.copy with
      | some c => c.gen
      | none => 0,
    ulSeq := u.ulSeq,
    nlp := match u.copy with
      | some c => c.nlp
      | none => 0,
    epoch := u.epoch, rx := u.rx, eui := u.psdu.eui, fcnt := u.psdu.fc, dsn := u.psdu.dsn }

/-- Deliver a FRESH uplink to its receive queue (R267). -/
def State.deliver (s : State) (u : UlItem) (h : BitVec 18) : State :=
  let q := h.toNat % s.rd Reg.CAR_UL_RINGS
  s.deviceItem q (some (devHdr 4 q u.ulSeq h (some (ulInfo u)))) u.psdu.body

/-- A node acknowledgement settles the try it answers (R240, R241): an Enh-Ack on the downlink's plan entry that ends
within the window, with NAK_MAP = 1, of a node with NLP 3 or more (R248), or with the downlink's DSN. -/
def State.nodeAck (s : State) (u : UlItem) (h : BitVec 18) : State :=
  let hit := s.sch.tries.find? (fun t =>
    t.kind = .dl && t.handle = h && t.committed && t.chan = u.rx.chan &&
      t.first + t.dur + turnNs ≤ u.rx.endTime && u.rx.endTime ≤ t.first + t.dur + s.ackWin)
  let nak := match s.ackIe u.psdu with
    | some b => (leAt b 0 1).testBit 0
    | none => false
  match hit with
  | some t =>
    if !u.psdu.enhAck then s
    else if nak && (u.copy.map (fun c => c.nlp.toNat)).any (fun n => 3 ≤ n) then s.tryEnd t .nak
    else if u.psdu.dsn = t.dsn then s.tryEnd t .acked
    else s
  | none => s

/-- The contact and join effects of R205, R234 and R248 on the entry of a frame that is FRESH
or DUPLICATE. -/
def State.contactFrame (s : State) (u : UlItem) (h : BitVec 18) : State :=
  let s := match s.joinIe u.psdu with
    | some j => s.updEntry h (fun e =>
        if e.state = NodeState.joining then
          { e with nlp := clampNlp (min (min (bits (leAt j 0 1) 0 3) e.nlp.toNat) (s.rd Reg.SCH_NLP_CAP)) }
        else e)
    | none => s
  match s.tsIe u.psdu with
  | none => s.bump Reg.SCH_NO_TSIE
  | some b =>
    let t := tsOf b
    let s := s.contact h t u.rx.endTime
    match s.entry h with
    | some e =>
      if e.state = NodeState.joining && (s.joinIe u.psdu).isNone && t.ver = e.nlp.toNat then
        let s := s.updEntry h (fun e => { e with state := NodeState.active })
        if e.qne then s.placeNode h else s
      else s
    | none => s

/-- An uplink whose lookup hit (R230, R231). One whose entry has since been removed or is BAD is delivered under its copy
(R25, R192; log entry 31). -/
def State.classifyHit (s : State) (u : UlItem) (c : EntryCopy) : State :=
  match s.entry c.handle with
  | none => ((s.wrap Reg.SCH_UL_ACCEPTED).buildAck u none).deliver u c.handle
  | some e =>
    let pr := accept e u.psdu.fc u.psdu.dsn
    let cls := pr.1
    let e' := pr.2
    match cls with
    | .replay => ((s.bump Reg.SCH_REPLAY).ev Reg.SCH_AX_EVT 2 88).withdrawAck u.id
    | .fresh | .duplicate =>
      let s := (s.updEntry c.handle (fun _ => e')).contactFrame u c.handle
      let s := s.nodeAck u c.handle
      let s := s.buildAck u (s.entry c.handle)
      if cls = .fresh then (s.wrap Reg.SCH_UL_ACCEPTED).deliver u c.handle else s.bump Reg.SCH_DUP_UL

/-- An UNKNOWN uplink (R231, R233). -/
def State.classifyMiss (s : State) (u : UlItem) : State :=
  let s := (s.bump Reg.SCH_UNKNOWN).buildAck u none
  let s := if s.on Reg.SCH_JOIN_AUTO && (s.joinIe u.psdu).isSome then { s with sch.joinQ := s.sch.joinQ ++ [u] } else s
  if s.on Reg.SCH_UNK_DELIVER then
    s.deviceItem 0x10 (some (devHdr 5 (s.rd Reg.CAR_UNK_RING) 0 0 (some (ulInfo u)))) u.psdu.body
  else s.bump Reg.SCH_UNK_DROP

/-- UL_CLASSIFY (R230 to R237): the uplink that KEY has authenticated. On a standby it is counted and discarded (R397). It
waits while NTB, whose entry the acceptance update reads, is stopped (R16); its delivery waits for CAR. -/
def execUlClassify (s : State) : Host.Outcome State Fault Refusal :=
  match s.sch.ul with
  | [] => .next s
  | u :: rest =>
    if !s.runs .SCH || !s.runs .NTB then .next s
    else
      let s := { s with sch.ul := rest }
      if s.quiet then .next (s.bump Reg.TWN_STBY_RX)
      else
        match u.copy with
        | some c => .next (s.classifyHit u c)
        | none => .next (s.classifyMiss u)

/-! ### Joining (R233) -/

/-- The entry of R233 for a join request; a request without a timestamp element has no stated CLK_OFS: a free value
(log entry 1). -/
def State.joinEntry (s : State) (u : UlItem) (j : List Byte) (h : BitVec 18) : Entry :=
  let ofs : BitVec 32 := match s.tsIe u.psdu with
    | some b => BitVec.ofInt 32 ((tsOf b).time - (u.rx.endTime / 1000 : Nat))
    | none => BitVec.ofNat 32 (s.freeVal 32)
  { eui := u.psdu.eui, handle := h, state := .joining, lock := false, hit := false, amark := false, gen := 0,
    chan := u.rx.chan, opt := u.rx.opt, mcs := clampMcs u.rx.opt u.rx.mcs.toNat, tl := false, tmap := 0,
    nlp := clampNlp (min (bits (leAt j 0 1) 0 3) (s.rd Reg.SCH_NLP_CAP)), pin := false, wheeled := false, qne := false,
    fcntUl := u.psdu.fc, dsnUl := u.psdu.dsn, dsnDl := 0, ulSeq := 0,
    lastContact := BitVec.ofNat 32 (u.rx.endTime / 1000000), clkOfs := ofs, drift := 0,
    dNode := BitVec.ofNat 4 (leAt j 1 1), g0 := BitVec.ofNat 8 (leAt j 2 1), miss := 0,
    wakeInt := BitVec.ofNat 24 (leAt j 3 3), repeatLim := BitVec.ofNat 4 (s.rd Reg.SCH_JOIN_REPEAT),
    wcls := BitVec.ofNat 4 (leAt j 1 1 / 16), wakePhase := BitVec.ofNat 24 (leAt j 6 3), mcGrp := 0xFF, qHead := 0,
    qTail := 0 }

/-- An insertion under R233 that failed. -/
def State.joinFail (s : State) : State := (s.bump Reg.SCH_JOIN_FAIL).ev Reg.SCH_AX_EVT 1 88

/-- Insert the entry of a join request with ALLOC = 1 (R181, R186, R233). -/
def State.joinPut (s : State) (u : UlItem) (j : List Byte) : State :=
  if u.psdu.eui = 0 || u.psdu.eui = BitVec.allOnes 64 then s.joinFail
  else
    let pr := s.probe u.psdu.eui 3
    let s := pr.2
    if pr.1.isSome then s
    else
      let pr := s.nextHandle
      let s := pr.2
      match pr.1 with
      | none => s.noteFull.joinFail
      | some h =>
        let pr := (s.tick).insertUsers (s.joinEntry u j h)
        let s := pr.2
        if pr.1 = .full then s.noteFull.joinFail
        else (((s.bump Reg.NTB_INSERTS).wr Reg.NTB_LAST_ALLOC h.toNat).bump Reg.SCH_JOIN_NEW).ev Reg.SCH_AX_EVT 0 88

/-- JOIN_INSERT (R184, R233): the device table write of the oldest join request. -/
def execJoinInsert (s : State) : Host.Outcome State Fault Refusal :=
  match s.sch.joinQ with
  | [] => .next s
  | u :: rest =>
    if !s.runs .SCH || !s.runs .NTB then .next s
    else
      match s.joinIe u.psdu with
      | some j => .next (({ s with sch.joinQ := rest }).joinPut u j)
      | none => .next { s with sch.joinQ := rest }

/-- ACK_WINDOW_CLOSE (R240, R241): no acknowledgement has come for the node's committed try. -/
def execAckWindowClose (handle : BitVec 18) (s : State) : Host.Outcome State Fault Refusal :=
  match s.sch.tries.find? (fun t => t.kind = .dl && t.handle = handle && t.committed) with
  | some t => .next (if s.runs .SCH then s.tryEnd t .noAck else s)
  | none => .next s

/-! ### Beacons and multicast blocks (R220, R221, R249, R268) -/

/-- Release every beacon payload but the newest, in queue order, with REASON REPLACED (R268). -/
def State.trimBeacons (s : State) (n : Nat) : State :=
  match n with
  | 0 => s
  | n + 1 =>
    match (s.sysQ 0x14).items with
    | it :: _ :: _ =>
      let s := match it.hdr with
        | some h => s.settle h stCOMPLETED 0x0A
        | none => s
      (s.releaseSys 0x14).trimBeacons n
    | _ => s

/-- The octets of a beacon ahead of its payload: the device's own MAC header, which the manual does not state, a free value of
free octets (log entry 1), and the time element (R220). -/
def State.beaconOwn (s : State) (first : Nat) : List Byte :=
  (List.range (s.freeVal 6)).map (fun i => BitVec.ofNat 8 (Config.freeBits (s.free + 1 + i) 8)) ++
    ieBytes (s.rd Reg.SCH_IE_TS_ID, leBytes 8 first)

/-- The whole of a beacon but its FCS: what is the device's own, the payload, and room for the MIC of a secured one (R220,
R298). -/
def State.beaconBody (s : State) (own payload : List Byte) : List Byte :=
  let mic := if s.rd Reg.KEY_BCN_GRP = 0xFF then 0 else micLen (s.rd Reg.KEY_DL_SEC)
  own ++ payload.take (2047 - s.fcsLen - own.length - mic) ++ List.replicate mic 0

/-- Dispatch the beacon of a slot with first symbol at `first`. -/
def State.sendBeacon (s : State) (slot first : Nat) (start : Bool) : State :=
  let s := s.trimBeacons (s.sysQ 0x14).items.length
  let own := s.beaconOwn first
  let body := s.beaconBody own (((s.sysQ 0x14).items.head?.map (fun it => it.body)).getD [])
  let s := { s with free := s.free + 1 + s.freeVal 6 }
  let chan := BitVec.ofNat 8 (s.rdI Reg.SCH_BCN_ENT slot)
  let cfg := s.rdI Reg.SCH_BCN_CFG slot
  let opt := BitVec.ofNat 2 (bits cfg 1 2)
  let mcs := clampMcs opt (bits cfg 3 3)
  let dur := airNs (phrSyms opt) (body.length + s.fcsLen) (max 1 (nDbps opt mcs))
  let f := plainItem .beacon (s.chanGrp chan) chan opt mcs 0 slot 12 first dur s.epochCur
  let f := { f with seq := s.localNext 8, gid := BitVec.ofNat 8 (s.rd Reg.KEY_BCN_GRP), start := start,
                    own := own.length, body := body }
  let t : Try := { kind := .beacon, grp := f.grp, handle := 0, seq := 0, dsn := 0, chan := chan, idx := slot,
                   first := first, dur := dur, committed := false, start := start, opp := false, rep := 0 }
  let s : State := { s with sch.tries := s.sch.tries ++ [t], sch.bcnLast := mput s.sch.bcnLast slot first }
  (s.sendKey f).localBump 8

/-- BEACON_DISPATCH (R220, R221, R268): the slot's start beacon while it is due, else the first beacon of its grid that
lies 2 ms or more ahead, unless that one has been dispatched. A skipped slot dispatches nothing. -/
def execBeaconDispatch (slot : Fin 8) (s : State) : Host.Outcome State Fault Refusal :=
  let i := slot.val
  if !s.beaconsRun then .next s
  else
    let start := s.sys.startLeft.contains i
    let first := (s.startAt i).getD (s.beaconFrom i (s.sys.timeNs + 2000000))
    if (mget s.sch.bcnLast i).any (fun t => first ≤ t) then .next s
    else if !s.beaconOn i then .next (if start then s.startDone i else s)
    else .next (s.sendBeacon i first start)

/-- MC_BLOCK_DISPATCH (R249): the head block of the session for its next block instant 2 ms or more ahead. An instant whose
block was not sent is not used again. -/
def execMcBlockDispatch (sess : Fin 8) (s : State) : Host.Outcome State Fault Refusal :=
  let i := sess.val
  let q := s.sysQ (0x18 + i)
  if !s.runs .SCH || s.quiet || !s.on Reg.TIM_TIME_SET || !s.serves i || q.read ≠ 0 then .next s
  else
    let chan := BitVec.ofNat 8 (s.rdI Reg.SCH_MC_ENT i)
    let first := s.blockFrom i (s.sys.timeNs + 2000000)
    if (mget s.sch.mcLast i).any (fun t => first ≤ t) then .next s
    else if !s.chanLive chan then
      .next (({ s with sch.mcLast := mput s.sch.mcLast i first }).bumpI Reg.SCH_MC_MISSED i)
    else
      match q.items.head? with
      | none => .next s
      | some it =>
        let opt := BitVec.ofNat 2 (s.rdI Reg.SCH_MC_OPT i)
        let mcs := clampMcs opt (s.rdI Reg.SCH_MC_MCS i)
        let prio := match it.hdr with
          | some h => h.prio
          | none => 0
        let f := plainItem .mc (s.chanGrp chan) chan opt mcs 0 i prio first 0 s.epochCur
        let f := { f with seq := it.enq, host := true, gid := BitVec.ofNat 8 (s.rdI Reg.SCH_MC_GRPID i), body := it.body }
        let f := { f with dur := s.airtime f }
        let t : Try := { kind := .mc, grp := f.grp, handle := 0, seq := 0, dsn := 0, chan := chan, idx := i,
                         first := first, dur := f.dur, committed := false, start := false, opp := false, rep := 0 }
        let s := s.setSysQ (0x18 + i) { q with mark := 0, read := 1 }
        .next (({ s with sch.tries := s.sch.tries ++ [t], sch.mcLast := mput s.sch.mcLast i first }).sendKey f)

/-! ### Aborts (R251, R264, R427, R428) -/

/-- An ABORT meets one frame of a node (R251, R264): the state after, and whether it reached the frame before its commit
point. -/
def State.abortOne (s : State) (h : BitVec 18) (seq : BitVec 16) : Bool × State :=
  match Queue.find (s.nodeQ h) seq with
  | none => (false, s)
  | some i =>
    if (s.nodeQ h).read ≤ i then (true, s.releaseNode h i abortStatus 4)
    else if s.sch.held.any (fun p => p.1.handle = h && p.1.seq = seq) then
      (false, s.updHdr h i (fun x => { x with wd := true }))
    else
      let s := s.updHdr h i (fun x => { x with wd := true })
      match s.tryOf h seq with
      | some t =>
        if t.committed then (false, s)
        else
          let s := s.pullItems (fun f => f.kind = TxKind.dl && f.copy.handle = h && f.seq = seq)
          (true, s.tryEnd t (.never false))
      | none => (true, s.releaseNode h i abortStatus 4)

/-- Abort the frames of a node that `seqs` names, in order. -/
def State.abortFrames (s : State) (h : BitVec 18) (seqs : List (BitVec 16)) : Nat × State :=
  seqs.foldl (fun (r : Nat × State) q =>
    let pr := r.2.abortOne h q
    (r.1 + b2n pr.1, pr.2)) (0, s)

/-- ABORT of a table command (R183, R427). -/
def State.abortTable (s : State) (seq : BitVec 16) : Nat × State :=
  let n := (s.ntb.cmdQ.filter (fun c => c.seq = seq && !c.tunnel && !c.aborted)).length
  let q := s.ntb.cmdQ.map (fun c => if c.seq = seq && !c.tunnel then { c with aborted := true } else c)
  (n, ({ s with ntb.cmdQ := q }).tblSkip q.length)

/-- Every island on the path of an abort runs (R427). -/
def State.abortPath (s : State) (kind : Nat) : Bool :=
  if kind = 3 then s.runs .NTB
  else s.runs .CAR && s.runs .SCH && s.runs .PHY && s.runs .FEL && s.runs .FEH && s.runs .FEI

/-- Run the abort that is pending once its path is free (R427). -/
def State.abortRun (s : State) : State :=
  match s.sys.abt with
  | none => s
  | some kind =>
    if !s.abortPath kind then s
    else
      let s := { s with sys.abt := none }
      let h := BitVec.ofNat 18 (s.rd Reg.SYS_ABT_HANDLE)
      let seq := BitVec.ofNat 16 (s.rd Reg.SYS_ABT_SEQ)
      let after := (s.nodeQ h).items.filterMap (fun x =>
        x.hdr.bind (fun hd => if laterEq hd.seq seq then some hd.seq else none))
      let pr := if kind = 1 then s.abortFrames h [seq] else if kind = 2 then s.abortFrames h after else s.abortTable seq
      (pr.2.wr Reg.SYS_ABT_HITS pr.1).wr Reg.SYS_ABT_STAT 2

/-- The effect of a value written to ABT_CMD (R427): REFUSED without an entry; no effect while an abort is pending or in
headless mode. -/
def State.abtCmd (s : State) (v : Nat) : State :=
  if v = 0 || s.rd Reg.SYS_ABT_STAT = 1 || s.headless then s
  else if v ≠ 3 && (s.slotOf (BitVec.ofNat 18 (s.rd Reg.SYS_ABT_HANDLE))).isNone then s.wr Reg.SYS_ABT_STAT 3
  else ({ (s.wr Reg.SYS_ABT_STAT 1) with sys.abt := some v }).abortRun

/-- ABT_FRAME: the host writes 0b01 to ABT_CMD (R251, R427). -/
def execAbtFrame (s : State) : Host.Outcome State Fault Refusal := .next (s.hostOp .SYS (fun s => s.abtCmd 1))

/-- ABT_NODE: the host writes 0b10 to ABT_CMD (R251, R427). -/
def execAbtNode (s : State) : Host.Outcome State Fault Refusal := .next (s.hostOp .SYS (fun s => s.abtCmd 2))

/-- ABT_TABLE: the host writes 0b11 to ABT_CMD (R183, R427). -/
def execAbtTable (s : State) : Host.Outcome State Fault Refusal := .next (s.hostOp .SYS (fun s => s.abtCmd 3))

end Sys2Proof.Machine
end

