-- ==== Sys2Proof/Machine/HostPort.lean ====
section
/-!
DEFINITION. The DMA rings of HST and the pop windows of CAR: doorbells, descriptor fetch and admission, receive delivery,
completions (R258, R267, R270 to R277, R382 to R384, R389, R408).
-/

namespace Sys2Proof.Machine

/-- A ring may fetch: enabled, neither fenced nor empty, HST at work, the unit no standby (R382, R397, R421). -/
def State.ringReady (s : State) (ring : Nat) : Bool :=
  s.dma && !s.standby && s.rdB Reg.HST_RING_EN 0 ring = 1 && s.rdB Reg.HST_RING_FENCED 0 ring = 0 &&
    s.rdB Reg.HST_RING_FETCH 0 ring ≠ s.rdB Reg.HST_RING_PROD 0 ring

/-- The descriptor at FETCH has been read. -/
def State.fetched (s : State) (ring : Nat) : State :=
  s.wrB Reg.HST_RING_FETCH 0 ring (s.rdB Reg.HST_RING_FETCH 0 ring + 1)

/-! ### Transmit (R258, R272 to R275, R408) -/

/-- The target of a transmit frame (R266, R273). -/
def txTarget (tgt : Nat) (h : BitVec 18) : Target :=
  if tgt = 0 then .node h else if tgt = 1 then .sys 0x14 else .sys (0x18 + (tgt - 2))

/-- Bytes 8 to 23 of a transmit descriptor as a frame (R243, R273, R389): `d` from byte 8, the frame's length before its
clamp, the bytes it names. `full`: OVR, OCHAN, OOPT, OMCS and TLPOL are read. -/
def State.readTx (s : State) (d : List Byte) (len : Nat) (buf : List Byte) (full : Bool) (ring : Nat) (idx : BitVec 16) :
    Nat × WaitItem :=
  let n := max 1 (min len (2047 - s.fcsLen))
  let tgt := min 9 (bits (leAt d 2 1) 0 4)
  let f := leAt d 3 1
  let node := tgt = 0
  let oopt := BitVec.ofNat 2 (leAt d 13 1)
  let h := BitVec.ofNat 18 (leAt d 4 3)
  let hdr : Hdr := {
    ikind := if node then 1 else if tgt = 1 then 3 else 2,
    wd := false, sendMap := false, handle := if node then h else 0, prio := min 11 (bits f 0 4),
    tlpol := if node && full then BitVec.ofNat 2 (min 1 (bits f 4 2)) else 0, ovr := node && full && f.testBit 6,
    seq := if node then BitVec.ofNat 16 (leAt d 8 2) else 0, ring := ring, desc := idx,
    expiry := if node then BitVec.ofNat 32 (s.ms + 1000 * max 1 (leAt d 10 2)) else 0,
    tries := 0, naks := 0, dsn := 0, skips := 0, smiss := false,
    ochan := if node && full then BitVec.ofNat 8 (leAt d 12 1) else 0, oopt := if node && full then oopt else 0,
    omcs := if node && full then clampMcs oopt (bits (leAt d 13 1) 2 3) else 0, rx := none }
  (tgt, { tgt := txTarget tgt h, hdr := hdr, body := (List.range n).map (fun i => buf.getD i 0) })

/-- The descriptor of an item is past its commit point. -/
def State.markEnqueued (s : State) (h : Hdr) : State :=
  { s with hst.txSlots := s.hst.txSlots.map (fun p =>
      if p.1 = h.ring && p.2.idx = h.desc then (p.1, { p.2 with enqueued := true }) else p) }

/-- ENQUEUE of an admitted item (R260, R262, R266, R420). -/
def State.enqueueItem (s : State) (w : WaitItem) : State :=
  let s := s.markEnqueued w.hdr
  match w.tgt with
  | .node h => s.enqueueNode h w.hdr w.body
  | .sys q =>
    if s.fenced 7 q 0 (s.sysQ q).enqs then (s.settle w.hdr stABORTED 8).bump Reg.SYS_FENCED_DL
    else s.linkSys q (some w.hdr) w.body

/-- The pool has room for a host or tunnel frame: FREE_CELLS less its cells is at least TX_RSV (R258). -/
def State.roomFor (s : State) (w : WaitItem) : Bool := s.rd Reg.CAR_TX_RSV + cellsOf w.body.length ≤ s.freeCells

/-- CAR admits a host or tunnel frame (R258). A stopped CAR takes none, and a stopped NTB no update of the anchors (R16). -/
def State.admits (s : State) (w : WaitItem) : Bool :=
  s.runs .CAR && (match w.tgt with
    | .node _ => s.runs .NTB
    | .sys _ => true) && s.roomFor w

/-- A host or tunnel frame meets admission (R258): enqueued, or it waits. -/
def State.offerItem (s : State) (w : WaitItem) : State :=
  if s.admits w then s.enqueueItem w
  else
    let s := { s with car.admitQ := s.car.admitQ ++ [w] }
    if s.runs .CAR && !s.roomFor w then s.ev Reg.CAR_CAR_EVT 0 104 else s

/-- The frame of a fetched descriptor goes on: one that a takeover already holds is not enqueued again (R408). -/
def State.postItem (s : State) (w : WaitItem) : State :=
  if w.hdr.ikind = 1 && s.hst.resumed.contains (w.hdr.handle.toNat, w.hdr.seq.toNat) then s.markEnqueued w.hdr
  else s.offerItem w

/-- TX_DESC_FETCH (R258, R272, R273): HST reads the descriptor at FETCH and its frame. Fetching of a ring stops behind an
item of it that waits. -/
def execTxDescFetch (ring : Fin 16) (desc buf : List Byte) (s : State) : Host.Outcome State Fault Refusal :=
  let r := ring.val
  if s.ringReady r && !s.headless && !s.car.admitQ.any (fun w => w.hdr.ring = r) then
    let idx := BitVec.ofNat 16 (s.rdB Reg.HST_RING_FETCH 0 r)
    let d := desc.drop 8
    let pr := s.readTx d (bits (leAt d 0 2) 0 11) buf (2 ≤ s.rd Reg.SYS_HIF_SEL) r idx
    let tgt := pr.1
    let w := pr.2
    let slot : TxSlot := { idx := idx, tgt := tgt, handle := w.hdr.handle, hseq := w.hdr.seq, enqueued := false,
                           done := none, tunSeq := none }
    let s := { s.fetched r with hst.txSlots := s.hst.txSlots ++ [(r, slot)] }
    .next (s.postItem w)
  else .next s

/-- ADMIT_RETRY (R16, R258): the oldest waiting item that CAR now admits is enqueued. -/
def execAdmitRetry (s : State) : Host.Outcome State Fault Refusal :=
  match s.car.admitQ.find? s.admits with
  | some w => .next (({ s with car.admitQ := s.car.admitQ.erase w }).enqueueItem w)
  | none => .next s

/-- Bytes 24 to 31 of a transmit completion (R274). -/
def TxDone.bytes (c : TxDone) : List Byte :=
  [c.status, c.reason, BitVec.ofNat 8 (c.tries + 16 * c.skips), c.dsn] ++ leBytes 2 c.hseq.toNat ++
    [BitVec.ofNat 8 (b2n c.smiss), 0x80]

/-- TX_COMPLETION_WRITE (R30, R274, R277): the completion of the oldest descriptor of a ring, once it is settled. In the
headless tunnel it becomes a TX_DONE record (R375). -/
def execTxCompletionWrite (ring : Fin 16) (s : State) : Host.Outcome State Fault Refusal :=
  let r := ring.val
  match s.hst.txSlots.find? (fun p => p.1 = r) with
  | none => .next s
  | some (_, slot) =>
    match slot.done with
    | none => .next s
    | some c =>
      let s' := { s with hst.txSlots := s.hst.txSlots.eraseP (fun p => p.1 = r) }
      match slot.tunSeq with
      | some q => .next { s' with eth.outQ := s.eth.outQ ++ [(0x92, leBytes 4 q.toNat ++ c.bytes)] }
      | none => if s.dma then .next ((s'.emit (.txCompl r slot.idx (s.slotAddr r slot.idx + 24) c)).ringDone r) else .next s

/-! ### Receive (R267, R276) -/

/-- The queues that feed a receive ring (R266). -/
def State.rxQueues (s : State) (ring : Nat) : List Nat :=
  [ring] ++ (if s.rd Reg.CAR_UNK_RING = ring then [0x10] else []) ++ (if s.rd Reg.CAR_TMR_RING = ring then [0x11] else [])

/-- The queue that serves a receive ring next, in rotation (R267). -/
def State.rxPick (s : State) (ring : Nat) : Option Nat :=
  let l := s.rxQueues ring
  let last := (mget s.hst.rot ring).getD 0x11
  let k := match l.idxOf? last with
    | some k => k + 1
    | none => 0
  (l.drop k ++ l.take k).find? (fun q => !(s.sysQ q).items.isEmpty)

/-- Bytes 8 to 63 of a receive completion (R276); below host interface 3 bytes 28 to 39 are zero (R389). -/
def rxCompletion (it : QItem) (hif : Nat) : List Byte :=
  let info := match it.hdr.bind (fun h => h.rx) with
    | some r => r.bytes
    | none => List.replicate 41 0
  let info := if 3 ≤ hif then info else info.take 16 ++ List.replicate 12 0 ++ info.drop 28
  let (len, kind) : Nat × Byte := match it.hdr with
    | some h => (it.body.length, if h.ikind = 4 then 1 else 2)
    | none => (64, 3)
  leBytes 2 len ++ [kind, stCOMPLETED] ++ info ++ List.replicate 10 0 ++ [0x80]

/-- RX_DELIVER (R267, R276): the next item of a receive ring goes to the buffer its descriptor names. -/
def execRxDeliver (ring : Fin 16) (buf : Word64) (s : State) : Host.Outcome State Fault Refusal :=
  let r := ring.val
  let b := 16 + r
  if s.ringReady b && s.runs .CAR && !s.headless then
    match s.rxPick r with
    | none => .next s
    | some q =>
      match (s.sysQ q).items.head? with
      | none => .next s
      | some it =>
        let idx := BitVec.ofNat 16 (s.rdB Reg.HST_RING_FETCH 0 b)
        let data := if it.hdr.isSome then it.body else it.body ++ List.replicate (64 - it.body.length) 0
        let s := (s.fetched b).emit (.rxData b idx buf data)
        let s := (s.emit (.rxCompl b idx (s.slotAddr b idx + 8) (rxCompletion it (s.rd Reg.SYS_HIF_SEL)))).ringDone b
        .next { s.releaseSys q with hst.rot := mput s.hst.rot r q }
  else .next s

/-! ### Doorbells and ring set-up (R382, R383) -/

/-- The effect of a doorbell (R383). -/
def State.doorbell (s : State) (ring : Nat) (prod : Nat) : State :=
  let c := s.rdB Reg.HST_RING_COMPL 0 ring
  let n := s.ringSize ring - 1
  if n < (prod + 65536 - c) % 65536 then (s.wrB Reg.HST_RING_PROD 0 ring ((c + n) % 65536)).bump Reg.HST_DB_CLAMP
  else s.wrB Reg.HST_RING_PROD 0 ring prod

/-- DOORBELL: the host writes the group of RING, TBL and PROD (R383). -/
def execDoorbell (ring : BitVec 5) (tbl : Bool) (prod : BitVec 16) (s : State) : Host.Outcome State Fault Refusal :=
  .next (s.hostOp .HST (fun s =>
    let s := { s with staged := s.staged.filter (fun p => p.1 < 0xD000 || 0xD004 ≤ p.1) }
    s.doorbell (if tbl then tblRing else ring.toNat) prod.toNat) 4)

/-- The effect of a value written to RING_EN of a ring (R382). A ring enabled again before it is idle forgets its old
descriptors (log entry 32). -/
def State.ringEn (s : State) (ring : Nat) (en : Bool) : State :=
  if en then
    if s.rdB Reg.HST_RING_EN 0 ring = 1 then s
    else
      let s := ((s.wrB Reg.HST_RING_PROD 0 ring 0).wrB Reg.HST_RING_FETCH 0 ring 0).wrB Reg.HST_RING_COMPL 0 ring 0
      { s.wrB Reg.HST_RING_EN 0 ring 1 with hst.txSlots := s.hst.txSlots.filter (fun p => p.1 ≠ ring) }
  else s.wrB Reg.HST_RING_EN 0 ring 0

/-- RING_EN_WRITE: the host writes RING_EN of the selected ring (R382). -/
def execRingEnWrite (en : Bool) (s : State) : Host.Outcome State Fault Refusal :=
  .next (s.hostOp .HST (fun s => s.ringEn (s.rd Reg.HST_RING_SEL) en))

/-- DMA_ERROR (R383): a host memory access of a ring completes with an error. -/
def execDmaError (ring : BitVec 6) (s : State) : Host.Outcome State Fault Refusal :=
  let r := min tblRing ring.toNat
  if s.dma then
    .next ((((s.wrB Reg.HST_RING_EN 0 r 0).wrB Reg.HST_RING_ERR 0 r 1).bump Reg.HST_DMA_ERR).ev Reg.HST_HST_EVT 1 136)
  else .next s

/-- TBL_DESC_FETCH (R384): the command at FETCH of the table ring goes to NTB, its index its sequence. -/
def execTblDescFetch (rec : List Byte) (s : State) : Host.Outcome State Fault Refusal :=
  if s.ringReady tblRing && !s.headless then
    let seq := BitVec.ofNat 16 (s.rdB Reg.HST_RING_FETCH 0 tblRing)
    .next ((s.fetched tblRing).tblPost { seq := seq, bytes := rec, tunnel := false, aborted := false })
  else .next s

/-! ### Pop windows (R270, R271) -/

/-- Bytes captured at consecutive addresses (R6). -/
def State.capture (s : State) (addr : Nat) (bs : List Byte) : State :=
  { s with captured := bs.zipIdx.foldl (fun m p => mput m (addr + p.2) p.1) s.captured }

/-- A read of POP0 of a pop window (R270): its queue, the window's address, the bytes as last read, UNDERRUN. Answers the
record bytes. -/
def State.popWindow (s : State) (q base : Nat) (last : List Byte) (under : Fld) : List Byte × State :=
  match (s.sysQ q).items.head? with
  | some it =>
    let bs := (List.range 16).map (fun i => it.body.getD i 0)
    let s := s.releaseSys q
    let st : Byte := if (s.sysQ q).items.isEmpty then 3 else 1
    (bs, { s.capture base (bs ++ [st]) with hostData := bs.headD 0 })
  | none => (last, { (s.wr under 1).capture base (last ++ [2]) with hostData := last.headD 0 })

/-- The effect of a read of TEV_POP0. -/
def State.tevPop (s : State) : State :=
  let pr := s.popWindow 0x12 0x9080 s.car.tevLast Reg.CAR_TEV_UNDERRUN
  { pr.2 with car.tevLast := pr.1 }

/-- The effect of a read of SEV_POP0. -/
def State.sevPop (s : State) : State :=
  let pr := s.popWindow 0x13 0x90A0 s.car.sevLast Reg.CAR_SEV_UNDERRUN
  { pr.2 with car.sevLast := pr.1 }

/-- TEV_POP (R270): the host reads TEV_POP0. -/
def execTevPop (s : State) : Host.Outcome State Fault Refusal :=
  .next (if s.hostReads .CAR then s.tevPop else s.readZero)

/-- SEV_POP (R270): the host reads SEV_POP0. -/
def execSevPop (s : State) : Host.Outcome State Fault Refusal :=
  .next (if s.hostReads .CAR then s.sevPop else s.readZero)

end Sys2Proof.Machine
end

