-- ==== Sys2Proof/Machine/Reply.lean ====
section
/-!
DEFINITION. Responses to session records and key-update messages on their way out, and the identity that secures them
(R284, R370, R373, R385).
-/

namespace Sys2Proof.Machine

/-- DEV_IDENT (R284, R330): zero before PROVISION, and until the attestation key exists and is unwrapped. -/
def State.devIdent (s : State) : BitVec 256 :=
  if s.rd Reg.SYS_LC_STATE < 2 || !s.key.slot4Ok then 0
  else
    match s.otp.attRoot, s.otp.slot4 with
    | some root, some a => Config.devIdent s.otp.dieId root a.pubSeed
    | _, _ => 0

/-- The management key (R370), while the root is unwrapped. -/
def State.mgmtKey (s : State) : Option Key := s.key.rawRoot.map (fun r => Key.mgmt r s.key.lc s.devIdent)

/-- The endpoint sends a datagram (R366 to R370): to GW_MAC, by the port that heard it last, from EP_IP6 and the port of its channel. -/
def State.sendDg (s : State) (chan type dir : Byte) (seq ack : Word) (epoch ver : Byte) (key : Option Key)
    (dst : BitVec 128) (port : Nat) (payload : List Byte) : State :=
  let n := 8 + 32 + payload.length + (if key.isSome then 16 else 0)
  s.emit (.datagram {
    eport := s.eth.gwPort, vid := s.rd Reg.ETH_EP_VID,
    srcPort := if chan = 1 then s.rd Reg.ETH_MGT_PORT else s.rd Reg.ETH_TUN_PORT, dst := dst, dstPort := port,
    head := dgHeader ver chan type dir (s.rd Reg.ETH_BOOT_ID) seq ack payload.length epoch, key := key, payload := payload,
    frags := ipFragments (s.rd Reg.ETH_EP_MTU) n })

/-- One management response goes out, secured under the management key (R370, R373), in the version its request came in
(log entry 94). -/
def State.sendRsp (s : State) (it : QItem) : State :=
  match it.note, s.mgmtKey with
  | .response ip port ver type, some k =>
    ({ s with eth.mgtTx := s.eth.mgtTx + 1 }).sendDg 1 type 1 s.eth.mgtTx 0 0 ver (some k) ip port it.body
  | _, _ => s

/-- Send the management responses that wait on queue 0x21 (R373, R379): a stopped ETH or CAR keeps them; without the
management key none can be secured. -/
def State.flushRsp (s : State) : State :=
  if s.runs .ETH && s.runs .CAR then
    (s.sysQ 0x21).items.foldl (fun (s : State) it => (s.sendRsp it).releaseSys 0x21) s
  else s

/-- A management response (R373): linked to queue 0x21 and sent; while ETH is stopped it waits there. -/
def State.mgtReply (s : State) (r : ReplyTo) (type : Byte) (bytes : List Byte) : State :=
  (s.deviceItem 0x21 (some (devHdr 6 0 0 0 none)) bytes (.response r.ip r.port r.ver type)).flushRsp

/-- The mailbox response (R385); a record that a fault has discarded gets none (R386). -/
def State.mbxReply (s : State) (bytes : List Byte) : State :=
  if s.hst.mbx then
    let s := ({ s with hst.mbx := false }).emit (.mbxRsp (BitVec.ofNat 64 (s.rd Reg.HST_MBX_RSP)) bytes)
    ((s.wr Reg.HST_MBX_RLEN bytes.length).wr Reg.HST_MBX_STAT 2).ev Reg.HST_HST_EVT 0 136
  else s

/-- The record of the mailbox is discarded (R386, R421). -/
def State.dropMbx (s : State) (r : ReplyTo) : State :=
  if r.src = .mailbox && s.hst.mbx then { s.wr Reg.HST_MBX_STAT 3 with hst.mbx := false } else s

end Sys2Proof.Machine
end

