-- ==== Sys2Proof/Machine/Reset.lean ====
section
/-!
DEFINITION. Resets, holds and the environment of the package: what an internal reset keeps, the halted state, clocks,
supplies, temperature, PORST_N, PERST_N's release, the PCIe link (R49 to R64, R79, R449, R462).
-/

namespace Sys2Proof.Machine

/-- Fields that only PORST_N resets, or that show a level outside the device (R64, R119, R278). -/
def keptFields : List Fld :=
  [Reg.SYS_RST_CAUSE, Reg.SYS_BOOT_MODE, Reg.SYS_TWIN_ID, Reg.SYS_STRAP_BAD, Reg.SYS_VBAT_OK, Reg.SYS_AON_SRC,
   Reg.SYS_VBAT_LOST, Reg.SYS_XO40_OK, Reg.SYS_SDREF_OK, Reg.CAR_DE_LOC, Reg.CAR_DE_SRC] ++
  allGrps.flatMap (fun g => [Reg.FE_BURSTS g, Reg.FE_PORT_MM g])

/-- What survives every reset: the always-on domain, OTP, the NVM, what was driven outside, and the levels of the
reference clocks and of PERST_N. -/
def State.bare (s : State) (hold : Hold) : State :=
  let f := State.fresh s.aon s.otp s.nvm s.free s.out s.pending
  { f with sys.hold := hold, sys.xoOk := s.sys.xoOk, sys.sdOk := s.sys.sdOk, sys.perst := s.sys.perst }

/-- The islands that stay stopped, while REC_STATE reads STUCK (R423). -/
def State.stuckIsl (s : State) : List Nat :=
  if s.rd Reg.SYS_REC_STATE = 3 then s.sys.fltCount.filter (fun n => 3 ≤ (s.sys.fltCount.filter (fun m => m = n)).length)
  else []

/-- The run bits of eight islands from `lo` on, when those of `l` are stopped (R35). -/
def runBits (l : List Nat) (lo : Nat) : Nat :=
  ((List.range 8).filter (fun n => !l.contains (lo + n))).foldl (fun m n => m + 2 ^ n) 0

/-- STUCK and the islands that it stops outlast every reset but PORST_N (R423; log entry 65). -/
def State.keepStuck (s old : State) : State :=
  if old.rd Reg.SYS_REC_STATE = 3 then
    let l := old.stuckIsl
    let t := (s.wr Reg.SYS_ISL_RUN_L (runBits l 0)).wr Reg.SYS_ISL_RUN_H (runBits l 8)
    { t.wr Reg.SYS_REC_STATE 3 with sys.fltCount := l }
  else s

/-- A full internal reset with its cause (R58, R64, R426): everything in flight is lost, and the boot starts again at
stage 1 once nothing holds the device. -/
def State.internalReset (s : State) (cause : Nat) (hold : Hold) : State :=
  let f := keptFields.foldl (fun (f : State) r => f.wr r (s.rd r)) (s.bare hold)
  (f.keepStuck s).wr Reg.SYS_RST_CAUSE cause

/-- The boot halts with BOOT_ERR (R79). -/
def State.halt (s : State) (err : Nat) : State := (s.wr Reg.SYS_BOOT_STAGE 0xF).wr Reg.SYS_BOOT_ERR err

/-- The hold that remains once another has ended: a reference that is still lost holds the device (R54). -/
def State.holdNow (s : State) : Hold := if s.sys.xoOk && s.sys.sdOk then .none else .clock

/-- DEVICE_FAULT_RESET (R54, R282, R315, R426): a device fault other than a clock loss; the device restarts at once. A life-cycle
inconsistency is one only where OTP no longer holds the state decided at stage 2, in three equal copies. -/
def execDeviceFaultReset (cause : DevFault) (s : State) : Host.Outcome State Fault Refusal :=
  if !s.up || s.halted then .next s
  else
    match cause with
    | .lifeCycle =>
      if s.rd Reg.SYS_BOOT_STAGE < 2 then .next s else
      let same := s.otp.lc0 = s.otp.lc1 && s.otp.lc1 = s.otp.lc2
      let lc : Nat := match s.otp.lc0.toNat with
        | 0 => 0
        | 1 => 1
        | 3 => 2
        | 7 => 3
        | 15 => 4
        | _ => 5
      .next (if same && lc = s.rd Reg.SYS_LC_STATE then s else s.internalReset 2 .none)
    | .sysFault => .next (s.internalReset 3 .none)
    | .keyFault => .next (s.internalReset 4 .none)

/-- CLOCK_LOSS (R54): a reference fails; unless PORST_N is low or the device has halted, it holds itself in reset. In a thermal hold
the clock-loss hold follows it, and RST_CAUSE reads the later cause (log entry 103, DEDUCED). -/
def execClockLoss (which : RefClk) (s : State) : Host.Outcome State Fault Refusal :=
  let s := match which with
    | .xo40 => ({ s with sys.xoOk := false }).wr Reg.SYS_XO40_OK 0
    | .sdref => ({ s with sys.sdOk := false }).wr Reg.SYS_SDREF_OK 0
  match s.sys.hold with
  | .none => .next (if s.halted then s else s.internalReset 1 .clock)
  | .thermal => .next (s.wr Reg.SYS_RST_CAUSE 1)
  | _ => .next s

/-- CLOCK_RETURN_RESTART (R54): both references have been back for 2 ms; a clock-loss hold ends and the boot restarts. -/
def execClockReturnRestart (s : State) : Host.Outcome State Fault Refusal :=
  let s := { s with sys.xoOk := true, sys.sdOk := true }
  let s := if s.sys.hold = .porst then s else (s.wr Reg.SYS_XO40_OK 1).wr Reg.SYS_SDREF_OK 1
  .next (if s.sys.hold = .clock then { s with sys.hold := .none } else s)

/-- PORST_ASSERT (R55, R64): the whole device is reset; the always-on domain, OTP and the NVM stay. -/
def execPorstAssert (s : State) : Host.Outcome State Fault Refusal :=
  let f := (s.bare .porst).wr Reg.SYS_VBAT_OK (s.rd Reg.SYS_VBAT_OK)
  .next (f.wr Reg.SYS_AON_SRC (s.rd Reg.SYS_AON_SRC))

/-- PORST_RISE (R57): the straps are latched; the boot begins. -/
def execPorstRise (bootMode : BitVec 2) (twinId : Bool) (s : State) : Host.Outcome State Fault Refusal :=
  if s.sys.hold ≠ .porst then .next s
  else
    let s := (s.wr Reg.SYS_BOOT_MODE bootMode.toNat).wr Reg.SYS_TWIN_ID (b2n twinId)
    let s := (s.wr Reg.SYS_XO40_OK (b2n s.sys.xoOk)).wr Reg.SYS_SDREF_OK (b2n s.sys.sdOk)
    .next { s with sys.hold := .none }

/-- AON_RETENTION_LOSS (R50): the always-on supply falls below 1.5 V: the key store and the tamper latch are lost, and the
retention flag records the fall. -/
def execAonRetentionLoss (s : State) : Host.Outcome State Fault Refusal :=
  .next { s with aon := { Aon.blank with lost := true } }

/-- AON_SWITCH_OVER (R49, R64): the domain takes its supply from IO4 while that is in range, else from VBAT. -/
def execAonSwitchOver (io4 vbatOk : Bool) (s : State) : Host.Outcome State Fault Refusal :=
  .next ((s.wr Reg.SYS_AON_SRC (b2n io4)).wr Reg.SYS_VBAT_OK (b2n vbatOk))

/-- DIE_TEMP shows a temperature. What its 8 bits show of one that they cannot hold is not stated: a free value (R64; log
entry 1). -/
def State.showTemp (s : State) (t : Int) : State :=
  let s := { s with sys.temp := t, sys.hotClear := false }
  if -128 ≤ t && t ≤ 127 then s.wr Reg.SYS_DIE_TEMP (t % 256).toNat
  else (s.wr Reg.SYS_DIE_TEMP (s.freeVal 8)).tick

/-- DIE_TEMP_UPDATE (R63, R64): the warning, the thermal hold at 135 °C, its end at 115 °C. Each update at or above
TEMP_WARN sets the warning again (R64). A clock-loss hold becomes a thermal hold at 135 °C; the halted state, which lasts until
PORST_N, does not (R79). -/
def execDieTempUpdate (t : Int) (s : State) : Host.Outcome State Fault Refusal :=
  match s.sys.hold with
  | .porst => .next s
  | .thermal => .next (if t ≤ 115 then { s with sys.hold := s.holdNow } else s)
  | .clock => .next (if 135 ≤ t then s.internalReset 5 .thermal else s)
  | .none =>
    let u : State := s.showTemp t
    if 135 ≤ t && !s.halted then .next (u.internalReset 5 .thermal)
    else if u.rdS Reg.SYS_TEMP_WARN ≤ t then .next (if s.halted then u.wr Reg.SYS_THERM_WARN 1 else u.ev Reg.SYS_THERM_WARN 0 17)
    else .next u

/-- PERST_RELEASE (R59): the link may train again. -/
def execPerstRelease (s : State) : Host.Outcome State Fault Refusal := .next { s with sys.perst := false }

/-- PCIE_LINK_TRAINED (R79, R381, R386, R462): the link comes up, in host mode, from stage 2 onward, with PERST_N high;
table completions that waited for it are written. -/
def execPcieLinkTrained (speed width : BitVec 2) (s : State) : Host.Outcome State Fault Refusal :=
  if s.up && !s.sys.perst && !s.headless && !s.testMode && 2 ≤ s.rd Reg.SYS_BOOT_STAGE && speed ≠ 0 &&
      (width = 1 || width = 2) then
    .next ((({ s with sys.linkUp := true }).wr Reg.HST_PCIE_STAT (speed.toNat + 4 * width.toNat + 16)).flushTbl)
  else .next s

end Sys2Proof.Machine
end

