-- ==== Sys2Proof/Machine/Keys.lean ====
section
/-!
DEFINITION. The commands of KEY: uplink checks, securing, epochs, the frame counter, key-update messages, tamper (R281 to
R316). Keys and seals are terms (log entry 3).
-/

namespace Sys2Proof.Machine

/-! ### Uplinks (R296, R299) -/

/-- The network secret under which `k` is the link key of `eui` in the current epoch. -/
def State.linkNow (s : State) (eui : Word64) : Key := .link s.aon.store.net s.aon.store.epoch eui

/-- A frame that is not authenticated: counted, its declared acknowledgement withdrawn (R231, R237, R299). -/
def State.authFail (s : State) (u : UlItem) (f : Fld) : State := (s.bump f).withdrawAck u.id

/-- KEY_UL_CHECK (R296, R299): the uplink at KEY is checked; one that checks goes on to SCH with its epoch. -/
def execKeyUlCheck (s : State) : Host.Outcome State Fault Refusal :=
  match s.key.ul with
  | [] => .next s
  | u :: rest =>
    if !s.runs .KEY || !s.runs .SCH then .next s
    else
      let s := { s with key.ul := rest }
      if s.rd Reg.KEY_KSTATE ≠ 1 then .next (s.authFail u Reg.KEY_AUTH_NOKEY)
      else if u.psdu.level < s.rd Reg.KEY_UL_SEC_MIN || u.psdu.level = 4 then .next (s.authFail u Reg.KEY_AUTH_LEVEL)
      else if u.psdu.mic = some (s.linkNow u.psdu.eui) then
        .next { s with sch.ul := s.sch.ul ++ [{ u with epoch := s.aon.store.epoch, auth := .ok }] }
      else
        match s.key.prevEpoch with
        | some (net, e) =>
          if u.psdu.mic = some (.link net e u.psdu.eui) then
            let s := s.bump Reg.KEY_GRACE_UL
            .next { s with sch.ul := s.sch.ul ++ [{ u with epoch := e, auth := .ok }] }
          else .next (s.authFail u Reg.KEY_AUTH_FAIL)
        | none => .next (s.authFail u Reg.KEY_AUTH_FAIL)

/-! ### The outbound frame counter (R300 to R303) -/

/-- Records that one 64 KiB sector of a log holds (R301). -/
def logSector : Nat := 4096

/-- Append a record to a log of two sectors (R301, R331): when the sector in use is full the other is erased and restates
the current reservation first. -/
def logAppend (l : List CtrRec) (cur : Option CtrRec) (r : CtrRec) : List CtrRec :=
  let next := (l.getLast?.map (fun x => x.seq)).getD 0 + 1
  if l.length % logSector = 0 && !l.isEmpty then
    let keep := l.drop (l.length - logSector)
    match cur with
    | some c => keep ++ [{ c with seq := next }, { r with seq := next + 1 }]
    | none => keep ++ [{ r with seq := next }]
  else l ++ [{ r with seq := next }]

/-- The greatest block recorded for a generation and epoch (R302). -/
def lastBlock (l : List CtrRec) (sgen : BitVec 16) (epoch : Byte) : Option CtrRec :=
  (l.filter (fun r => r.sgen = sgen && r.epoch = epoch)).foldl (fun (m : Option CtrRec) r =>
    match m with
    | some x => if x.block < r.block then some r else some x
    | none => some r) none

/-- Reserve a block of a generation and epoch (R301). -/
def State.reserve (s : State) (sgen : BitVec 16) (epoch : Byte) (block : Nat) : State :=
  let cur := lastBlock s.nvm.ctrLog s.aon.store.sgen s.aon.store.epoch
  let r : CtrRec := { seq := 0, sgen := sgen, epoch := epoch, block := block }
  ({ s with nvm.ctrLog := logAppend s.nvm.ctrLog cur r }).wr Reg.KEY_FC_BLOCK block

/-- Take the next frame counter (R300, R301, R303). -/
def State.takeFc (s : State) : Nat × State :=
  let n := s.rd Reg.KEY_FC_NEXT
  let s := s.wr Reg.KEY_FC_NEXT (n + 1)
  let b := n / 65536
  let s := if b * 65536 + 32768 < n + 1 && s.rd Reg.KEY_FC_BLOCK = b && b < 0xFFFF then
      s.reserve s.aon.store.sgen s.aon.store.epoch (b + 1)
    else s
  (n, if n + 1 = 0xF0000000 then s.ev Reg.KEY_KEY_EVT 3 112 else s)

/-! ### Securing (R294, R295, R298, R299) -/

/-- The key an item is secured under, if KEY holds what it derives from (R292, R298, R299). -/
def State.keyOf (s : State) (f : TxItem) : Option Key :=
  if s.rd Reg.KEY_KSTATE ≠ 1 then none
  else
    match f.kind with
    | .dl | .ack => some (s.linkNow f.eui)
    | .beacon | .mc => (s.aon.store.groups.find? (fun g => g.gid = f.gid && g.valid)).map (fun g =>
        .group g.secret s.aon.store.sgen s.aon.store.epoch)

/-- KEY holds the key an item needs (R298, R299). -/
def State.hasKey (s : State) (f : TxItem) : Bool := (s.keyOf f).isSome

/-- The security level of an item that is secured (R235, R298). -/
def State.levelOf (s : State) (f : TxItem) : Nat := if f.kind = .ack then 5 else s.rd Reg.KEY_DL_SEC

/-- An item secured under its key with frame counter `n` (R238, R298): DSN, elements, level and counter go into its header, then
CCM* runs over it with the device's EUI-64 in the nonce. -/
def State.secure (s : State) (f : TxItem) (n : Word) : TxItem :=
  let level := s.levelOf f
  let b := match f.kind with
    | .dl => stamp (insertIes f.body f.ies) (some f.copy.dsn) level n
    | .ack | .mc => stamp f.body none level n
    | .beacon => f.body
  let h := if f.kind = .beacon then f.own else mhrLen b
  { f with
    secured := true, copy := { f.copy with fcnt := n }, level := level, key := s.keyOf f,
    body := match s.keyOf f with
      | some k => sealFrame k s.otp.devEui n level h b
      | none => b }

/-- KEY_SECURE (R19, R295, R298, R299, R303): the item at KEY is secured and goes on to PHY. The want of a key is tested
before the epoch (log entry 33). -/
def execKeySecure (s : State) : Host.Outcome State Fault Refusal :=
  match s.key.tx with
  | [] => .next s
  | f :: rest =>
    if !s.runs .KEY || !s.runs .PHY then .next s
    else
      let s := { s with key.tx := rest }
      if f.fence then .next ((s.undeclare f).notSent f false)
      else if f.kind = .beacon && f.gid = 0xFF then .next (({ s with phy.tx := txInsert f s.phy.tx }).mapEnter f)
      else if !s.hasKey f then .next (((s.bump Reg.KEY_NOKEY_TX).undeclare f).notSent f false)
      else if f.epoch ≠ s.aon.store.epoch then .next ((s.undeclare f).epochDrop f)
      else if s.rd Reg.KEY_FC_NEXT = 0xFFFFFFFF then .next (((s.bump Reg.KEY_FC_EXHAUST).undeclare f).notSent f false)
      else
        let pr := s.takeFc
        let f := s.secure f (BitVec.ofNat 32 pr.1)
        let s := pr.2
        .next (({ s with phy.tx := txInsert f s.phy.tx }).mapEnter f)

/-! ### The key store and its copies (R288, R289) -/

/-- K_nvm of a life-cycle state (R289): KEY has it while it holds the PUF key. -/
def State.nvmKey (s : State) (lc : BitVec 3) : Option Key := s.key.pufKey.map (fun p => Key.nvm p lc)

/-- The copies whose tag checks under `k`. -/
def copiesUnder (l : List KeyCopy) (k : Option Key) : List KeyCopy := if k.isNone then [] else l.filter (fun c => c.key = k)

/-- The copies whose tag checks: written under the K_nvm of the present life-cycle state. -/
def State.goodCopies (s : State) : List KeyCopy := copiesUnder s.nvm.copies (s.nvmKey s.key.lc)

/-- Write a copy of a store under the K_nvm `k` and then the store (R289): the next slot, WSEQ one above every other. -/
def State.writeStore (s : State) (k : Option Key) (st : KeyStore) : State :=
  let slot := match s.nvm.lastCopy with
    | some k => (k + 1) % 15
    | none => 0
  let w := (copiesUnder s.nvm.copies k).foldl (fun m c => max m c.wseq) s.aon.store.wseq + 1
  let st := { st with good := true, wseq := w }
  let copies := if slot = 0 then [] else s.nvm.copies.filter (fun c => c.slot ≠ slot)
  { s with nvm.copies := copies ++ [{ slot := slot, wseq := w, key := k, store := st }], nvm.lastCopy := some slot,
           aon.store := st }

/-! ### Epochs (R294, R296) -/

/-- The epoch after `e`. -/
def nextEpoch (e : Byte) : Byte := if e = 0xFF then 1 else e + 1

/-- The common part of an epoch change (R294, R300): the record of the new epoch, the copy, the store, EPOCH_SET. -/
def State.changeEpoch (s : State) (st : KeyStore) : State :=
  let old := s.aon.store
  let s := (s.reserve st.sgen st.epoch 0).writeStore (s.nvmKey s.key.lc) st
  let s := s.wr Reg.KEY_FC_NEXT 0
  { s.wr Reg.KEY_EPOCH_STAT 1 with
    key.epochPend := true, key.egress := st.epoch,
    key.epochOld := if old.good && old.epoch ≠ 0 then some (old.net, old.epoch) else none }

/-- The effect of CHANGE written to EPOCH_CMD (R294). -/
def State.epochCmd (s : State) : State :=
  let st := s.aon.store
  if s.rd Reg.KEY_KSTATE ≠ 1 || st.left = 0 || s.key.epochPend || !s.key.msgQ.isEmpty then s.wr Reg.KEY_EPOCH_STAT 3
  else s.changeEpoch { st with epoch := nextEpoch st.epoch, left := st.left - 1 }

/-- EPOCH_CMD: the host writes CHANGE (R294). -/
def execEpochCmd (s : State) : Host.Outcome State Fault Refusal := .next (s.hostOp .KEY State.epochCmd)

/-- A group has a frame of an earlier epoch past its egress test whose first symbol has not left (R295). -/
def State.oldAhead (s : State) (g : Grp) : Bool :=
  match (s.fe g).burst with
  | some b => b.frames.any (fun f => f.secured && f.epoch ≠ s.key.egress && (f.phase = .due || f.phase = .checked))
  | none => false

/-- EPOCH_COMPLETE (R31, R294, R296): every egress point has acknowledged the EPOCH_SET, a group once no frame of the old
epoch that has passed its test is still to begin (log entry 93); the grace period begins. -/
def execEpochComplete (s : State) : Host.Outcome State Fault Refusal :=
  if s.key.epochPend && !allGrps.any s.oldAhead && s.runs .FEL && s.runs .FEH && s.runs .FEI && s.runs .ETH then
    let g := s.rd Reg.KEY_GRACE_S
    let s := (s.wr Reg.KEY_EPOCH_STAT 2).ev Reg.KEY_KEY_EVT 1 112
    .next { s with
      key.epochPend := false, key.epochOld := none, key.prevEpoch := if g = 0 then none else s.key.epochOld,
      key.graceAt := s.sys.uptime + g * 1000 * msTicks }
  else .next s

/-- GRACE_EXPIRE (R296): the grace period ends. -/
def execGraceExpire (s : State) : Host.Outcome State Fault Refusal := .next { s with key.prevEpoch := none }

/-! ### Destruction and life-cycle transitions (R283, R314) -/

/-- Zeroisation within the main domain (R314). ZERO_OK shows the check that the store reads zero. -/
def State.zeroise (s : State) : State :=
  let st := KeyStore.empty
  { s.wr Reg.KEY_ZERO_OK (b2n (st = KeyStore.empty)) with
    aon.store := st, key.rawRoot := none, key.pufKey := none, key.captured := false, key.prevEpoch := none, key.epochOld := none,
    key.zeroised := true }

/-- The copy region is erased (R311, R314). -/
def State.eraseCopies (s : State) : State := { s with nvm.copies := [], nvm.lastCopy := none }

/-- Blow bits of the life-cycle word in all three copies (R283). -/
def State.blowLc (s : State) (bits : BitVec 5) : State :=
  { s with otp.lc0 := s.otp.lc0 ||| bits, otp.lc1 := s.otp.lc1 ||| bits, otp.lc2 := s.otp.lc2 ||| bits }

/-- A transition that carries no keys (R283): the bits, the zeroisation, the full internal reset. -/
def State.transition (s : State) (bits : BitVec 5) : State :=
  let s := { s with nvm.kuMove := none }
  (((s.blowLc bits).zeroise).eraseCopies).internalReset 6 .none

/-! ### Key-update messages (R304 to R308) -/

/-- The 4-byte response to a key-update message (R373, R385). -/
def State.kuReply (s : State) (r : ReplyTo) (status reason : Byte) : State :=
  let b := [status, reason, 0, 0]
  match r.src with
  | .mailbox => s.mbxReply b
  | _ => s.mgtReply r 0x82 b

/-- A message is refused (R306). -/
def State.kuRefuse (s : State) (r : ReplyTo) (reason : Byte) : State :=
  let s := (s.wr Reg.KEY_KU_STAT 3).wr Reg.KEY_KU_REASON reason.toNat
  ((s.bump Reg.KEY_KU_REFUSED).ev Reg.KEY_KEY_EVT 4 112).kuReply r stREFUSED reason

/-- A message reaches KEY from its container (R306 check 1, R385, R373): it waits for KEY, or is refused while another is
under way; a KIND that no message has is refused at once. -/
def State.kuPost (s : State) (r : ReplyTo) (m : KuMsg) : State :=
  let s := s.wr Reg.KEY_KU_KIND m.kind.toNat
  if !s.key.msgQ.isEmpty || s.key.epochPend then s.kuRefuse r 1
  else if m.kind = 0 || 4 < m.kind.toNat then s.kuRefuse r 2
  else { s.wr Reg.KEY_KU_STAT 1 with key.msgQ := s.key.msgQ ++ [(r, m)] }

/-- KIND accepted in a life-cycle state (R281): DEPLOY 1, KEYS 2, RMA_AUTH 3, SCRAP 4. -/
def kindAccepted (lc kind : Nat) : Bool :=
  match lc with
  | 1 => kind = 2 || kind = 4
  | 2 => kind = 1 || kind = 3 || kind = 4
  | 3 => kind = 2 || kind = 3 || kind = 4
  | 4 => kind = 2 || kind = 4
  | _ => false

/-- The signature check of a message (R306, R318): the key the state requires and the parameter set of that key, the leaf index
within its tree, zeros beyond the signature. -/
def State.kuSigned (s : State) (m : KuMsg) : Bool :=
  s.key.lc = 1 ||
    sigFieldOk m.sigType m.sig &&
      (if s.key.lc = 3 then m.signer.isSome && m.signer = s.otp.ownerPub && m.sigType = s.otp.ownerSet
       else if m.kind = 1 then m.signer = some m.ownerPub && m.sigType = m.ownerSet
       else m.signer = some Config.vendorPub && m.sigType = 2)

/-- Group records applied in order (R305, R306 check 8): none if one finds no slot. -/
def putGroups (gs rs : List GroupRec) : Option (List GroupRec) :=
  match rs with
  | [] => some gs
  | r :: t =>
    let others := gs.filter (fun g => g.gid ≠ r.gid)
    if !r.valid then putGroups others t
    else if others.length < 64 then putGroups (others ++ [r]) t
    else none

/-- The groups that a message leaves in a store. -/
def kuGroups (m : KuMsg) (st : KeyStore) : Option (List GroupRec) :=
  putGroups (if m.clear then [] else st.groups) m.groups

/-- The payload decrypts (R304, R306): TAG checks under the transport key. -/
def State.kuDecrypts (s : State) (m : KuMsg) : Bool :=
  m.sealedUnder.isSome && m.sealedUnder = s.key.rawRoot.map (fun r => Key.transport r s.key.lc s.devIdent)

/-- Check 2 of R306. The shape of a payload shows once it decrypts; of one that does not, LEN alone is tested here (log entry 104,
DEDUCED). -/
def State.kuFormat (s : State) (m : KuMsg) : Bool :=
  m.magicOk && (m.fmt = 1 || m.fmt = 2) && m.lenOk && leAt m.head 0xC 4 = 0 && (!s.kuDecrypts m || m.plainOk)

/-- The root that a DEPLOY burns, wrapped under the K_slot of the owner slot (R285, R307). -/
def State.ownerSlot (s : State) (m : KuMsg) : Option RootSlot :=
  s.key.pufKey.map (fun p => { key := .slot p 3, root := m.ownerRoot })

/-- The checks of R306, in order: the reason of the first that fails. `st`: the store that the message's keys go into. -/
def State.kuCheck (s : State) (m : KuMsg) (st : KeyStore) : Option Byte :=
  let lc := s.key.lc
  if !s.kuFormat m then some 2
  else if m.ident ≠ s.devIdent || m.lc.toNat ≠ lc.toNat then some 3
  else if !kindAccepted lc.toNat m.kind.toNat ||
      (m.kind = 1 && !((s.otp.ownerPub.isNone || s.otp.ownerPub = some m.ownerPub) &&
        (s.otp.ownerSet = 0 || s.otp.ownerSet = m.ownerSet))) then some 4
  else if lc ≠ 1 && !(s.otp.kuCtr < m.ctr && m.ctr ≤ 1024) then some 5
  else if !s.kuSigned m then some 6
  else if !s.kuDecrypts m then some 7
  else if (kuGroups m st).isNone then some 8
  else if m.kind = 1 && !(s.otp.ownerRoot.isNone || s.otp.ownerRoot = s.ownerSlot m) then some 4
  else none

/-- The store that a KEYS payload makes of another (R294, R305, R307). -/
def kuStore (m : KuMsg) (st : KeyStore) : KeyStore :=
  let st := { st with groups := (kuGroups m st).getD [], kuCtr := m.ctr }
  match m.net with
  | some n => { st with net := n, sgen := st.sgen + 1, epoch := nextEpoch st.epoch, left := 254 }
  | none => st

/-- The OTP counter is advanced (R307); not in TEST. -/
def State.advanceKu (s : State) (ctr : Nat) : State := if s.key.lc = 1 then s else { s with otp.kuCtr := ctr }

/-- A message is COMPLETED (R307, R308). -/
def State.kuDone (s : State) (r : ReplyTo) : State :=
  let s := ((s.wr Reg.KEY_KU_STAT 2).wr Reg.KEY_KU_REASON 0).ev Reg.KEY_KEY_EVT 2 112
  let s : State := { s.wr Reg.KEY_KEYS_LOST 0 with aon.latch := false, aon.src := 0 }
  let s := if s.aon.store.epoch ≠ 0 then s.wr Reg.KEY_KSTATE 1 else s
  s.kuReply r stCOMPLETED 0

/-- A DEPLOY that passed every check (R307): the response leaves before the reset. -/
def State.applyDeploy (s : State) (r : ReplyTo) (m : KuMsg) : State :=
  let k := s.nvmKey 3
  let s := s.kuDone r
  let s := { s with otp.ownerRoot := s.ownerSlot m, otp.ownerPub := some m.ownerPub, otp.ownerSet := m.ownerSet }
  let s := ((s.advanceKu m.ctr).blowLc 0b00100).zeroise.eraseCopies
  (s.writeStore k (kuStore m KeyStore.empty)).internalReset 6 .none

/-- A KEYS message that passed every check (R294, R307). -/
def State.applyKeys (s : State) (r : ReplyTo) (m : KuMsg) : State :=
  let st := kuStore m s.aon.store
  let s := if m.net.isSome then s.changeEpoch st else s.writeStore (s.nvmKey s.key.lc) st
  (s.advanceKu m.ctr).kuDone r

/-- RMA_AUTH or SCRAP that passed every check (R283, R307): from the commit point until the transition the NVM says which is due, for
a boot that comes between (log entry 105, PRESUMED). -/
def State.applyMove (s : State) (r : ReplyTo) (m : KuMsg) (bits : BitVec 5) : State :=
  let s := (s.writeStore (s.nvmKey s.key.lc) { s.aon.store with kuCtr := m.ctr }).advanceKu m.ctr
  let s := { s with nvm.kuMove := some bits }
  (s.kuDone r).transition bits

/-- The message at KEY, if its KIND is `kind`: checked (R306), then applied. -/
def State.kuRun (s : State) (kind : Byte) (f : State → ReplyTo → KuMsg → State) : State :=
  match s.key.msgQ with
  | [] => s
  | (r, m) :: rest =>
    if m.kind ≠ kind || !s.runs .KEY then s
    else
      let s := { s with key.msgQ := rest }
      match s.kuCheck m (if kind = 1 then KeyStore.empty else s.aon.store) with
      | some reason => s.kuRefuse r reason
      | none => f s r m

/-- KU_DEPLOY (R306, R307). -/
def execKuDeploy (s : State) : Host.Outcome State Fault Refusal := .next (s.kuRun 1 State.applyDeploy)

/-- KU_KEYS (R306, R307). -/
def execKuKeys (s : State) : Host.Outcome State Fault Refusal := .next (s.kuRun 2 State.applyKeys)

/-- KU_RMA_AUTH (R306, R307). -/
def execKuRmaAuth (s : State) : Host.Outcome State Fault Refusal :=
  .next (s.kuRun 3 (fun s r m => s.applyMove r m 0b01100))

/-- KU_SCRAP (R306, R307). -/
def execKuScrap (s : State) : Host.Outcome State Fault Refusal :=
  .next (s.kuRun 4 (fun s r m => s.applyMove r m 0b10000))

end Sys2Proof.Machine
end

