-- ==== Sys2Proof/Machine/Sessions.lean ====
section
/-!
DEFINITION. The commands of update sessions and attestation (R322 to R334, R410).
-/

namespace Sys2Proof.Machine

/-! ### NVM places (R67, R68) -/

/-- Where the staged image stands. -/
def stagingBase : Nat := 0x810000

/-- Where the active firmware stands. -/
def fwBase : Nat := 0x10000

/-- Where the active configuration stands. -/
def cfgBase : Nat := 0x1010000

/-- STG_STATE in the header. -/
def State.stgByte (s : State) : Nat := (nvmRead s.nvm.bytes 0x100).toNat

/-- Program STG_STATE. -/
def State.setStg (s : State) (v : BitVec 8) : State := { s with nvm.bytes := nvmProg s.nvm.bytes 0x100 v }

/-- Largest image of a kind (R69). -/
def maxLen (kind : Nat) : Nat := if kind = 1 then 0x800000 else 0x200000

/-- LEN of an image is legal (R69, check 1 of R320). -/
def lenOk (kind len : Nat) : Bool := len % 4 = 0 && 4096 ≤ len && len ≤ maxLen kind

/-! ### Responses (R322, R328, R410) -/

/-- The code of a source (R322, R337). -/
def srcCode (r : SessSrc) : Nat :=
  match r with
  | .mailbox => 1
  | .management => 2
  | .twin => 3

/-- A session response record (R322). -/
def respBytes (op status : Byte) (session next : Nat) (reason owner : Byte) (value : Nat) (report : List Byte) :
    List Byte :=
  [op, status] ++ leBytes 2 session ++ leBytes 2 next ++ [reason, owner] ++ leBytes 4 value ++ report

/-- A response goes back to its source (R373, R385); the status of a relayed record stands in RLY_ST (R410). -/
def State.respond (s : State) (r : ReplyTo) (bytes : List Byte) : State :=
  match r.src with
  | .mailbox => s.mbxReply bytes
  | .management => s.mgtReply r 0x81 bytes
  | .twin =>
    let st := bytes.getD 1 0
    let s := s.wr Reg.TWN_RLY_ST st.toNat
    if st = stCOMPLETED then s else s.ev Reg.TWN_TW_EVT 7 176

/-- SYS answers a session record (R322, R326, R327): an answer to the owner starts its idle count again; a COMPLETED
record of another source than the twin is relayed by an active unit (R410). Session number and NEXT of every answer are
those of the open or last session (log entry 34). -/
def State.answer (s : State) (r : ReplyTo) (rec : SessRec) (status reason owner : Byte) (value : Nat) : State :=
  let s := if status = stREFUSED || status = stABORTED then s.wr Reg.SYS_UPD_REASON reason.toNat else s
  let s := match s.sys.sess with
    | some x => if r.src = x.src then { s with sys.sess := some { x with answered := s.sys.uptime } } else s
    | none => s
  let s := if status = stCOMPLETED && r.src ≠ .twin && s.on Reg.TWN_TW_RELAY && s.rd Reg.TWN_TW_VER = 2 &&
      s.rd Reg.TWN_TW_STATE = 2 && s.on Reg.TWN_TW_LINK && s.runs .TWN then s.emit (.relay rec) else s
  s.respond r (respBytes rec.op status (s.rd Reg.SYS_UPD_SESSION) (s.rd Reg.SYS_UPD_NEXT) reason owner value [])

/-- REFUSED with a reason. -/
def State.sessRefuse (s : State) (r : ReplyTo) (rec : SessRec) (reason : Byte) : State :=
  s.answer r rec stREFUSED reason 0 0

/-! ### The queue of records (R328) -/

/-- The operations that have a meaning (R322). -/
def knownOp (op : Byte) : Bool := op = 1 || op = 2 || op = 3 || op = 4 || op = 0x10

/-- Answer the records at the front whose OP no rule defines (R322, R327). -/
def State.sessDrain (s : State) (n : Nat) : State :=
  match n with
  | 0 => s
  | n + 1 =>
    match s.sys.sessQ with
    | (r, rec) :: rest =>
      if knownOp rec.op then s else (({ s with sys.sessQ := rest }).sessRefuse r rec 1).sessDrain n
    | [] => s

/-- A session record reaches SYS (R328). -/
def State.sessPost (s : State) (r : ReplyTo) (rec : SessRec) : State :=
  ({ s with sys.sessQ := s.sys.sessQ ++ [(r, rec)] }).sessDrain (s.sys.sessQ.length + 1)

/-- Run the record at the front, if its OP is `op`. -/
def State.sessRun (s : State) (op : Byte) (f : State → ReplyTo → SessRec → State) : State :=
  match s.sys.sessQ with
  | [] => s
  | (r, rec) :: rest =>
    if rec.op = op then (f { s with sys.sessQ := rest } r rec).sessDrain rest.length else s

/-! ### Sessions (R323 to R326, R329) -/

/-- The open session ends (R326). -/
def State.endSess (s : State) (x : Sess) (completed : Bool) : State :=
  let s := (s.wr Reg.SYS_UPD_LAST (if completed then 1 else 2)).wr Reg.SYS_UPD_LAST_SRC (srcCode x.src)
  let s := (s.wr Reg.SYS_UPD_OWNER 0).ev Reg.SYS_UPD_EVT 0 18
  { s with sys.sess := none, sys.sessPast := some (x.num, completed) }

/-- The header of an OPEN (R68, R323): erased and rewritten unless STG_STATE is EMPTY. -/
def State.openHeader (s : State) : State :=
  let s := if s.stgByte = 0xFF then s
    else { s with nvm.bytes := nvmProgs (nvmErase s.nvm.bytes 0 0x10000) 0 [0x4F, 0x56, 0x48, 0x58, 0x01] }
  s.setStg 0x7F

/-- Milliseconds until the open session expires (R322, R326). -/
def State.idleLeft (s : State) (x : Sess) : Nat := 30000 - min 30000 (s.msSince x.answered)

/-- OPEN (R323, R328). -/
def State.sessOpen (s : State) (r : ReplyTo) (rec : SessRec) : State :=
  match s.sys.sess with
  | some x =>
    let left := s.idleLeft x
    let s := (s.bump Reg.SYS_UPD_BUSY_CNT).ev Reg.SYS_UPD_EVT 1 18
    s.respond r (respBytes rec.op stBUSY x.num x.next 0 (BitVec.ofNat 8 (srcCode x.src)) left [])
  | none =>
    let kind := rec.kind.toNat
    if !s.live || (s.rd Reg.SYS_BOOT_STAGE = 0xE && r.src ≠ .mailbox) then s.sessRefuse r rec 0x0C
    else if !(kind = 1 || kind = 2) || !lenOk kind rec.value.toNat then s.sessRefuse r rec 2
    else
      let n := s.sys.sessNo
      let x : Sess := { src := r.src, num := n, kind := kind, len := rec.value.toNat, next := 0, lastCrc := 0,
                        answered := s.sys.uptime }
      let s := { s.openHeader with sys.sess := some x, sys.sessNo := (n + 1) % 4096 }
      let s := ((s.wr Reg.SYS_STG_KIND kind).wr Reg.SYS_UPD_OWNER (srcCode r.src)).wr Reg.SYS_UPD_SESSION n
      (s.wr Reg.SYS_UPD_NEXT 0).answer r rec stCOMPLETED 0 0 0

/-- The open session that a record acts on, or the reason it acts on none (R324, R326, R328). A relayed record acts on the
twin's session whatever number it carries (R410). -/
def State.sessFor (s : State) (r : ReplyTo) (rec : SessRec) : Except Byte Sess :=
  match s.sys.sess with
  | none => .error 3
  | some x =>
    if r.src = .twin && x.src = .twin then .ok x
    else if rec.session = x.num then (if r.src = x.src then .ok x else .error 8)
    else if s.sys.sessPast.any (fun p => p.1 = rec.session) then .error 3
    else if r.src = x.src then .error 3 else .error 8

/-- DATA (R324). -/
def State.sessData (s : State) (readBackOk : Bool) (r : ReplyTo) (rec : SessRec) : State :=
  match s.sessFor r rec with
  | .error why => s.sessRefuse r rec why
  | .ok x =>
    let b := rec.block
    if b + 1 = x.next && rec.value = x.lastCrc then s.answer r rec stCOMPLETED 0 0 0
    else if b ≠ x.next then s.sessRefuse r rec 4
    else if x.len ≤ 4096 * b || rec.blen ≠ min 4096 (x.len - 4096 * b) || rec.data.length ≠ rec.blen then s.sessRefuse r rec 2
    else if crc32 rec.data ≠ rec.value then s.sessRefuse r rec 5
    else
      let at_ := stagingBase + 4096 * b
      let m := if b % 16 = 0 then nvmErase s.nvm.bytes at_ 0x10000 else s.nvm.bytes
      if readBackOk then
        let x := { x with next := b + 1, lastCrc := rec.value }
        let s := { s with nvm.bytes := nvmProgs m at_ rec.data, sys.sess := some x }
        (s.wr Reg.SYS_UPD_NEXT (b + 1)).answer r rec stCOMPLETED 0 0 0
      else
        -- what the failed program left in the block is not stated (log entry 1)
        let left := leBytes rec.blen (s.freeVal (8 * rec.blen))
        let s := ({ s with nvm.bytes := nvmProgs m at_ left }).tick
        (s.endSess x false).answer r rec stABORTED 7 0 0

/-- The staged header agrees with the OPEN (R325). -/
def State.stagedAgrees (s : State) (x : Sess) : Bool :=
  nvmReads s.nvm.bytes stagingBase 4 = [0x4F, 0x49, 0x4D, 0x47] &&
    (nvmRead s.nvm.bytes (stagingBase + 5)).toNat = x.kind &&
    leNat (nvmReads s.nvm.bytes (stagingBase + 0xC) 4) = x.len

/-- COMMIT (R325). -/
def State.sessCommit (s : State) (r : ReplyTo) (rec : SessRec) : State :=
  match s.sessFor r rec with
  | .error why => s.sessRefuse r rec why
  | .ok x =>
    if x.next * 4096 < x.len then s.sessRefuse r rec 6
    else if !s.stagedAgrees x then (s.endSess x false).answer r rec stABORTED 9 0 0
    else
      let s := { (s.setStg 0x3F).endSess x true with sys.commitAt := some s.sys.uptime }
      s.answer r rec stCOMPLETED 0 0 0

/-- ABORT (R326). -/
def State.sessAbort (s : State) (r : ReplyTo) (rec : SessRec) : State :=
  match s.sessFor r rec with
  | .ok x => (s.endSess x false).answer r rec stCOMPLETED 0 0 0
  | .error why =>
    match s.sys.sessPast with
    | some (n, done) =>
      if why = 3 && n = rec.session then s.answer r rec (if done then stALREADY else stABORTED) 0 0 0
      else s.sessRefuse r rec why
    | none => s.sessRefuse r rec why

/-- SESSION_OPEN (R323). -/
def execSessionOpen (s : State) : Host.Outcome State Fault Refusal := .next (s.sessRun 1 State.sessOpen)

/-- SESSION_DATA (R324). -/
def execSessionData (readBackOk : Bool) (s : State) : Host.Outcome State Fault Refusal :=
  .next (s.sessRun 2 (fun s r rec => s.sessData readBackOk r rec))

/-- SESSION_COMMIT (R325). -/
def execSessionCommit (s : State) : Host.Outcome State Fault Refusal := .next (s.sessRun 3 State.sessCommit)

/-- SESSION_ABORT (R326). -/
def execSessionAbort (s : State) : Host.Outcome State Fault Refusal := .next (s.sessRun 4 State.sessAbort)

/-- SESSION_IDLE_EXPIRE (R326): 30 s idle, with no record of the session in process. -/
def execSessionIdleExpire (s : State) : Host.Outcome State Fault Refusal :=
  match s.sys.sess with
  | some x => .next (if s.sys.sessQ.any (fun p => p.1.src = x.src) then s else s.endSess x false)
  | none => .next s

/-- The time that programming one page takes (R83): 0.35 ms, in ticks. -/
def pageTicks : Nat := 43750

/-- The effect of 1 written to UPD_KILL (R329). While the COMMITTED page is being programmed the commit stands (log
entry 35). -/
def State.updKill (s : State) : State :=
  match s.sys.sess with
  | some x => (s.endSess x false).wr Reg.SYS_UPD_KILL_ST 1
  | none =>
    match s.sys.commitAt with
    | some t => s.wr Reg.SYS_UPD_KILL_ST (if s.sys.uptime < t + pageTicks then 2 else 0)
    | none => s.wr Reg.SYS_UPD_KILL_ST 0

/-- UPD_KILL: the host writes 1 (R329). -/
def execUpdKill (s : State) : Host.Outcome State Fault Refusal := .next (s.hostOp .SYS State.updKill)

/-! ### Attestation (R330 to R334) -/

/-- The attestation public key: ATT_ROOT, then the public seed (R284, R330). -/
def State.attPub (s : State) : List Byte :=
  match s.otp.attRoot, s.otp.slot4 with
  | some root, some a => leBytes 32 root.toNat ++ leBytes 32 a.pubSeed.toNat
  | _, _ => List.replicate 64 0

/-- An ATTEST is refused or aborted (R334, R338). -/
def State.attFail (s : State) (r : ReplyTo) (stat : Nat) (status reason : Byte) : State :=
  let s := ((s.wr Reg.KEY_ATT_STAT stat).wr Reg.KEY_ATT_REASON reason.toNat).bump Reg.KEY_ATT_REFUSED
  s.respond r (respBytes 0x10 status 0 0 reason 0 0 [])

/-- The reason for which an ATTEST is refused (R333, R334, R389). -/
def State.attRefusal (s : State) (r : ReplyTo) : Option Byte :=
  let low := match r.src with
    | .mailbox => decide (r.ver.toNat < 3)
    | .management => decide (r.ver.toNat < 2)
    | .twin => true
  if low then some 1
  else if s.key.attest.isSome then some 0x0B
  else if s.rd Reg.SYS_LC_STATE = 1 then some 0x0E
  else if !s.on Reg.KEY_ATT_READY then some 0x0C
  else if s.rd Reg.KEY_ATT_LEFT = 0 then some 0x0D
  else if s.rd Reg.KEY_ATT_TOKENS = 0 then some 0x0A
  else none

/-- Consume the next leaf (R331): its segment step, its block record. -/
def State.takeLeaf (s : State) : Nat × State :=
  let n := s.rd Reg.KEY_ATT_NEXT
  let s := if n % 65536 = 0 then { s with otp.attSeg := s.otp.attSeg + 1 } else s
  let r : CtrRec := { seq := 0, sgen := 0, epoch := 0, block := n / 256 }
  let s := if n % 256 = 0 then { s with nvm.leafLog := logAppend s.nvm.leafLog (lastBlock s.nvm.leafLog 0 0) r } else s
  let s := (s.wr Reg.KEY_ATT_NEXT (n + 1)).wr Reg.KEY_ATT_LEFT (1048576 - (n + 1))
  (n, if 1048576 - (n + 1) = 65535 then s.ev Reg.KEY_ATT_EVT 1 117 else s)

/-- ATTEST (R333, R334): accepted, KEY signs. -/
def State.attStart (s : State) (r : ReplyTo) (rec : SessRec) : State :=
  match s.attRefusal r with
  | some why => s.attFail r 3 stREFUSED why
  | none =>
    let s := (s.wr Reg.KEY_ATT_STAT 1).wr Reg.KEY_ATT_TOKENS (s.rd Reg.KEY_ATT_TOKENS - 1)
    let pr := s.takeLeaf
    let leaf := pr.1
    let s := pr.2
    { s with key.attest := some { reply := r, nonce := rec.nonce, leaf := leaf } }

/-- ATTEST command. -/
def execAttest (s : State) : Host.Outcome State Fault Refusal := .next (s.sessRun 0x10 State.attStart)

/-- DIGEST of an image header; zero where no image is applied. -/
def headerDigest (h : List Byte) : List Byte := (List.range 32).map (fun i => h.getD (0x10 + i) 0)

/-- The 192 signed bytes of a report (R334). -/
def State.report (s : State) (a : Attest) : List Byte :=
  [0x4F, 0x41, 0x54, 0x54, 0x01, BitVec.ofNat 8 (s.rd Reg.SYS_LC_STATE), BitVec.ofNat 8 (s.rd Reg.SYS_SIL_REV),
    BitVec.ofNat 8 s.otp.arb] ++
  leBytes 16 s.otp.dieId.toNat ++ leBytes 32 s.devIdent.toNat ++ leBytes 32 a.nonce.toNat ++
  leBytes 8 (if s.on Reg.TIM_TIME_SET then s.sys.timeNs else 0) ++
  headerDigest s.sys.fwHeader ++ headerDigest s.sys.cfgHeader ++
  leBytes 4 (leAt s.sys.fwHeader 8 4) ++ leBytes 4 (s.rd Reg.SYS_CFG_BUILD) ++
  [BitVec.ofNat 8 (s.rd Reg.SYS_FW_ARB), BitVec.ofNat 8 (s.rd Reg.KEY_KSTATE)] ++ leBytes 2 s.otp.kuCtr ++
  [s.epochCur, s.aon.cnt, s.aon.src.setWidth 8, 0] ++ leBytes 4 (s.rd Reg.KEY_ATT_LEFT) ++ List.replicate 12 0

/-- A signature of the attestation key, 2,820 bytes (R317): the leaf index with its most significant byte first, the randomiser, 67
chain values, 20 path nodes. -/
def attSig (k : AttSlot) (leaf : Nat) (rep : List Byte) : List Byte :=
  (leBytes 4 leaf).reverse ++
    (List.range 88).flatMap (fun i => leBytes 32 (Config.attWord k.skSeed k.skPrf k.pubSeed leaf rep i).toNat)

/-- ATT_SIGN_DONE (R334): the signature ends; the report goes out. -/
def execAttSignDone (s : State) : Host.Outcome State Fault Refusal :=
  match s.key.attest with
  | none => .next s
  | some a =>
    let rep := s.report a
    let sig := match s.otp.slot4 with
      | some k => attSig k a.leaf rep
      | none => []
    let pub := s.attPub
    let s := (({ s with key.attest := none }).wr Reg.KEY_ATT_STAT 2).bump Reg.KEY_ATT_SIGNED
    .next ((s.ev Reg.KEY_ATT_EVT 0 117).respond a.reply (respBytes 0x10 stCOMPLETED 0 0 0 0 0 (rep ++ sig ++ pub)))

/-- ATT_TOKEN_TICK (R333): 225 s have passed; the bucket gains a token. -/
def execAttTokenTick (s : State) : Host.Outcome State Fault Refusal :=
  .next (if s.up && !s.halted then s.wr Reg.KEY_ATT_TOKENS (min 16 (s.rd Reg.KEY_ATT_TOKENS + 1)) else s)

/-- The attestation key is still to be generated or completed (R330); without the PUF key there is nothing to wrap it
under (R285, R286). -/
def State.needsKeygen (s : State) : Bool :=
  s.rd Reg.KEY_KSTATE ≠ 4 && s.key.pufKey.isSome && ((s.key.lc = 2 && s.otp.slot4.isNone) || (s.key.slot4Ok && s.otp.attRoot.isNone))

/-- ATT_KEYGEN (R330): after stage 6, with the seeds drawn from the entropy source (log entry 1). -/
def execAttKeygen (s : State) : Host.Outcome State Fault Refusal :=
  if s.rd Reg.SYS_BOOT_STAGE ≠ 6 || !s.up || !s.needsKeygen then .next s
  else
    let s := match s.otp.slot4 with
      | some _ => s
      | none =>
        let a := BitVec.ofNat 256 (s.freeVal 256)
        let s := s.tick
        let b := BitVec.ofNat 256 (s.freeVal 256)
        let s := s.tick
        let c := BitVec.ofNat 256 (s.freeVal 256)
        match s.key.pufKey with
        | some p =>
          { s.tick with
            otp.slot4 := some { key := .slot p 4, skSeed := a, skPrf := b, pubSeed := c }, key.slot4Ok := true }
        | none => s.tick
    match s.otp.slot4 with
    | some k =>
      .next { s with
        otp.attRoot := some (s.otp.attRoot.getD (Config.attRootOf k.skSeed k.skPrf k.pubSeed)), nvm.cache := true }
    | none => .next s

/-- ATT_CACHE_REBUILD_DONE (R330): the top-tree cache has been rebuilt. -/
def execAttCacheRebuildDone (s : State) : Host.Outcome State Fault Refusal :=
  if 7 ≤ s.rd Reg.SYS_BOOT_STAGE && !s.halted && s.key.slot4Ok && s.otp.attRoot.isSome && !s.nvm.cache then
    .next (({ s with nvm.cache := true }).wr Reg.KEY_ATT_READY 1)
  else .next s

/-! ### Tamper (R309 to R314) -/

/-- The always-on domain latches an event (R310, R316). -/
def State.latchTamper (s : State) (src : BitVec 6) (when_ : BitVec 2) (kop : Bool) : State :=
  { s with aon.latch := true, aon.src := s.aon.src ||| src, aon.cnt := BitVec.ofNat 8 (min 255 (s.aon.cnt.toNat + 1)),
           aon.when_ := when_, aon.kop := kop }

/-- The key operation under way is aborted (R310, R312, R313): the item at KEY that is being secured, else the uplink being checked,
else the message being applied, which is not consumed and gets no response (log entry 109, DESIGN CHOICE: KU_STAT then reads
NONE). -/
def State.abortKeyOp (s : State) : State :=
  match s.key.tx with
  | f :: rest => (({ s with key.tx := rest }).undeclare f).notSent f false
  | [] =>
    match s.key.ul with
    | u :: rest => ({ s with key.ul := rest }).authFail u Reg.KEY_AUTH_NOKEY
    | [] =>
      match s.key.msgQ with
      | m :: rest => ({ s.wr Reg.KEY_KU_STAT 0 with key.msgQ := rest }).dropMbx m.1
      | [] => s

/-- A signature in progress is abandoned (R312, R334). -/
def State.abandonSign (s : State) : State :=
  match s.key.attest with
  | some a => (({ s with key.attest := none }).ev Reg.KEY_ATT_EVT 0 117).attFail a.reply 4 stABORTED 0x0F
  | none => s

/-- TAMPER_EVENT (R309, R310, R312, R314): the sources that TAMPER_EN enables; the voltage, clock, light and temperature
sources only while PORST_N is high. The copy region is erased where the NVM pins are driven (R88): before stage 4 and in the halted
state the next boot erases it (R311). A signature in progress is a key operation. -/
def execTamperEvent (src : BitVec 6) (keyOp : Bool) (s : State) : Host.Outcome State Fault Refusal :=
  let m := src &&& BitVec.ofNat 6 (s.rd Reg.KEY_TAMPER_EN) &&& (if s.sys.hold = .porst then 3 else 0x3F)
  if m = 0 then .next s
  else if !s.up then .next { s.latchTamper m 2 false with aon.store := KeyStore.empty }
  else if s.halted then .next (((s.latchTamper m 1 false).zeroise.ev Reg.KEY_KEY_EVT 0 112))
  else if s.rd Reg.SYS_BOOT_STAGE < 7 then
    let t : State := (s.latchTamper m 1 keyOp).zeroise.ev Reg.KEY_KEY_EVT 0 112
    .next ((if 4 ≤ s.rd Reg.SYS_BOOT_STAGE then t.eraseCopies else t).halt 9)
  else
    let s := s.latchTamper m 3 (keyOp || s.key.attest.isSome)
    let s := if keyOp then s.abortKeyOp else s
    let s := (s.abandonSign.zeroise.eraseCopies.wr Reg.KEY_KSTATE 3).ev Reg.KEY_KEY_EVT 0 112
    .next (if s.on Reg.KEY_SCRAP_ON_TAMPER then s.transition 0b10000 else s)

end Sys2Proof.Machine
end

