-- ==== Sys2Proof/Machine/Time.lean ====
section
/-!
DEFINITION. The commands of TIM: the two ordinary clocks, selection, steering, acquisition, PPS_OUT (R41, R339 to R361,
R404).
-/

namespace Sys2Proof.Machine

/-! ### Endpoint and instances -/

/-- The local endpoint is active (R80, R367): ETH runs after stage 8 outside service mode, EP_MAC is neither zero nor a
multicast address (its first octet is the lowest byte of the group). -/
def State.epActive (s : State) : Bool :=
  s.up && s.live && s.rd Reg.SYS_BOOT_STAGE ≠ 0xE && s.runs .ETH && s.rd Reg.ETH_EP_MAC ≠ 0 &&
    !(s.rd Reg.ETH_EP_MAC).testBit 0

/-- The state of an instance (R350): DISABLED 0, NONE 1, TRACK 2, QUALIFIED 3. -/
def State.domState (s : State) (d : Dom) : Nat :=
  if !s.on (Reg.TIM_DOM_EN d) || !s.sys.meshRun then 0 else max 1 (s.rd (Reg.TIM_DOM_STATE d))

/-- The instance tracks a master. -/
def State.tracks (s : State) (d : Dom) : Bool := 2 ≤ s.domState d

/-- DOM_OFS extrapolated to now (R348): the domain's time less the time base. -/
def State.domOfs (s : State) (d : Dom) : Int :=
  match (s.dom d).ref with
  | some (t, at_) =>
    if s.tracks d then
      let ticks : Int := (s.sys.uptime - at_ : Nat)
      t + 8 * ticks + 8 * ticks * s.rdS (Reg.TIM_DOM_FREQ d) / 2 ^ 40 - s.sys.timeNs
    else 0
  | none => 0

/-- LOST_A and LOST_B. -/
def lostOf (d : Dom) : Fld :=
  match d with
  | .A => Reg.TIM_LOST_A
  | .B => Reg.TIM_LOST_B

/-- GM_ID_A and GM_ID_B. -/
def gmOf (d : Dom) : Fld :=
  match d with
  | .A => Reg.TIM_GM_ID_A
  | .B => Reg.TIM_GM_ID_B

/-- A departure from QUALIFIED (R350). -/
def State.leaveQual (s : State) (d : Dom) : State :=
  if s.domState d = 3 then ((s.bump (lostOf d)).ev Reg.TIM_TIM_EVT 2 120).wr (Reg.TIM_DOM_STATE d) 2 else s

/-- A loss (R350): the instance is in NONE and tracks no master. -/
def State.domLoss (s : State) (d : Dom) : State :=
  if !s.tracks d then s
  else
    let s := ((s.leaveQual d).wr (Reg.TIM_DOM_STATE d) 1).wr (Reg.TIM_MASTER_PORT d) 0
    let s := ((s.wr (Reg.TIM_DOM_CLASS d) 0xFF).wr (Reg.TIM_DOM_UTC d) 0).wr (gmOf d) 0
    s.setDom d { s.dom d with master := none, sync := none, req := none, run := 0 }

/-! ### Masters (R349) -/

/-- An interval of 2^n s in ticks. -/
def logTicks (n : Int) : Nat :=
  if 0 ≤ n then 125000000 * 2 ^ n.toNat else 125000000 / 2 ^ (-n).toNat

/-- A foreign master qualifies with two Announce messages within four of its announce intervals (IEEE 1588-2019). -/
def Foreign.ok (f : Foreign) (now : Nat) : Bool :=
  f.ann.stepsRemoved < 255 && now ≤ f.last + 4 * logTicks f.ann.logInterval &&
    match f.prev with
    | some p => f.last ≤ p + 4 * logTicks f.ann.logInterval
    | none => false

/-- The data-set comparison of IEEE 1588-2019 between two foreign masters: the first is better. -/
def annBetter (a b : Foreign) : Bool :=
  let key := fun (f : Foreign) =>
    [f.ann.prio1, f.ann.clockClass, f.ann.accuracy, f.ann.variance, f.ann.prio2, f.ann.gmId.toNat,
      f.ann.stepsRemoved, f.id.toNat]
  let rec lt (x y : List Nat) : Bool :=
    match x, y with
    | a :: s, b :: t => a < b || (a = b && lt s t)
    | _, _ => false
  lt (key a) (key b)

/-- The best qualified foreign master. -/
def bestForeign (l : List Foreign) (now : Nat) : Option Foreign :=
  (l.filter (fun f => f.ok now)).foldl (fun (r : Option Foreign) f =>
    match r with
    | some x => if annBetter f x then some f else some x
    | none => some f) none

/-- The code of a port in MASTER_PORT. -/
def portCode (p : EPort) : Nat :=
  match p with
  | .A => 1
  | .B => 2

/-- MASTER_PORT by the Announce messages of the selected master (R349). -/
def State.masterPort (s : State) (d : Dom) (id : Word64) : State :=
  let heard := fun (p : EPort) => (s.dom d).foreign.find? (fun f => f.id = id && f.port = p)
  let cur := s.rd (Reg.TIM_MASTER_PORT d)
  match heard .A, heard .B with
  | some a, some b =>
    let p := if a.ann.stepsRemoved < b.ann.stepsRemoved then 1
      else if b.ann.stepsRemoved < a.ann.stepsRemoved then 2
      else if cur = 0 then 1 else cur
    s.wr (Reg.TIM_MASTER_PORT d) p
  | some _, none => s.wr (Reg.TIM_MASTER_PORT d) 1
  | none, some _ => s.wr (Reg.TIM_MASTER_PORT d) 2
  | none, none => s

/-- Show the data set of the selected master (R361). -/
def State.showMaster (s : State) (d : Dom) (f : Foreign) : State :=
  ((s.wr (Reg.TIM_DOM_CLASS d) f.ann.clockClass).wr (Reg.TIM_DOM_UTC d) f.ann.utcOffset.toNat).wr (gmOf d)
    (leNat (euiOctets f.id))

/-- The instance selects its master anew (R349, R350): a first master takes it to TRACK; a change of master takes it from
QUALIFIED to TRACK. -/
def State.selectMaster (s : State) (d : Dom) : State :=
  match bestForeign (s.dom d).foreign s.sys.uptime with
  | none => s
  | some f =>
    if (s.dom d).master = some f.id && s.tracks d then (s.showMaster d f).masterPort d f.id
    else
      let s := ((s.leaveQual d).wr (Reg.TIM_DOM_STATE d) 2).wr (Reg.TIM_MASTER_PORT d) 0
      let s := s.setDom d { s.dom d with master := some f.id, sync := none, req := none, run := 0 }
      (s.showMaster d f).masterPort d f.id

/-- A message reaches the ordinary clock of an instance (R346, R347, R349, R367): TIM runs, the endpoint is active, the
instance is not DISABLED, the version is supported and DOM_PORT allows the port. -/
def State.ptpHeard (s : State) (d : Dom) (h : PtpHdr) : Bool :=
  s.epActive && s.runs .TIM && s.domState d ≠ 0 && h.version = 2 && h.minor ≤ 1 &&
    (s.rd (Reg.TIM_DOM_PORT d) = 2 || s.rd (Reg.TIM_DOM_PORT d) + 1 = portCode h.port)

/-- A rejected message (R348). -/
def State.ptpBad (s : State) : State := s.bump Reg.TIM_PTP_BAD

/-- PTP_ANNOUNCE_RX (R349, R350): the master's data set is recorded; a clockClass of the selected master that rises above
QUAL_CLASS is a loss; else the instance selects its master. -/
def execPtpAnnounceRx (d : Dom) (h : PtpHdr) (a : PtpAnn) (s : State) : Host.Outcome State Fault Refusal :=
  if !s.ptpHeard d h then .next s
  else if h.domain.toNat ≠ s.rd (Reg.TIM_DOM_NUM d) then .next s.ptpBad
  else
    let x := s.dom d
    let old := x.foreign.find? (fun f => f.id = h.master && f.port = h.port)
    let f : Foreign := { id := h.master, port := h.port, ann := a, last := s.sys.uptime, prev := old.map (fun f => f.last) }
    let rest := x.foreign.filter (fun f => !(f.id = h.master && f.port = h.port))
    let lim := s.rd (Reg.TIM_QUAL_CLASS d)
    let rose := x.master = some h.master && s.rd (Reg.TIM_DOM_CLASS d) ≤ lim && lim < a.clockClass && s.tracks d
    let s := s.setDom d { x with foreign := rest ++ [f] }
    .next (if rose then s.domLoss d else s.selectMaster d)

/-- ANNOUNCE_TIMEOUT (R349, R350): three announce intervals have passed without an Announce of the master on a port: the
other port takes over where it still hears the master; else the master is lost, and another is selected if one
qualifies. -/
def execAnnounceTimeout (d : Dom) (port : EPort) (s : State) : Host.Outcome State Fault Refusal :=
  if !s.runs .TIM || !s.tracks d then .next s
  else
    let x := s.dom d
    let rest := x.foreign.filter (fun f => !(some f.id = x.master && f.port = port))
    let s := s.setDom d { x with foreign := rest }
    if s.rd (Reg.TIM_MASTER_PORT d) ≠ portCode port then .next s
    else
      match rest.find? (fun f => some f.id = x.master) with
      | some f => .next (s.wr (Reg.TIM_MASTER_PORT d) (portCode f.port))
      | none => .next ((s.domLoss d).selectMaster d)

/-- SYNC_TIMEOUT (R350): SYNC_TMO has passed without a complete Sync. -/
def execSyncTimeout (d : Dom) (s : State) : Host.Outcome State Fault Refusal :=
  .next (if s.runs .TIM then s.domLoss d else s)

/-! ### Exchanges (R348) -/

/-- An event or general message of the selected master on MASTER_PORT. -/
def State.fromMaster (s : State) (d : Dom) (h : PtpHdr) : Bool :=
  h.domain.toNat = s.rd (Reg.TIM_DOM_NUM d) && (s.dom d).master = some h.master && s.tracks d

/-- A message of the master on another port than MASTER_PORT takes no part. -/
def State.onMasterPort (s : State) (d : Dom) (h : PtpHdr) : Bool := s.rd (Reg.TIM_MASTER_PORT d) = portCode h.port

/-- PTP_SYNC_RX (R348): t2 is stamped; a one-step Sync carries t1. -/
def execPtpSyncRx (d : Dom) (h : PtpHdr) (twoStep : Bool) (t1 : Int) (s : State) : Host.Outcome State Fault Refusal :=
  if !s.ptpHeard d h then .next s
  else if !s.fromMaster d h then .next s.ptpBad
  else if !s.onMasterPort d h then .next s
  else
    let y : SyncSt := { seqId := h.seqId, t2 := s.sys.timeNs, t1 := if twoStep then none else some t1, corr := h.corr }
    .next (s.setDom d { s.dom d with sync := some y })

/-- PTP_FOLLOW_UP_RX (R348): t1 of the Sync with the same sequenceId. -/
def execPtpFollowUpRx (d : Dom) (h : PtpHdr) (t1 : Int) (s : State) : Host.Outcome State Fault Refusal :=
  if !s.ptpHeard d h then .next s
  else if !s.fromMaster d h then .next s.ptpBad
  else if !s.onMasterPort d h then .next s
  else
    match (s.dom d).sync with
    | some y =>
      if y.seqId = h.seqId && y.t1.isNone then
        .next (s.setDom d { s.dom d with sync := some { y with t1 := some t1, corr := y.corr + h.corr } })
      else .next s.ptpBad
    | none => .next s.ptpBad

/-- FOLLOW_UP_TIMEOUT (R348): 100 ms have passed without the Follow_Up; the Sync is incomplete. -/
def execFollowUpTimeout (d : Dom) (s : State) : Host.Outcome State Fault Refusal :=
  match (s.dom d).sync with
  | some y =>
    .next (if y.t1.isNone && s.runs .TIM then s.setDom d { s.dom d with sync := none, run := 0 } else s)
  | none => .next s

/-- DELAY_REQ_SEND (R347, R348, R366): a Delay_Req leaves by MASTER_PORT, on the transport of DOM_TRANSPORT, with DEV_EUI as its
clockIdentity and portNumber 1 for A and 2 for B, and is stamped; one still unanswered breaks the run
of consecutive exchanges. -/
def execDelayReqSend (d : Dom) (s : State) : Host.Outcome State Fault Refusal :=
  if !s.epActive || !s.runs .TIM || !s.tracks d || s.rd (Reg.TIM_MASTER_PORT d) = 0 then .next s
  else
    let x := s.dom d
    let run := if x.req.isSome then 0 else x.run
    let s' := s.setDom d { x with req := some (x.reqSeq, (s.sys.timeNs : Int)), reqSeq := x.reqSeq + 1, run := run }
    .next (s'.emit (.delayReq d (if s.rd (Reg.TIM_MASTER_PORT d) = 1 then .A else .B) (s.on (Reg.TIM_DOM_TRANSPORT d))
      (BitVec.ofNat 8 (s.rd (Reg.TIM_DOM_NUM d))) s.otp.devEui x.reqSeq))

/-- The state an instance has after an exchange (R350). -/
def State.qualTest (s : State) (d : Dom) (span : Nat) : State :=
  let good := span ≤ s.rd (Reg.TIM_QUAL_NS d)
  if s.domState d = 2 then
    if good && s.rd (Reg.TIM_QUAL_N d) ≤ (s.dom d).run && s.rd (Reg.TIM_DOM_CLASS d) ≤ s.rd (Reg.TIM_QUAL_CLASS d) &&
        (s.rdS (Reg.TIM_DOM_FREQ d)).natAbs < 1099511 then
      (s.wr (Reg.TIM_DOM_STATE d) 3).ev Reg.TIM_TIM_EVT 3 120
    else s
  else if good then s else s.leaveQual d

/-- PTP_DELAY_RESP_RX (R348, R350): t4 completes the exchange; the servo's estimate is DOM_FREQ. -/
def execPtpDelayRespRx (d : Dom) (h : PtpHdr) (t4 : Int) (freq : Int) (span : Nat) (s : State) :
    Host.Outcome State Fault Refusal :=
  if !s.ptpHeard d h then .next s
  else if !s.fromMaster d h then .next s.ptpBad
  else
    let x := s.dom d
    match x.req with
    | none => .next s.ptpBad
    | some (q, t3) =>
      if q ≠ h.seqId then .next s.ptpBad
      else
        match x.sync.bind (fun y => y.t1.map (fun t1 => (y, t1))) with
        | none => .next (s.setDom d { x with req := none, run := 0 })
        | some (y, t1) =>
          let mpd : Int := ((y.t2 - t1) + (t4 - t3) - y.corr - h.corr) / 2
          let ofs : Int := t1 + y.corr + mpd - y.t2
          let x := { x with req := none, run := x.run + 1, ref := some (s.sys.timeNs + ofs, s.sys.uptime) }
          let s := ((s.setDom d x).wr (Reg.TIM_DOM_MPD d) (min mpd.toNat 0xFFFFFFFF)).wrap (Reg.TIM_DOM_EXCH d)
          let s := s.wrS (Reg.TIM_DOM_FREQ d) (max (-2147483648) (min 2147483647 freq))
          .next (s.qualTest d span)

/-! ### Selection, the step and steering (R354 to R359, R404) -/

/-- The other domain. -/
def otherDom (d : Dom) : Dom :=
  match d with
  | .A => .B
  | .B => .A

/-- select() (R354). -/
def State.select (s : State) : Option Dom :=
  let q := fun (d : Dom) => s.domState d = 3
  let first := fun (d : Dom) => if q d then some d else if q (otherDom d) then some (otherDom d) else none
  let pref := if s.on Reg.TIM_DOM_PREF then Dom.B else Dom.A
  match s.rd Reg.TIM_SEL_MODE with
  | 0 => first pref
  | 1 => first (s.tim.sel.getD pref)
  | 2 => if q .A then some .A else none
  | _ => if q .B then some .B else none

/-- A change of selection is counted (R354). -/
def State.noteSel (s : State) (sel : Option Dom) : State :=
  if s.tim.sel = sel then s
  else ({ (s.bump Reg.TIM_SEL_SWITCH) with tim.sel := sel }).ev Reg.TIM_TIM_EVT 0 120

/-- SRC of a selection. -/
def srcOf (sel : Option Dom) : Nat :=
  match sel with
  | some .A => 1
  | some .B => 2
  | none => 0

/-- The bound of R341 on a rate. -/
def clampRate (x : Int) : Int := max (-1099511) (min 1099511 x)

/-- STEER_OFS, and the warning as it rises above its threshold (R356). -/
def State.steerOfs (s : State) (o : Int) : State :=
  let lim := s.rd Reg.TIM_OFS_WARN_US * 1000
  let was := (s.rdS Reg.TIM_STEER_OFS).natAbs
  let s := s.wrS Reg.TIM_STEER_OFS o
  if was ≤ lim && lim < o.natAbs then s.ev Reg.TIM_TIM_EVT 4 120 else s

/-- The time base is set (R340, R357): SCH places what waited for it (R210, R340). -/
def State.timeSet (s : State) : State :=
  let s := (s.wr Reg.TIM_TIME_SET 1).ev Reg.TIM_TIM_EVT 5 120
  s.ntb.slots.foldl (fun (s : State) (p : Nat × Slot) => if p.2.entry.qne then s.placeNode p.2.entry.handle else s) s

/-- The step (R357): the time base is loaded with the time base plus `o`; stamps of exchanges and heartbeats keep their
distance to it, and capacity changes that wait take the first boundary of the stepped time base 100 µs or more away
(R200). -/
def State.stepTime (s : State) (o rate : Int) : State :=
  let shift := fun (x : DomSt) => { x with
    sync := x.sync.map (fun y => { y with t2 := y.t2 + o }), req := x.req.map (fun r => (r.1, r.2 + o)) }
  let s := { s with sys.timeNs := ((s.sys.timeNs + o) % 2 ^ 64).toNat, tim.domA := shift s.tim.domA,
                    tim.domB := shift s.tim.domB }
  let s := { s with
    grn.cap := s.grn.cap.map (fun (c : Nat × CapChange) => (s.boundary, c.2)),
    twn.ofs := s.twn.ofs.map (fun x => x - o), twn.sent := s.twn.sent.map (fun (x : Word × Nat) => (x.1, ((x.2 : Int) + o).toNat)),
    twn.rxTime := ((s.twn.rxTime : Int) + o).toNat }
  ((s.wrS Reg.TIM_RATE_ADJ (clampRate rate)).wr Reg.TIM_STEPPED 1).timeSet

/-- The unit steers by its partner (R404): not ACTIVE, with the link up and an ACTIVE partner. -/
def State.byTwin (s : State) : Option Int :=
  if s.on Reg.TWN_TW_EN && s.rd Reg.TWN_TW_STATE ≠ 2 && s.on Reg.TWN_TW_LINK && s.twn.partner = 2 then s.twn.ofs else none

/-- An update before the time base is set (R357, R404): the step, once something to step to is selected. -/
def State.acquire (s : State) : State :=
  match (if s.twn.partnerTime then s.byTwin else none) with
  | some o => s.stepTime o s.twn.partnerRate
  | none =>
    match s.select with
    | some d =>
      let o := s.domOfs d
      let f := s.rdS (Reg.TIM_DOM_FREQ d)
      let s := { (s.noteSel (some d)).wr Reg.TIM_SRC (srcOf (some d)) with tim.holdF := f }
      s.stepTime o f
    | none => s

/-- The rate of steer() (R355): the frequency term, and the phase term in what SLEW_MAX and the bound leave. -/
def State.steerRate (s : State) (f o : Int) : State :=
  let tc := s.rd Reg.TIM_STEER_TC
  let smax : Int := s.rd Reg.TIM_SLEW_MAX
  -- p = n / tc ns per second, 1 ns/s is 1099.511627776 units
  let n := max (-(smax * tc)) (min (smax * tc) o)
  let a := f + roundDiv (n * 1099511627776) (tc * 1000000000)
  let s := if clampRate a ≠ a then s.bump Reg.TIM_ADJ_CLAMP else s
  s.wrS Reg.TIM_RATE_ADJ (clampRate a)

/-- steer() (R355, R359, R404). -/
def State.steer (s : State) : State :=
  let sel := s.select
  let s := s.noteSel sel
  match s.byTwin with
  | some o =>
    let src := if sel = none && s.rd Reg.TIM_SRC = 3 then 3 else srcOf sel
    ((({ s with tim.holdover := false }).wr Reg.TIM_SRC src).steerRate s.twn.partnerRate o).steerOfs o
  | none =>
    match sel with
    | none =>
      if s.rd Reg.TIM_SRC = 3 then s.steerOfs 0
      else if !s.tim.holdover then
        let s := (({ s with tim.holdover := true }).wr Reg.TIM_SRC 0).ev Reg.TIM_TIM_EVT 1 120
        (s.wrS Reg.TIM_RATE_ADJ (clampRate s.tim.holdF)).steerOfs 0
      else s.steerOfs 0
    | some d =>
      let f := s.rdS (Reg.TIM_DOM_FREQ d)
      let o := s.domOfs d
      let s := { s with tim.holdover := false, tim.holdF := f }
      ((s.wr Reg.TIM_SRC (srcOf sel)).steerRate f o).steerOfs o

/-- Stage 10 has begun, outside service mode. -/
def State.steering (s : State) : Bool :=
  s.up && s.runs .TIM && 0xA ≤ s.rd Reg.SYS_BOOT_STAGE && s.rd Reg.SYS_BOOT_STAGE ≤ 0xD

/-- STEER_UPDATE (R355, R357): the update every 125 ms. -/
def execSteerUpdate (s : State) : Host.Outcome State Fault Refusal :=
  if !s.steering then .next s
  else if s.on Reg.TIM_TIME_SET then .next s.steer
  else .next s.acquire

/-- TIME_ACQ_EXPIRE (R81, R357, R358): the budget's own update under TIME_POLICY = 1: a step if something is selected, else
a free start. -/
def execTimeAcqExpire (s : State) : Host.Outcome State Fault Refusal :=
  if !s.steering || s.on Reg.TIM_TIME_SET || !s.on Reg.SYS_TIME_POLICY then .next s
  else
    let s := s.acquire
    if s.on Reg.TIM_TIME_SET then .next s
    else .next (((s.wr Reg.TIM_SRC 3).wr Reg.SYS_TIME_FREE 1).timeSet)

/-- PPS_EDGE (R41): PPS_OUT rises at a whole second of a set time base. -/
def execPpsEdge (s : State) : Host.Outcome State Fault Refusal :=
  .next (if s.up && s.on Reg.TIM_TIME_SET then s.emit (.pps s.sys.timeNs) else s)

end Sys2Proof.Machine
end

