-- ==== Sys2Proof/Machine/Backhaul.lean ====
section
/-!
DEFINITION. The commands of the backhaul: links, bridge with the transparent clock, local endpoint, datagrams, management
requests, headless tunnel (R351 to R353, R362 to R378).
-/

namespace Sys2Proof.Machine

/-! ### Links (R362) -/

/-- The backhaul ports are in use (R80, R88): ETH runs, after stage 8, outside service mode. -/
def State.ethOn (s : State) : Bool :=
  s.up && s.live && s.rd Reg.SYS_BOOT_STAGE ≠ 0xE && !s.halted && s.runs .ETH

/-- The bit of a port in LINK_STAT. -/
def portBit (p : EPort) : Nat :=
  match p with
  | .A => 0
  | .B => 1

/-- PORT_MODE of a port. -/
def State.portMode (s : State) (p : EPort) : Nat :=
  match p with
  | .A => s.rd Reg.ETH_PORT_MODE_A
  | .B => s.rd Reg.ETH_PORT_MODE_B

/-- The other port. -/
def otherPort (p : EPort) : EPort :=
  match p with
  | .A => .B
  | .B => .A

/-- A port is up. -/
def State.portUp (s : State) (p : EPort) : Bool := (s.rd Reg.ETH_LINK_STAT).testBit (portBit p)

/-- Both ports are up in the same mode. -/
def State.bothUp (s : State) : Bool := (s.rd Reg.ETH_LINK_STAT).testBit 4

/-- Set the state of a port: its up bit, LOS and bit 4 follow; a change of the port's state sets LINK_CHG. -/
def State.setLink (s : State) (p : EPort) (up los : Bool) : State :=
  let was := s.portUp p
  let upA := if p = .A then up else s.portUp .A
  let upB := if p = .B then up else s.portUp .B
  let old := s.rd Reg.ETH_LINK_STAT
  let losA := if p = .A then los else old.testBit 2
  let losB := if p = .B then los else old.testBit 3
  let both := upA && upB && s.portMode .A = s.portMode .B
  let s := s.wr Reg.ETH_LINK_STAT (b2n upA + 2 * b2n upB + 4 * b2n losA + 8 * b2n losB + 16 * b2n both)
  if was ≠ up then s.ev Reg.ETH_ETH_EVT 0 128 else s

/-- LINK_CHANGE (R362): a port is up while its bring-up is complete and its LOS pin is low; a disabled port never is. -/
def execLinkChange (p : EPort) (up los : Bool) (s : State) : Host.Outcome State Fault Refusal :=
  .next (if s.ethOn then s.setLink p (up && !los && s.portMode p ≠ 0) los else s)

/-! ### The bridge and the transparent clock (R351 to R353, R363 to R366) -/

/-- What the transparent clock makes of a PTP frame: its correctionField as sent, its UDP checksum (R352), and the counter that
moves. -/
def State.correct (s : State) (f : EthFrame) (p : PtpFrame) : Int × UdpSum × State :=
  if !s.on Reg.TIM_TC_EN || p.version ≠ 2 || !p.event then (p.corr, .kept, s)
  else if 2 < f.vlans.length || (p.transport = 2 && (p.extHdr || p.udpSumZero)) then
    (p.corr, .kept, s.bump Reg.TIM_TC_SKIP)
  else if p.transport = 2 && p.udpLen < p.msgLen + 2 then (p.corr, .kept, s.bump Reg.TIM_TC_NOPAD)
  else
    (min (p.corr + p.residence) 0x7FFFFFFFFFFFFFFF,
      if p.transport = 1 then .zeroed else if p.transport = 2 then .padded else .kept, s.wrap Reg.TIM_TC_FIXED)

/-- Forward a frame to the other port (R351, R364, R365). -/
def State.forward (s : State) (p : EPort) (f : EthFrame) : State :=
  let q := otherPort p
  let cut := s.bothUp && !f.egressBusy
  if !s.portUp q then s
  else if !cut && !f.fits then s.bump Reg.ETH_BR_DROP
  else if !cut && !f.fcsOk then s.bump Reg.ETH_BR_FCS
  else
    let pr : Int × UdpSum × State := match f.payload with
      | .ptp x => s.correct f x
      | _ => (0, .kept, s)
    let s := pr.2.2
    let s := s.wrap (match p with
      | .A => Reg.ETH_BR_FWD_AB
      | .B => Reg.ETH_BR_FWD_BA)
    s.emit (.ethFrame q f pr.1 pr.2.1 f.fcsOk)

/-! ### The endpoint (R367, R368) -/

/-- EP_IP6, first octet the most significant. -/
def State.epIp6 (s : State) : BitVec 128 :=
  BitVec.ofNat 128 (leNat ((List.range 16).map (fun i => BitVec.ofNat 8 (s.rdI Reg.ETH_EP_IP6 (15 - i)))))

/-- HE_IP6. -/
def State.heIp6 (s : State) : BitVec 128 :=
  BitVec.ofNat 128 (leNat ((List.range 16).map (fun i => BitVec.ofNat 8 (s.rdI Reg.ETH_HE_IP6 (15 - i)))))

/-- The link-local address formed from EP_MAC as a modified EUI-64. -/
def State.epLocal (s : State) : BitVec 128 :=
  let o := fun (i : Nat) => bits (s.rd Reg.ETH_EP_MAC) (8 * i) 8
  BitVec.ofNat 128 (0xFE80 * 2 ^ 112 + (o 0 ^^^ 2) * 2 ^ 56 + o 1 * 2 ^ 48 + o 2 * 2 ^ 40 + 0xFF * 2 ^ 32 +
    0xFE * 2 ^ 24 + o 3 * 2 ^ 16 + o 4 * 2 ^ 8 + o 5)

/-- Whether the parts of a reassembly cover a whole datagram from its start, by at most `n` steps. -/
def coversFrom (n at_ : Nat) (l : List (Nat × Nat × Bool)) : Bool :=
  match n with
  | 0 => false
  | n + 1 =>
    match l.find? (fun p => p.1 = at_) with
    | some (_, len, more) => if more then len ≠ 0 && coversFrom n (at_ + len) l else true
    | none => false

/-- A fragment reaches the endpoint (R368): a datagram whose last part this is comes as DATAGRAM_RX. -/
def State.fragment (s : State) (f : Frag) : State :=
  let parts := match s.eth.reasm.find? (fun r => r.id = f.id) with
    | some r => r.parts
    | none => []
  let rest := s.eth.reasm.filter (fun r => r.id ≠ f.id)
  let l := parts ++ [(f.off, f.len, f.more)]
  if 9216 + 8 < f.off + f.len || (parts.isEmpty && 4 ≤ s.eth.reasm.length) then s.bump Reg.ETH_FRAG_DROP
  else if coversFrom l.length 0 l then { s with eth.reasm := rest }
  else { s with eth.reasm := rest ++ [{ id := f.id, parts := l }] }

/-- REASSEMBLY_TIMEOUT (R368). -/
def execReassemblyTimeout (id : Word) (s : State) : Host.Outcome State Fault Refusal :=
  if s.runs .ETH && s.eth.reasm.any (fun r => r.id = id) then
    .next (({ s with eth.reasm := s.eth.reasm.filter (fun r => r.id ≠ id) }).bump Reg.ETH_FRAG_DROP)
  else .next s

/-- A frame is offered to the active endpoint (R367). PTP messages reach the ordinary clock as the PTP commands, whole UDP
datagrams as DATAGRAM_RX. -/
def State.offerEp (s : State) (p : EPort) (f : EthFrame) : State :=
  let vid := s.rd Reg.ETH_EP_VID
  let tagOk := if vid = 0 then f.vlans.isEmpty else f.vlans = [BitVec.ofNat 12 vid]
  let mine := fun (a : BitVec 128) => decide (a = s.epIp6) || decide (a = s.epLocal)
  let drop := s.bump Reg.ETH_EP_DROP
  if !f.fcsOk || !tagOk then drop
  else
    match f.payload with
    | .solicit a => if mine a then s.emit (.ndAdvert p a) else drop
    | .echo a => if mine a then s.emit (.echoReply s.eth.gwPort a) else drop
    | .ptp x => if x.transport = 1 then drop else s
    | .udp a port frag =>
      if a = s.epIp6 && (port = s.rd Reg.ETH_MGT_PORT || port = s.rd Reg.ETH_TUN_PORT) then
        match frag with
        | some x => s.fragment x
        | none => s
      else drop
    | _ => drop

/-- BRIDGE_RX (R363 to R367): a frame is received on a port that is up. -/
def execBridgeRx (p : EPort) (f : EthFrame) (s : State) : Host.Outcome State Fault Refusal :=
  if !s.ethOn || !s.portUp p then .next s
  else if f.payload = .macControl then .next s
  else if f.len < 64 || 9216 < f.len then .next (s.bump Reg.ETH_BR_DROP)
  else
    let s := if f.fcsOk && f.sa.toNat = s.rd Reg.ETH_GW_MAC then { s with eth.gwPort := p } else s
    if !s.epActive then .next (s.forward p f)
    else if f.da.getLsbD 0 then .next ((s.forward p f).offerEp p f)
    else if f.da.toNat = s.rd Reg.ETH_EP_MAC then .next (s.offerEp p f)
    else .next (s.forward p f)

/-! ### Datagrams (R369 to R373) -/

/-- The headless tunnel runs (R375, R397). -/
def State.tunRuns (s : State) : Bool := s.headless && s.epActive && s.heIp6 ≠ 0 && !s.standby

/-- The tunnel key of the current epoch (R370). -/
def State.tunKey (s : State) : Option Key :=
  if s.rd Reg.KEY_KSTATE = 1 then some (.tunnel s.aon.store.net s.aon.store.epoch s.devIdent) else none

/-- The key that an inbound datagram is secured under, if it is available (R371 check 3). -/
def State.dgKey (s : State) (d : Dgram) : Option Key :=
  if d.chan = 1 then (if s.key.zeroised then none else s.mgmtKey)
  else if s.rd Reg.KEY_KSTATE ≠ 1 then none
  else if d.epoch = s.aon.store.epoch then s.tunKey
  else
    match s.key.prevEpoch with
    | some (net, e) => if d.epoch = e then some (.tunnel net e s.devIdent) else none
    | none => none

/-- The VER of an outbound datagram of a channel (R372). -/
def State.outVer (s : State) (chan : Byte) : Byte := if chan = 1 then s.eth.mgtVer else s.eth.tunVer

/-- An INFO reply (R372): at most one in 10 ms; on the channel of the datagram it answers, with DIR 0x01 (log entry 19). -/
def State.infoReply (s : State) (d : Dgram) : State :=
  let quiet : Bool := match s.eth.infoAt with
    | some t => decide (t + 10 * msTicks ≤ s.sys.uptime)
    | none => true
  if quiet then
    let p := [BitVec.ofNat 8 (s.rd Reg.SYS_VER_MGT), s.epochCur, BitVec.ofNat 8 (s.rd Reg.SYS_LC_STATE), 0] ++
      leBytes 32 s.devIdent.toNat
    ({ (s.bump Reg.ETH_INFO_SENT) with eth.infoAt := some s.sys.uptime }).sendDg d.chan 0xF0 1 0 0 0 (s.outVer d.chan) none d.srcIp d.srcPort p
  else s

/-- TYPE is defined for the channel and direction at its VER (R373, R375), and its payload has its shape: that of a request holds
its record's fixed part (log entry 79). -/
def typeOk (d : Dgram) : Bool :=
  let n := d.payload.length
  if d.chan = 1 then
    d.dir = 0 && ((d.type = 1 && 48 ≤ n) || (d.type = 2 && 0x40 ≤ n) || (d.type = 3 && d.ver = 2 && n = 0))
  else (d.dir = 0 && ((d.type = 0x10 && 16 ≤ n) || (d.type = 0x11 && n = 64))) || (d.dir = 2 && d.type = 0x1F && n = 0)

/-- The SEQ and TYPE of a datagram on queue 0x22. -/
def QItem.tunnel (it : QItem) : Option (Word × Byte) :=
  match it.note with
  | .tunnel seq type => some (seq, type)
  | _ => none

/-- The datagrams on queue 0x22 below TUN_TX_ACKED are released (R377), `n` at most; while CAR is stopped the release waits
for a credit (R16). -/
def State.trimOut (s : State) (n : Nat := (s.sysQ 0x22).items.length) : State :=
  match n with
  | 0 => s
  | n + 1 =>
    match ((s.sysQ 0x22).items.head?).bind QItem.tunnel with
    | some (seq, _) =>
      if s.runs .CAR && seq.toNat < s.rd Reg.ETH_TUN_TX_ACKED then (s.releaseSys 0x22).trimOut n else s
    | none => s

/-- ETH releases outbound datagrams that the head-end has acknowledged (R377). -/
def State.ackOut (s : State) (ack : Word) : State :=
  if s.rd Reg.ETH_TUN_TX_ACKED < ack.toNat && ack.toNat ≤ s.rd Reg.ETH_TUN_TX_NEXT then
    ({ s.wr Reg.ETH_TUN_TX_ACKED ack.toNat with
      eth.rtoCnt := 0 }).trimOut
  else s

/-- A DOWN record of the tunnel waits for admission in CAR (R376). -/
def State.tunWaits (s : State) : Bool := s.headless && s.car.admitQ.any (fun w => w.hdr.ring = 0)

/-- An inbound data datagram under R376: whether its record is accepted. An ACK falls due in any case. -/
def State.tunSeq (s : State) (d : Dgram) (room : Bool) : Bool × State :=
  let s := { s with eth.ackDue := true }
  let next := s.rd Reg.ETH_TUN_RX_NEXT
  if d.seq.toNat < next then (false, s.bump Reg.ETH_TUN_DUP)
  else if next < d.seq.toNat || !room then (false, s.bump Reg.ETH_TUN_OOO)
  else (true, ({ s.wr Reg.ETH_TUN_RX_NEXT (next + 1) with eth.tunVer := d.ver }).ackOut d.ack)

/-- Data datagrams at the front whose TYPE or shape fails: the SEQ of one that passes R376 is consumed, and it counts in
DG_BAD (R371 checks 5 and 6). -/
def State.dgDrain (s : State) (n : Nat) : State :=
  match n with
  | 0 => s
  | n + 1 =>
    match s.eth.dgrams with
    | (false, d) :: rest =>
      let pr := ({ s with eth.dgrams := rest }).tunSeq d (!s.tunWaits)
      (if pr.1 then pr.2.bump Reg.ETH_DG_BAD else pr.2).dgDrain n
    | _ => s

/-- A datagram is kept for the island it is meant for: a management request on queue 0x20 (R373). -/
def State.dgKeep (s : State) (ok : Bool) (d : Dgram) : State :=
  if d.chan = 1 then s.deviceItem 0x20 (some (devHdr 6 0 0 0 none)) d.payload (.request d)
  else
    let t : State := { s with eth.dgrams := s.eth.dgrams ++ [(ok, d)] }
    t.dgDrain (s.eth.dgrams.length + 1)

/-- A datagram that fails check 3, 4 or 5 of R371. -/
def State.dgReject (s : State) (f : Fld) : State := (s.bump f).ev Reg.ETH_ETH_EVT 2 128

/-- DATAGRAM_RX (R371): the checks in their order. -/
def execDatagramRx (d : Dgram) (s : State) : Host.Outcome State Fault Refusal :=
  let chanOk := (d.chan = 1 && d.port = s.rd Reg.ETH_MGT_PORT) ||
    (d.chan = 2 && d.port = s.rd Reg.ETH_TUN_PORT && s.tunRuns)
  let bad := s.bump Reg.ETH_DG_BAD
  if !s.epActive then .next s
  else if d.udpLen < 48 || !d.magicOk || !chanOk || !d.lenOk then .next bad
  else if !(d.ver = 1 || d.ver = 2) || d.bootId.toNat ≠ s.rd Reg.ETH_BOOT_ID || d.type = 0 then .next (s.infoReply d)
  else
    match s.dgKey d with
    | none => .next (s.dgReject Reg.ETH_DG_NOKEY)
    | some k =>
      let data := d.chan = 2 && d.dir = 0
      let last := if d.chan = 1 then s.eth.mgtRx else s.eth.ctlRx
      if d.tag ≠ some k then .next (s.dgReject Reg.ETH_DG_AUTH)
      else if !data && d.seq.toNat ≤ last.toNat then .next (s.dgReject Reg.ETH_DG_REPLAY)
      else if !typeOk d then .next (if data then s.dgKeep false d else bad)
      else
        let s := if d.chan = 1 then { s with eth.mgtRx := d.seq, eth.mgtVer := d.ver }
          else if data then s
          else { s with eth.ctlRx := d.seq, eth.tunVer := d.ver }
        .next (s.dgKeep true d)

/-- The datagram at the front if it is of a channel and type. -/
def State.dgFront (s : State) (chan type : Byte) : Option Dgram :=
  match s.eth.dgrams with
  | (true, d) :: _ => if d.chan = chan && d.type = type && s.runs .ETH then some d else none
  | _ => none

/-- The datagram at the front is taken. -/
def State.dgPop (s : State) : State := { s with eth.dgrams := s.eth.dgrams.tail }

/-- The management request at HEAD of queue 0x20 if it is of a type (R373): SYS takes it. -/
def State.mgtFront (s : State) (type : Byte) : Option Dgram :=
  match ((s.sysQ 0x20).items.head?).map (fun (it : QItem) => it.note) with
  | some (.request d) => if d.type = type && s.runs .CAR then some d else none
  | _ => none

/-- Where the response to a management request goes. -/
def mgtFrom (d : Dgram) : ReplyTo := { src := .management, ip := d.srcIp, port := d.srcPort, ver := d.ver }

/-- MGT_SESSION (R373): the session record goes to SYS. -/
def execMgtSession (s : State) : Host.Outcome State Fault Refusal :=
  match s.mgtFront 1 with
  | some d => .next ((s.releaseSys 0x20).sessPost (mgtFrom d) { bytes := d.payload })
  | none => .next s

/-- MGT_KEY_UPDATE (R373): the message goes to KEY. -/
def execMgtKeyUpdate (s : State) : Host.Outcome State Fault Refusal :=
  match s.mgtFront 2 with
  | some d => .next ((s.releaseSys 0x20).kuPost (mgtFrom d) { bytes := d.payload, terms := d.ku })
  | none => .next s

/-! ### The headless tunnel (R375 to R378) -/

/-- Send one tunnel datagram, secured under the current epoch (R377). -/
def State.tunSend (s : State) (type dir : Byte) (seq : Word) (payload : List Byte) : State :=
  match s.tunKey with
  | some k => s.sendDg 2 type dir seq (BitVec.ofNat 32 (s.rd Reg.ETH_TUN_RX_NEXT)) s.aon.store.epoch s.eth.tunVer (some k)
      s.heIp6 (s.rd Reg.ETH_HE_PORT) payload
  | none => s

/-- TUN_DOWN (R375, R376): the record at the front becomes a transmit frame of ring 0. -/
def execTunDown (s : State) : Host.Outcome State Fault Refusal :=
  match s.dgFront 2 0x10 with
  | none => .next s
  | some d =>
    let s := s.dgPop
    let room := !s.tunWaits && s.rdB Reg.HST_RING_FENCED 0 0 = 0 && s.tunRuns
    let pr := s.tunSeq d room
    let s := pr.2
    if !pr.1 then .next (s.dgDrain s.eth.dgrams.length)
    else
      let idx := d.seq.setWidth 16
      let pr := s.readTx (d.payload.take 16) (d.payload.length - 16) (d.payload.drop 16) true 0 idx
      let tgt := pr.1
      let w := pr.2
      let slot : TxSlot := { idx := idx, tgt := tgt, handle := w.hdr.handle, hseq := w.hdr.seq, enqueued := false,
                             done := none, tunSeq := some d.seq }
      let s := ({ s with hst.txSlots := s.hst.txSlots ++ [(0, slot)] }).postItem w
      .next (s.dgDrain s.eth.dgrams.length)

/-- TUN_TABLE (R375, R376): the record at the front becomes a table command. -/
def execTunTable (s : State) : Host.Outcome State Fault Refusal :=
  match s.dgFront 2 0x11 with
  | none => .next s
  | some d =>
    let s := s.dgPop
    let pr := s.tunSeq d (!s.tunWaits && s.rdB Reg.HST_RING_FENCED 0 tblRing = 0 && s.tunRuns)
    let s := pr.2
    if !pr.1 then .next (s.dgDrain s.eth.dgrams.length)
    else
      let n := s.ntb.tblSeq
      let s := ({ s with ntb.tblSeq := n + 1 }).tblPost { seq := n, bytes := d.payload, tunnel := true, aborted := false }
      .next (s.dgDrain s.eth.dgrams.length)

/-- TUN_ACK_RX (R377): an ACK datagram of the head-end. -/
def execTunAckRx (s : State) : Host.Outcome State Fault Refusal :=
  match s.dgFront 2 0x1F with
  | some d => .next ((s.dgPop.ackOut d.ack).dgDrain s.eth.dgrams.length)
  | none => .next s

/-- TUN_ACK_SEND (R376): an ACK is due and no data datagram has carried it. -/
def execTunAckSend (s : State) : Host.Outcome State Fault Refusal :=
  if s.eth.ackDue && s.tunRuns && s.tunKey.isSome then
    let n := s.eth.ctlTx
    .next (({ s with eth.ackDue := false, eth.ctlTx := n + 1 }).tunSend 0x9F 3 n [])
  else .next s

/-- The payload of the item at HEAD of a drained system queue, with its TYPE (R375, R389). -/
def tunPayload (q : Nat) (it : QItem) : Byte × List Byte :=
  if q < 0x12 then
    (0x90, rxCompletion it 3 ++ (if it.hdr.isSome then it.body else it.body ++ List.replicate (64 - it.body.length) 0))
  else (0x91, [BitVec.ofNat 8 q] ++ List.replicate 15 0 ++ (List.range 16).map (fun i => it.body.getD i 0))

/-- The queue that is drained next (R377): system queues 0x00 to 0x13 in rotation; the records that take the place of
completions rotate with them as one queue, 0x14 (log entry 36). -/
def State.drainPick (s : State) : Option Nat :=
  let l := (List.range 21).map (fun i => (s.eth.rot + 1 + i) % 21)
  l.find? (fun q => if q = 0x14 then !s.eth.outQ.isEmpty else !(s.sysQ q).items.isEmpty)

/-- Send the next outbound data datagram, which stays on queue 0x22 until it is acknowledged (R377). -/
def State.tunData (s : State) (type : Byte) (payload : List Byte) : State :=
  let n := BitVec.ofNat 32 (s.rd Reg.ETH_TUN_TX_NEXT)
  let s : State := { s.wrap Reg.ETH_TUN_TX_NEXT with eth.ackDue := false }
  (s.linkSys 0x22 (some (devHdr 6 0 0 0 none)) payload (.tunnel n type)).tunSend type 1 n payload

/-- TUN_DRAIN (R377): one item goes to queue 0x22 and leaves, while CAR runs, the window and the tunnel key allow, and the
pool has room for the largest datagram (log entry 18). -/
def execTunDrain (s : State) : Host.Outcome State Fault Refusal :=
  if !s.tunRuns || s.tunKey.isNone || !s.runs .CAR || s.freeCells < 40 ||
      s.rd Reg.ETH_TUN_WIN ≤ (s.sysQ 0x22).items.length then .next s
  else
    match s.drainPick with
    | none => .next s
    | some q =>
      let s := { s with eth.rot := q }
      if q = 0x14 then
        match s.eth.outQ with
        | (type, p) :: rest => .next (({ s with eth.outQ := rest }).tunData type p)
        | [] => .next s
      else
        match (s.sysQ q).items.head? with
        | some it =>
          let pr := tunPayload q it
          let type := pr.1
          let p := pr.2
          .next ((s.releaseSys q).tunData type p)
        | none => .next s

/-- An outbound tunnel datagram is sent again. -/
def State.tunResend (s : State) (it : QItem) : State :=
  match QItem.tunnel it with
  | some (seq, type) => s.tunSend type 1 seq it.body
  | none => s

/-- TUN_RTO_EXPIRE (R377, R380): every unacknowledged datagram is sent again. -/
def execTunRtoExpire (s : State) : Host.Outcome State Fault Refusal :=
  let out := (s.sysQ 0x22).items
  if !s.tunRuns || s.tunKey.isNone || !s.runs .CAR || out.isEmpty then .next s
  else
    let s := out.foldl State.tunResend s
    let s : State := { (s.bumpN Reg.ETH_TUN_RETX out.length) with
      eth.rtoCnt := s.eth.rtoCnt + 1, eth.ackDue := false }
    .next (if s.eth.rtoCnt = 3 then s.ev Reg.ETH_ETH_EVT 1 128 else s)

/-! ### The mailbox (R385) -/

/-- Where the response to a mailbox record goes; its version is HIF_SEL as the record is read (R388). -/
def State.mbxFrom (s : State) : ReplyTo :=
  { src := .mailbox, ip := 0, port := 0, ver := BitVec.ofNat 8 (s.rd Reg.SYS_HIF_SEL) }

/-- The effect of a kind written to MBX_CMD: the record is read and handed on; while PENDING the write has no effect. -/
def State.mbxCmd (s : State) (f : State → ReplyTo → State) : State :=
  if s.rd Reg.HST_MBX_STAT = 1 then s.wr Reg.HST_MBX_OVR 1
  else if s.dma then
    let s := { s.wr Reg.HST_MBX_STAT 1 with hst.mbx := true }
    f s s.mbxFrom
  else s

/-- MBX_SESSION: the host writes 0b01 to MBX_CMD with a session record at MBX_ADDR, of which HST reads MBX_LEN bytes
(R385). -/
def execMbxSession (r : SessRec) (s : State) : Host.Outcome State Fault Refusal :=
  .next (s.hostOp .HST (fun s => s.mbxCmd (fun s dst =>
    s.sessPost dst { bytes := r.bytes.take (s.rd Reg.HST_MBX_LEN) })))

/-- MBX_KEY_UPDATE: the host writes 0b10 to MBX_CMD with a key-update message at MBX_ADDR, of which HST reads
MBX_LEN bytes (R385). -/
def execMbxKeyUpdate (m : KuMsg) (s : State) : Host.Outcome State Fault Refusal :=
  .next (s.hostOp .HST (fun s => s.mbxCmd (fun s dst =>
    s.kuPost dst { m with bytes := m.bytes.take (s.rd Reg.HST_MBX_LEN) })))

end Sys2Proof.Machine
end

