-- ==== Sys2Proof/Machine/Irq.lean ====
section
/-!
DEFINITION. The interrupt controller: latches, deliveries to MSI-X vectors and cores, masks, targets, replay (R432 to
R443).
-/

namespace Sys2Proof.Machine

/-- Assigned sources as closed ranges (R432, R460). -/
def sourceRanges : List (Nat × Nat) :=
  [(0, 21), (24, 36), (40, 44), (48, 52), (56, 57), (64, 66), (72, 76), (80, 84), (88, 91), (96, 110), (112, 118),
   (120, 125), (128, 130), (136, 138), (144, 190)]

/-- A source that the table assigns. -/
def assigned (n : Nat) : Bool := sourceRanges.any (fun r => r.1 ≤ n && n ≤ r.2)

/-- PEND of a source. -/
def State.pendOf (s : State) (n : Nat) : Bool := s.rdI Reg.IRQ_SRC_CTL_PEND n = 1

/-- EN of a source. -/
def State.enOf (s : State) (n : Nat) : Bool := s.rdI Reg.IRQ_SRC_CTL_EN n = 1

/-- HST sends the message of a vector, to the address and with the data of its table entry, or sets its bit in the PBA while sending is forbidden (R435). -/
def State.msixSend (s : State) (v : Nat) : State :=
  if s.irq.msixEn && !s.irq.msixMask && !s.irq.vecMask.getLsbD v then s.emit (.msix v (s.irq.table.getD v (0, 0)))
  else { s with irq.pba := s.irq.pba ||| BitVec.ofNat 16 (2 ^ v) }

/-- A delivery is decided (R434 to R436): to the target that TGT names now. One to a vector stays undecided while HST is
stopped. -/
def State.deliverIrq (s : State) (n : Nat) : State :=
  let t := s.rdI Reg.IRQ_SRC_CTL_TGT n
  if t < 16 && !s.runs .HST then
    if s.irq.held.contains n then s else { s with irq.held := s.irq.held ++ [n] }
  else
    let s := (s.wr Reg.IRQ_LAST_SRC n).wrap Reg.IRQ_DELIVERIES
    if t < 16 then s.msixSend t
    else
      let c := t - 16
      let z := s.rd Reg.IRQ_CORE_SLEEP
      let s := { s with irq.atCore := s.irq.atCore ++ [(n, true)] }
      (if z.testBit c then s.wr Reg.IRQ_CORE_SLEEP (z - 2 ^ c) else s).emit (.core c)

/-- Decide a delivery where PEND and EN both hold. -/
def State.deliverIf (s : State) (n : Nat) : State := if s.pendOf n && s.enOf n then s.deliverIrq n else s

/-- Deliver every source with PEND = 1 and EN = 1, in ascending order (R418, R442). -/
def State.deliverAll (s : State) : State := (List.range 192).foldl State.deliverIf s

/-- HST has restarted: the deliveries that were kept undecided are decided (R435). -/
def State.flushIrq (s : State) : State := s.irq.held.foldl State.deliverIf { s with irq.held := [] }

/-- An edge reaches IRQ (R433, R434): a reserved source never sets PEND; on a PEND that is set the edge adds nothing. -/
def State.latch (s : State) (n : Nat) : State :=
  if !assigned n || s.pendOf n then s else (s.wrI Reg.IRQ_SRC_CTL_PEND n 1).deliverIf n

/-- PEND of a source is cleared: what was delivered to a core for it stands no more (R433, R436). -/
def State.pendDrop (s : State) (n : Nat) : State :=
  { s.wrI Reg.IRQ_SRC_CTL_PEND n 0 with
    irq.held := s.irq.held.erase n, irq.atCore := s.irq.atCore.map (fun p => if p.1 = n then (n, false) else p) }

/-- A core's firmware clears PEND of a source after handling its oldest delivery there: only the latch delivered goes (R436). -/
def State.coreClear (s : State) (n : Nat) : State :=
  match s.irq.atCore.find? (fun p => p.1 = n) with
  | some p =>
    let s := { s with irq.atCore := s.irq.atCore.erase p }
    if p.2 then s.pendDrop n else s
  | none => s

/-- A write of a source's control byte: PEND is cleared first, then TGT, then EN take effect (R433, R434, R441). -/
def State.srcCtl (s : State) (n : Nat) (clr : Bool) (tgt : Option Nat) (en : Option Bool) : State :=
  let s := if clr then s.pendDrop n else s
  let s := match tgt with
    | some t => s.wrI Reg.IRQ_SRC_CTL_TGT n (min 19 t)
    | none => s
  let was := s.enOf n
  let s := match en with
    | some e => s.wrI Reg.IRQ_SRC_CTL_EN n (if e then 1 else 0)
    | none => s
  if s.irq.held.contains n then ({ s with irq.held := s.irq.held.erase n }).deliverIf n
  else if was then s
  else s.deliverIf n

/-- The EVENT item that the channel from an island delivers next (R15, R32): its oldest. -/
def State.nextEvent (s : State) (isl : Nat) : Option EventItem := s.irq.events.find? (fun e => srcIsl e.src = isl)

/-- EVENT_LATCH (R15, R32, R433): the EVENT item of a source is latched once its island's channel delivers it. -/
def execEventLatch (src : Byte) (s : State) : Host.Outcome State Fault Refusal :=
  match s.nextEvent (srcIsl src.toNat) with
  | none => .next s
  | some e =>
    if s.runs .IRQ && e.src = src.toNat then
      .next (({ s with irq.events := s.irq.events.erase e }).latch src.toNat)
    else .next s

/-- SRC_EN_WRITE: the host writes EN of a source (R434, R437). -/
def execSrcEnWrite (src : Byte) (en : Bool) (s : State) : Host.Outcome State Fault Refusal :=
  if src.toNat < 192 then .next (s.hostOp .IRQ (fun s => s.srcCtl src.toNat false none (some en))) else .next s

/-- PEND_CLEAR: 1 is written to PEND of a source (R433), by the host or by the firmware of a core (R436); in headless mode there
is no host. -/
def execPendClear (c : PendClear) (s : State) : Host.Outcome State Fault Refusal :=
  if 192 ≤ c.src.toNat then .next s
  else if c.fw || s.headless then .next (if s.up && !s.halted && s.runs .IRQ then s.coreClear c.src.toNat else s)
  else .next (s.hostOp .IRQ (fun s => s.srcCtl c.src.toNat true none none))

/-- TGT_WRITE: the host writes TGT of a source (R441). -/
def execTgtWrite (src : Byte) (tgt : BitVec 5) (s : State) : Host.Outcome State Fault Refusal :=
  if src.toNat < 192 then .next (s.hostOp .IRQ (fun s => s.srcCtl src.toNat false (some tgt.toNat) none)) else .next s

/-- REPLAY: the host writes 1 (R442). -/
def execReplay (s : State) : Host.Outcome State Fault Refusal := .next (s.hostOp .IRQ State.deliverAll)

/-- The effect of a value written to SWI (R442): an edge for each software source that it names. -/
def State.swi (s : State) (v : Nat) : State :=
  (List.range 8).foldl (fun (s : State) b => if v.testBit b then s.event (24 + b) else s) s

/-- SWI: the host writes it (R442). -/
def execSwi (bits : Byte) (s : State) : Host.Outcome State Fault Refusal :=
  .next (s.hostOp .IRQ (fun s => s.swi bits.toNat))

end Sys2Proof.Machine
end

