-- ==== Sys2Proof/Machine/FrontEnd.lean ====
section
/-!
DEFINITION. The commands of the front-end groups: calibration, bursts, GRANT, mismatch and tuner searches (R90 to R117).
An event whose condition does not hold leaves the state as it is (log entry 6).
-/

namespace Sys2Proof.Machine

/-! ### Calibration (R91 to R93) -/

/-- Make a calibration pending, or forced at once (R92): one that is pending keeps its count; one that is forced stays
so. A disabled group is never used (R89). -/
def State.reqCal (s : State) (g : Grp) (force : Bool) : State :=
  if s.usable g then
    match (s.fe g).cal with
    | none => s.setFe g { s.fe g with cal := some { since := s.sys.uptime, forced := force } }
    | some c => s.setFe g { s.fe g with cal := some { c with forced := c.forced || force } }
  else s

/-- The effect of a value written to CAL_CMD (R92, R119): 0b11 clamps to 0b10. -/
def State.calCmd (s : State) (g : Grp) (v : Nat) : State :=
  match v with
  | 0 => s
  | 1 => s.reqCal g false
  | _ => s.reqCal g true

/-- CAL_CMD_GAP: the host writes 0b01 to CAL_CMD (R92). -/
def execCalCmdGap (g : Grp) (s : State) : Host.Outcome State Fault Refusal :=
  .next (s.hostOp g.isl (fun s => s.calCmd g 1))

/-- CAL_CMD_NOW: the host writes 0b10 to CAL_CMD (R92). -/
def execCalCmdNow (g : Grp) (s : State) : Host.Outcome State Fault Refusal :=
  .next (s.hostOp g.isl (fun s => s.calCmd g 2))

/-- GRP_TEMP_UPDATE (R91, R119): a move of 10 °C or more from CAL_TEMP makes a calibration pending while the synthesiser
is CALIBRATING, SETTLING or LOCKED. -/
def execGrpTempUpdate (g : Grp) (t : Byte) (s : State) : Host.Outcome State Fault Refusal :=
  if s.runs g.isl then
    let s := s.wr (Reg.FE_GRP_TEMP g) t.toNat
    let d := t.toInt - s.rdS (Reg.FE_CAL_TEMP g)
    let st := s.rd (Reg.FE_SYN_STATE g)
    .next (if 10 ≤ d.natAbs && 1 ≤ st && st ≤ 3 then s.reqCal g false else s)
  else .next s

/-- CAL_FORCE_TIMEOUT (R92): the 200 ms mark of a pending calibration. -/
def execCalForceTimeout (g : Grp) (s : State) : Host.Outcome State Fault Refusal :=
  match (s.fe g).cal with
  | some c =>
    if c.forced then .next s
    else .next ((s.setFe g { s.fe g with cal := some { c with forced := true } }).ev (Reg.FE_GRP_EVT g) 1
      (32 + 8 * g.code))
  | none => .next s

/-- The start of a calibration (R93). -/
def State.startCal (s : State) (g : Grp) : State :=
  let s := s.wr (Reg.FE_SYN_STATE g) 1
  let s := s.abortGrp g (Reg.FE_CAL_RXLOSS g)
  let s := (s.wr (Reg.FE_CAL_TEMP g) (s.rd (Reg.FE_GRP_TEMP g))).bump (Reg.FE_CAL_COUNT g)
  s.setFe g { s.fe g with cal := none, calAt := s.sys.uptime, gap := (s.fe g).gap && (s.fe g).tune.isSome }

/-- CALIBRATION_START (R92, R93): forced, or in a gap that has begun; never during a burst. -/
def execCalibrationStart (g : Grp) (s : State) : Host.Outcome State Fault Refusal :=
  match (s.fe g).cal with
  | some c =>
    if (s.fe g).burst.isNone && (c.forced || (s.fe g).gap) then .next (s.startCal g) else .next s
  | none => .next s

/-- CAL_SETTLING (R93): C + 400 µs. -/
def execCalSettling (g : Grp) (s : State) : Host.Outcome State Fault Refusal :=
  if s.runs g.isl && s.rd (Reg.FE_SYN_STATE g) = 1 then .next (s.wr (Reg.FE_SYN_STATE g) 2) else .next s

/-- IQCAL is written anew at a calibration: vendor data, each byte a free value (R119, log entry 1). -/
def State.writeIqcal (s : State) (g : Grp) (n : Nat) : State :=
  match n with
  | 0 => s
  | n + 1 => ((s.writeIqcal g n).wrI (Reg.FE_IQCAL g) n ((s.writeIqcal g n).freeVal 8)).tick

/-- SYNTH_LOCK_CHECK (R93): C + 450 µs. -/
def execSynthLockCheck (g : Grp) (lock : Bool) (s : State) : Host.Outcome State Fault Refusal :=
  if s.runs g.isl && s.rd (Reg.FE_SYN_STATE g) = 2 then
    let s := s.writeIqcal g 128
    if lock then .next (s.wr (Reg.FE_SYN_STATE g) 3)
    else .next ((s.wr (Reg.FE_SYN_STATE g) 4).ev (Reg.FE_GRP_EVT g) 0 (32 + 8 * g.code))
  else .next s

/-- LOSS_OF_LOCK (R95). -/
def execLossOfLock (g : Grp) (s : State) : Host.Outcome State Fault Refusal :=
  if s.runs g.isl && s.rd (Reg.FE_SYN_STATE g) = 3 then
    let s := (s.wr (Reg.FE_SYN_STATE g) 4).ev (Reg.FE_GRP_EVT g) 0 (32 + 8 * g.code)
    let s := s.cutBurst g (Reg.FE_SYNTH_MISS_CNT g) true
    .next (s.abortGrp g (Reg.FE_CAL_RXLOSS g))
  else .next s

/-! ### Bursts (R94, R96 to R101) -/

/-- The tests of a frame's due instant (R93, R94, R295): the synthesiser is LOCKED and no forced calibration is due; the
egress test of a secured item. A frame that passes is marked. -/
def State.dueTest (s : State) (g : Grp) (f : TxItem) : State :=
  if !s.locked g || s.calForced g then s.lose g f (some (Reg.FE_SYNTH_MISS_CNT g)) true
  else if f.secured && f.epoch ≠ s.key.egress then
    let s := s.updBurst g (fun b => b.setFrames (b.frames.erase f))
    (s.setFe g { s.fe g with wait := (s.fe g).wait.erase f }).epochDrop f
  else
    let f' := { f with phase := Phase.due }
    let s := s.updBurst g (fun b => b.setFrames (b.frames.map (fun x => if x = f then f' else x)))
    s.setFe g { s.fe g with wait := (s.fe g).wait.map (fun x => if x = f then f' else x) }

/-- BURST_BEGIN (R96, R99, R100, R111): for the waiting frame that has passed the tests of its due instant. Without a
usable port each frame of the burst counts in TX_NOPORT, and the burst ends under R101. No burst begins once a forced
calibration is due or lock is lost (R93, R94). -/
def execBurstBegin (g : Grp) (s : State) : Host.Outcome State Fault Refusal :=
  match (s.fe g).burst, earliest (s.fe g).wait (fun f => f.phase = .due) with
  | none, some f =>
    let n := (s.fe g).wait.length
    if !s.locked g || s.calForced g then .next (s.lose g f (some (Reg.FE_SYNTH_MISS_CNT g)) true)
    else
      match s.choosePort g with
      | some p => .next ((s.beginBurst g f.first (some p) none f.first [f]).joinWaiting g n)
      | none =>
        let s := s.beginBurst g f.first none none f.first []
        .next ((s.lose g f (some (Reg.FE_TX_NOPORT g)) false).joinWaiting g n)
  | _, _ => .next s

/-- FRAME_DUE (R94): the frame that falls due next, a frame of the burst at its GRANT check instant, or a waiting frame
at the start of the burst that would carry it. A waiting frame that meets R99 by now joins instead, unless a forced
calibration is due (R93). During a search
burst a frame that falls due is displaced (R114). -/
def execFrameDue (g : Grp) (s : State) : Host.Outcome State Fault Refusal :=
  match (s.fe g).burst with
  | some b =>
    match earliest b.frames (fun f => f.phase = .joined) with
    | some f =>
      if b.search.isSome then .next (s.lose g f (some (Reg.FE_TX_DISPLACED g)) false) else .next (s.dueTest g f)
    | none =>
      match earliest (s.fe g).wait (fun f => b.joins f) with
      | some f => .next (if s.calForced g then s.lose g f (some (Reg.FE_SYNTH_MISS_CNT g)) true else s.joinBurst g f)
      | none => .next s
  | none =>
    match earliest (s.fe g).wait (fun f => f.phase = .waiting) with
    | some f => .next (s.dueTest g f)
    | none => .next s

/-- FRAME_JOIN (R99, R100, R213): the item that has arrived at the group. An acknowledgement takes the place of the one
declared; a frame that comes after the instant it would fall due is late; one that meets R99 joins the burst; any
other waits for a burst of its own. -/
def execFrameJoin (g : Grp) (s : State) : Host.Outcome State Fault Refusal :=
  match (s.fe g).arrive with
  | [] => .next s
  | f :: rest =>
    let s := s.setFe g { s.fe g with arrive := rest }
    if f.fence then .next s
    else if f.kind = .ack then
      .next (s.updBurst g (fun b => b.setFrames (b.frames.map (fun x =>
        if x.kind = .ack && x.idx = f.idx then { f with phase := x.phase, first := x.first, ready := true } else x))))
    else
      let joins := match (s.fe g).burst with
        | some b => b.joins f
        | none => false
      let ramp := match (s.fe g).burst with
        | some b => b.ramp
        | none => 0
      let due := if joins then f.first - ramp - 10000 else f.first - turnNs
      if due < s.sys.timeNs then
        .next ((if f.kind = .dl then s.bump Reg.SCH_LATE_TX else s).notSent f false)
      else if joins && !s.calForced g then .next (s.joinBurst g f)
      else .next (s.setFe g { s.fe g with wait := (s.fe g).wait ++ [{ f with phase := .waiting }] })

/-- The earliest first symbol of a frame that follows an acknowledgement (R247). -/
def State.oppAt (s : State) (f : TxItem) : Nat := max (f.first + f.dur + 240000) (s.sys.timeNs + 2000000)

/-- Δ of a node at a mesh instant that is no wake of its schedule (R238, R247; log entry 92). -/
def State.deltaAt (s : State) (h : BitVec 18) (first : Nat) : Nat :=
  match s.entry h with
  | some e => wakeDelta e (first / 1000000 : Nat)
  | none => 0

/-- The dispatch that follows an acknowledgement with PEND = 1 once its GRANT check has passed (R247). A stopped SCH
dispatches nothing (R252), nor does an active unit in the last steps of a swap (R409), and a stopped NTB answers no read. -/
def State.oppDispatch (s : State) (f : TxItem) : State :=
  if !s.runs .SCH || !s.runs .NTB || s.quiet then s
  else
  match s.sch.acks.find? (fun a => a.id = f.idx) with
  | some a =>
    match a.opp with
    | some h =>
      let n := s.sch.tries.length
      let s := s.updEntry h (fun e => { e with wheeled := false })
      let s := s.offerHead h (s.oppAt f) (s.deltaAt h (s.oppAt f)) true
      if n < s.sch.tries.length then s.bump Reg.SCH_OPP_SENT else s
    | none => s
  | none => s

/-- The GRANT check of a frame (R103, R106, R110, R117, R237, R295). -/
def State.grantCheck (s : State) (g : Grp) (b : Burst) (f : TxItem) : State :=
  let late := f.kind = .ack && s.sch.acks.any (fun a => a.id = f.idx && !a.classified)
  if late then ((s.lose g f none false).bump Reg.SCH_ACK_WD).bump Reg.SCH_ACK_LATE
  else if f.kind = .ack && f.secured && f.epoch ≠ s.key.egress then
    (s.updBurst g (fun b => b.setFrames (b.frames.erase f))).epochDrop f
  else if !(s.grantHigh g && s.holds && b.allow) then s.lose g f (some (Reg.FE_TX_ABANDON g)) false
  else
    let pr := s.takeSlot g b f
    if pr.1 then
      let s := (pr.2.updBurst g (fun b => { b with paOn := some (b.paOn.getD (f.first - b.ramp - b.lead)) })).setPhase g f .checked
      if f.kind = .ack then s.oppDispatch f else s
    else pr.2

/-- GRANT_CHECK (R117): S − 10 µs of the earliest frame of the burst not yet checked; the same check meets the tone of a
tuner search in TUNE_SEARCH_END. -/
def execGrantCheck (g : Grp) (grant : Bool) (s : State) : Host.Outcome State Fault Refusal :=
  let s := s.setFe g { s.fe g with grant := grant }
  match (s.fe g).burst with
  | none => .next s
  | some b =>
    match earliest b.frames (fun f => f.phase = .due) with
    | some f => .next (s.grantCheck g b f)
    | none => .next s

/-- GRANT_LOW (R117): GRANT falls; with COEX_EN = 0 it is treated as high (R116). -/
def execGrantLow (g : Grp) (s : State) : Host.Outcome State Fault Refusal :=
  let s := s.setFe g { s.fe g with grant := false }
  .next (if s.on (Reg.FE_COEX_EN g) then s.grantFell g else s)

/-- FIRST_SYMBOL (R100): the earliest checked frame. -/
def execFirstSymbol (g : Grp) (s : State) : Host.Outcome State Fault Refusal :=
  match (s.fe g).burst with
  | none => .next s
  | some b =>
    match earliest b.frames (fun f => f.phase = .checked) with
    | some f => .next ((s.setPhase g f .onAir).commitFrame f)
    | none => .next s

/-- LAST_SYMBOL_END (R100, R112): the frame on the air that ends first; with the burst's last frame, RL_MEAS of the port
holds the lowest window. -/
def execLastSymbolEnd (g : Grp) (s : State) : Host.Outcome State Fault Refusal :=
  match (s.fe g).burst with
  | none => .next s
  | some b =>
    let ends := b.frames.foldl (fun (r : Option TxItem) f =>
      if f.phase ≠ .onAir then r
      else match r with
        | some x => if f.first + f.dur < x.first + x.dur then some f else r
        | none => some f) none
    match ends with
    | none => .next s
    | some f => .next (((s.setPhase g f .ended).offAir f).noteRl g)

/-- BURST_END (R100, R101, R93): E + 120 µs; the receivers come live unless a forced calibration is due. -/
def execBurstEnd (g : Grp) (s : State) : Host.Outcome State Fault Refusal :=
  match (s.fe g).burst with
  | none => .next s
  | some b =>
    if b.frames.all (fun f => f.phase = .ended) then .next (s.setFe g { s.fe g with burst := none })
    else .next s

/-- REQ_RISE (R116): at the later of S − REQ_LEAD of the burst's first frame and the instant the burst is decided: for the burst
under way while REQ has not risen for it, else for the one that is to come. -/
def execReqRise (g : Grp) (s : State) : Host.Outcome State Fault Refusal :=
  if !s.on (Reg.FE_COEX_EN g) then .next s
  else if (match (s.fe g).burst with
      | some b => !b.req
      | none => false) then .next (s.updBurst g (fun b => { b with req := true }))
  else
    match earliest (s.fe g).wait (fun _ => true) with
    | some f => .next (s.setFe g { s.fe g with req := some f.first })
    | none => .next s

/-! ### Mismatch and tuner searches (R112 to R114) -/

/-- A frame whose S has come when a mismatch is found is ramped down and truncated: it counts as past its commit point
(R113; log entry 22). -/
def State.rampDown (s : State) (g : Grp) : State :=
  match (s.fe g).burst with
  | none => s
  | some b =>
    (b.frames.filter (fun f => f.phase = .checked && f.first - b.ramp ≤ s.sys.timeNs)).foldl
      (fun s f => (s.setPhase g f .onAir).commitFrame f) s

/-- RL_MISMATCH (R112, R113): a return-loss window, 0.25 dB units, below RL_THR. -/
def execRlMismatch (g : Grp) (rl : Nat) (s : State) : Host.Outcome State Fault Refusal :=
  match (s.fe g).burst with
  | none => .next s
  | some b =>
    match b.port with
    | none => .next s
    | some p =>
      if b.search.isNone && b.frames.any (fun f => f.phase = .onAir) && rl < 4 * s.rd (Reg.FE_RL_THR g) then
        let mm := s.rd (Reg.FE_PORT_MM g)
        let s := (s.wr (Reg.FE_PORT_MM g) (mm ||| 2 ^ p)).ev (Reg.FE_GRP_EVT g) 2 (32 + 8 * g.code)
        let s := (s.rampDown g).cutBurst g (Reg.FE_TX_NOPORT g) false
        .next (s.wrI (Reg.FE_RL_MEAS g) p (min 255 rl))
      else .next s

/-- The effect of a write of TUNE_CMD with GO = 1 (R114). -/
def State.tuneGo (s : State) (g : Grp) (p : Nat) : State :=
  if !s.holds || !s.locked g || (s.fe g).tune.isSome || (s.rd (Reg.FE_PORT_FAULT g)).testBit p ||
      !(s.fe g).txEn.getLsbD p then s.wr (Reg.FE_TUNE_STAT g) 4
  else
    (s.setFe g { s.fe g with tune := some { port := p, since := s.sys.uptime } }).wr
      (Reg.FE_TUNE_STAT g) 1

/-- TUNE_GO: the host writes GO = 1 with a port (R114). -/
def execTuneGo (g : Grp) (port : BitVec 2) (s : State) : Host.Outcome State Fault Refusal :=
  .next (s.hostOp g.isl (fun s => s.tuneGo g port.toNat))

/-- TUNE_SEARCH_START (R114): a pending search starts in a gap, or forced after 200 ms, once no calibration is pending;
its tone lasts 712 µs. A search that is forced keeps no frame off the air: R93 says that of a calibration alone, and the search starts
once no burst is under way (log entry 100, DESIGN CHOICE). -/
def execTuneSearchStart (g : Grp) (s : State) : Host.Outcome State Fault Refusal :=
  match (s.fe g).tune with
  | some q =>
    if (s.fe g).burst.isNone && (s.fe g).cal.isNone && s.locked g && ((s.fe g).gap || 200 ≤ s.msSince q.since) then
      let t := s.sys.timeNs + turnNs
      let s := s.beginBurst g t (some q.port) (some q.port) (t + 712000) []
      let s := s.setFe g { s.fe g with gap := false }
      .next (s.wr (Reg.FE_TUNE_LAST g) q.port)
    else .next s
  | none => .next s

/-- Point `i` of the coarse grid: series and shunt codes at 0, 4 to 28 (R114). -/
def coarsePoint (i : Nat) : Nat × Nat := (i / 8 * 4, i % 8 * 4)

/-- Point `i` of the fine grid around a point, its codes clamped to 0 to 31 (R114). -/
def finePoint (c : Nat × Nat) (i : Nat) : Nat × Nat := (min 31 (c.1 + i / 5 - 2), min 31 (c.2 + i % 5 - 2))

/-- The best of some points with the return loss measured there: the greatest, the first of those measured where several are
equal (log entry 100). -/
def bestPoint (l : List ((Nat × Nat) × Nat)) : (Nat × Nat) × Nat :=
  l.foldl (fun (m : (Nat × Nat) × Nat) x => if m.2 < x.2 then x else m) (l.headD ((0, 0), 0))

/-- The best point of a search from what it measured at the 64 points of the coarse grid and at the 25 of the fine grid around the
best of them (R114). -/
def searchBest (coarse fine : List Nat) : (Nat × Nat) × Nat :=
  let l := (List.range 64).map (fun i => (coarsePoint i, coarse.getD i 0))
  bestPoint (l ++ (List.range 25).map (fun i => (finePoint (bestPoint l).1 i, fine.getD i 0)))

/-- TUNE_SEARCH_END (R114): COMPLETED, NOT_MET, or NO_GRANT. With TX_ALLOW = 0, which R119 calls no transmission and R114 does not
speak of, the tone is handled as one that found GRANT low (log entry 100, DESIGN CHOICE). -/
def execTuneSearchEnd (g : Grp) (grant : Bool) (coarse fine : List Nat) (low : Nat) (s : State) :
    Host.Outcome State Fault Refusal :=
  match (s.fe g).burst with
  | none => .next s
  | some b =>
    match b.search with
    | none => .next s
    | some p =>
      let s := s.setFe g { s.fe g with grant := grant, tune := none }
      let s := s.ev (Reg.FE_GRP_EVT g) 3 (32 + 8 * g.code)
      if !(s.grantHigh g && s.holds && b.allow) then
        .next ((s.updBurst g (fun b => { b with e := b.first, paOn := none })).wr (Reg.FE_TUNE_STAT g) 5)
      else
        let s := s.wrI (Reg.FE_RL_MEAS g) p (min 255 low)
        let m := searchBest coarse fine
        if 4 * s.rd (Reg.FE_RL_THR g) ≤ m.2 then
          let s := (s.wrI (Reg.FE_TUNE_SER g) p m.1.1).wrI (Reg.FE_TUNE_SHT g) p m.1.2
          let s := s.setFe g { s.fe g with tuner := s.tunerCodes g }
          let s := s.wr (Reg.FE_PORT_MM g) (clearBits (s.rd (Reg.FE_PORT_MM g)) (2 ^ p))
          .next (s.wr (Reg.FE_TUNE_STAT g) 2)
        else .next (s.wr (Reg.FE_TUNE_STAT g) 3)

end Sys2Proof.Machine
end

