-- ==== Sys2Proof/Machine/Tags.lean ====
section
/-!
DEFINITION. The tags of fabric items (R17 to R24): the 64-bit layout, STREAM_ID, the tag of every item that waits at an
island, and the entry copy as it stands at the start of a payload.
-/

namespace Sys2Proof.Machine

/-! ### The tag (R17, R20, R22) -/

/-- A tag, field by field (R17). STREAM_ID is `cls` and `idx` (R20); TPAR follows from the rest. -/
structure Tag where
  cls : Nat
  idx : Nat
  seq : BitVec 16
  epoch : Byte
  kind : Nat
  prio : Nat
  dest : Isl
  sof : Bool
  eof : Bool
  fence : Bool
  host : Bool
  dup : Bool
  mcast : Bool
deriving DecidableEq, Repr

/-- A tag of an item of one flit, with no flag set. -/
def Tag.plain (cls idx : Nat) (seq : BitVec 16) (kind prio : Nat) (dest : Isl) : Tag :=
  { cls := cls, idx := idx, seq := seq, epoch := 0, kind := kind, prio := prio, dest := dest, sof := true, eof := true,
    fence := false, host := false, dup := false, mcast := false }

/-- The number of 1 bits among the lowest 64. -/
def ones (x : Nat) : Nat := ((List.range 64).filter (fun i => x.testBit i)).length

/-- Bits 62 to 0 of a tag (R17). -/
def Tag.low (t : Tag) : Nat :=
  t.idx % 4096 + t.cls % 16 * 2 ^ 12 + t.seq.toNat * 2 ^ 16 + t.epoch.toNat * 2 ^ 32 + t.kind % 256 * 2 ^ 40 +
    t.prio % 16 * 2 ^ 48 + t.dest.num * 2 ^ 52 + b2n t.sof * 2 ^ 56 + b2n t.eof * 2 ^ 57 + b2n t.fence * 2 ^ 58 +
    b2n t.host * 2 ^ 59 + b2n t.dup * 2 ^ 60 + b2n t.mcast * 2 ^ 61

/-- The 64 bits of a tag: TPAR makes the number of 1 bits even (R17). -/
def Tag.word (t : Tag) : Word64 := BitVec.ofNat 64 (t.low + ones t.low % 2 * 2 ^ 63)

/-- STREAM_ID of a word: class and index (R20). -/
def streamOf (t : Word64) : Nat × Nat := (bits t.toNat 12 4, bits t.toNat 0 12)

/-! ### The entry copy in a payload (R24) -/

/-- The 12 bytes of an entry copy, little-endian; bit 55 is reserved (R24). -/
def copyBytes (c : EntryCopy) : List Byte :=
  leBytes 12 (c.handle.toNat + c.chan.toNat * 2 ^ 18 + c.opt.toNat * 2 ^ 26 + c.mcs.toNat * 2 ^ 28 + b2n c.tl * 2 ^ 31 +
    c.tmap.toNat * 2 ^ 32 + c.dsn.toNat * 2 ^ 44 + c.nlp.toNat * 2 ^ 52 + c.gen.toNat * 2 ^ 56 + c.fcnt.toNat * 2 ^ 64)

/-- The payload of an item on its way to the air (R24): a node frame and an acknowledgement begin with their entry copy. -/
def TxItem.payload (f : TxItem) : List Byte :=
  (if f.kind = .dl || f.kind = .ack then copyBytes f.copy else []) ++
    (if f.secured then f.body else insertIes f.body f.ies)

/-- The payload of an uplink (R24): once its lookup has hit it begins with the entry copy. -/
def ulPayload (u : UlItem) : List Byte :=
  (match u.copy with
    | some c => copyBytes c
    | none => []) ++ u.psdu.body

/-! ### The items that wait at an island -/

/-- KIND of an item on its way to the air (R19). -/
def TxKind.code : TxKind → Nat
  | .dl => 0x02
  | .ack => 0x03
  | .beacon => 0x04
  | .mc => 0x05

/-- The tag of an item on its way to the air: a node frame on its node's stream, a block on its queue's, acknowledgements and
beacons as internal work of SCH (R20, R22). -/
def TxItem.tag (f : TxItem) (dest : Isl) : Tag :=
  let s : Nat × Nat := match f.kind with
    | .dl => (0, 0)
    | .mc => (7, 0x18 + f.idx)
    | _ => (8, 8)
  { Tag.plain s.1 s.2 f.seq f.kind.code f.prio dest with
    epoch := f.epoch, fence := f.fence, host := f.host, mcast := f.kind = .mc || f.kind = .beacon }

/-- The tag of an uplink: its node's stream (R20); PRIO 0, which R22 leaves open (log entry 72). -/
def ulTag (u : UlItem) (dest : Isl) : Tag := { Tag.plain 1 0 u.ulSeq 0x01 0 dest with epoch := u.epoch, dup := u.dup }

/-- The tag of a table command (R19, R20). READ and LOOKUP go as TBL_READ. -/
def TblCmd.tag (c : TblCmd) : Tag :=
  let op := leAt c.bytes 0 1
  { Tag.plain 5 0 c.seq (if op = 3 || op = 6 then 0x11 else 0x10) 0 .NTB with host := true }

/-- The tag of a host or tunnel frame on its way to CAR (R17, R20, R22). -/
def State.waitTag (s : State) (w : WaitItem) : Tag :=
  match w.tgt with
  | .node _ => { Tag.plain 0 0 w.hdr.seq 0x02 w.hdr.prio .CAR with host := true }
  | .sys q => { Tag.plain 7 q (s.sysQ q).enqs (if q = 0x14 then 0x04 else 0x05) w.hdr.prio .CAR with host := true, mcast := true }

/-- The tag of a session record (R20, class 0x6): OP 2 carries a block. -/
def State.sessTag (s : State) (r : SessRec) : Tag :=
  { Tag.plain 6 (s.sys.sessNo % 4096) (BitVec.ofNat 16 r.block) (if r.op = 2 then 0x60 else 0x61) 0 .SYS with host := true }

/-- Tags of the control items that go ahead of data (R22): EPOCH_SET and CAP_CHANGE at PRIO 13, ABORT at 14, FENCE_MARK and
STATUS of recovery at 15. Here the step that sends one delivers it to every island that runs (log entry 63). -/
def epochTag (dest : Isl) (epoch : Byte) : Tag := { Tag.plain 8 0xA 0 0x40 13 dest with epoch := epoch }

/-- CAP_CHANGE (R22, R223). -/
def capTag (dest : Isl) : Tag := Tag.plain 8 8 0 0x80 13 dest

/-- ABORT (R22, R427). -/
def abortTag (dest : Isl) : Tag := { Tag.plain 8 0 0 0x30 14 dest with host := true }

/-- FENCE_MARK of a stream at L (R22, R420). -/
def fenceTag (dest : Isl) (f : Fence) : Tag := Tag.plain f.cls f.idx f.l 0x32 15 dest

/-- The tag of a mirror record (R19, R20): class 0x9, the cycle as its sequence. -/
def mirTag (n : BitVec 16) (dest : Isl) : Tag := Tag.plain 9 0 n 0x50 0 dest

/-- An item that waits at an island. -/
inductive Flying where
  | tx (f : TxItem)
  | ul (u : UlItem)
  | tbl (c : TblCmd)
  | prop (w : PropWrite)
  | join (u : UlItem)
  | wait (w : WaitItem)
  | sess (x : ReplyTo × SessRec)
  | msg (x : ReplyTo × KuMsg)
  | event (e : EventItem)
  | mir (r : BitVec 16 × List Byte)
deriving DecidableEq, Repr

/-- Everything that waits at an island, with its tag, channel by channel in the order it came (R15). -/
def State.itemsAt (s : State) (rcv : Isl) : List (Tag × Flying) :=
  let txs := fun (l : List TxItem) => l.map (fun f => (f.tag rcv, Flying.tx f))
  let uls := fun (l : List UlItem) => l.map (fun u => (ulTag u rcv, Flying.ul u))
  match rcv with
  | .KEY => txs s.key.tx ++ uls s.key.ul ++
      s.key.msgQ.map (fun x => ({ Tag.plain 8 0 0 0x41 0 rcv with host := true }, .msg x))
  | .PHY => txs s.phy.tx
  | .FEL => txs s.feL.arrive
  | .FEH => txs s.feH.arrive
  | .FEI => txs s.feI.arrive
  | .NTB => uls s.ntb.ul ++ s.ntb.cmdQ.map (fun c => (TblCmd.tag c, .tbl c)) ++
      s.phy.propWrites.map (fun w => (Tag.plain 8 6 0 0x10 0 rcv, .prop w)) ++
      s.sch.joinQ.map (fun u => (Tag.plain 8 8 0 0x10 0 rcv, .join u))
  | .SCH => uls s.sch.ul
  | .CAR => s.car.admitQ.map (fun w => (s.waitTag w, .wait w)) ++ s.twn.toLink.map (fun r => (mirTag r.1 rcv, .mir r))
  | .SYS => s.sys.sessQ.map (fun x => (s.sessTag x.2, .sess x))
  | .IRQ => s.irq.events.map (fun e => (Tag.plain 8 (srcIsl e.src) e.seq 0x70 0 rcv, .event e))
  | _ => []

/-- The bits of a tag that name the item and are no cause of R18: all but the stream class, KIND, DEST, SOF, EOF and TPAR. -/
def tagMask : Nat := 2 ^ 64 - 1 - 0xF * 2 ^ 12 - 0xFF * 2 ^ 40 - 0xF * 2 ^ 52 - 3 * 2 ^ 56 - 2 ^ 63

/-- A tag as received is that of an item: equal but for what R18 tests; one whose parity fails may have any one bit wrong
(log entry 72). -/
def tagNear (t w : Word64) (bad : Bool) : Bool := ones ((t ^^^ w).toNat &&& tagMask) ≤ if bad then 1 else 0

/-- The item that a receiving island discards with a failed tag: the oldest that the tag names. -/
def State.tagged (s : State) (rcv : Isl) (t : Word64) (bad : Bool) : Option Flying :=
  ((s.itemsAt rcv).find? (fun p => tagNear p.1.word t bad)).map (fun p => p.2)

end Sys2Proof.Machine
end

