-- ==== Sys2Proof/Machine/Tst.lean ====
section
/-!
DEFINITION. Self-test and repair: spares, the fault and repair log, start-up and demand BIST, the Percolator, fuse
repair (R445 to R460). What an algorithm finds is the command's operand.
-/

namespace Sys2Proof.Machine

/-! ### The fault and repair log (R67, R451) -/

/-- Records that the repair part of the log holds. -/
def repairRoom : Nat := 4096

/-- Records that the fault part holds: 0x133_0000 to 0x171_FFFF, 16 bytes each. -/
def faultRoom : Nat := 0x3F000

/-- The log is full (R451). -/
def State.logFull (s : State) : State := s.ev Reg.TST_TST_EVT 6 184

/-- Append a repair record unless the log holds one of the same macro, kind and index (R451). -/
def State.logRepair (s : State) (kind src mac index : Nat) : State :=
  if s.nvm.repLog.any (fun r => r.mac = mac && r.kind = kind && r.index = index) then s
  else if repairRoom ≤ s.nvm.repLog.length then s.logFull
  else
    let r : LogRec := { seq := s.nvm.logSeq, mac := mac, kind := kind, src := src, index := index }
    { s with nvm.repLog := s.nvm.repLog ++ [r], nvm.logSeq := s.nvm.logSeq + 1 }

/-- The 16 bytes of a log record (R451); its CRC covers the first twelve. -/
def LogRec.bytes (r : LogRec) : List Byte :=
  let b := leBytes 4 r.seq ++ leBytes 2 r.mac ++ [BitVec.ofNat 8 r.kind, BitVec.ofNat 8 r.src] ++ leBytes 2 r.index ++ [0, 0]
  b ++ leBytes 4 (crc32 b).toNat

/-- The log as it stands in the NVM (R67, R451): repair records from 0x132_0000, fault records from 0x133_0000. -/
def State.logImage (s : State) : List Host.Cell :=
  let put := fun (m : List Host.Cell) (a : Nat) (l : List LogRec) => nvmProgs m a (l.flatMap LogRec.bytes)
  put (put [] 0x1320000 s.nvm.repLog) 0x1330000 s.nvm.faultLog

/-- Append a fault record of an island fault (R451): from stage 4 on, since before it the NVM pins are high-Z (R88). SRC and INDEX
have no meaning for KIND 0x10 and read 0 (log entry 107). -/
def State.logFault (s : State) (isl cause : Nat) : State :=
  if s.rd Reg.SYS_BOOT_STAGE < 4 then s
  else if faultRoom ≤ s.nvm.faultLog.length then s.logFull
  else
    let r : LogRec := { seq := s.nvm.logSeq, mac := isl + 16 * cause, kind := 0x10, src := 0, index := 0 }
    { s with nvm.faultLog := s.nvm.faultLog ++ [r], nvm.logSeq := s.nvm.logSeq + 1 }

/-! ### Spares (R445, R448, R457) -/

/-- Spares of a kind in a macro: 4 rows, 2 columns. -/
def sparesOf (col : Bool) : Nat := if col then 2 else 4

/-- Spares of a kind in use in a macro. -/
def usedSpares (l : List Repair) (mac : Nat) (col : Bool) : Nat :=
  (l.filter (fun r => r.mac = mac && r.col = col)).length

/-- A row or column is covered by a repair in effect. -/
def covered (l : List Repair) (mac : Nat) (col : Bool) (index : Nat) : Bool :=
  l.any (fun r => r.mac = mac && r.col = col && r.index = index)

/-- The repairs that a faulty macro needs, beyond those in effect. -/
def State.needs (s : State) (f : MacroFault) (src : Nat) : List Repair :=
  let rows := f.rows.dedup.filter (fun i => !covered s.tst.repairs f.mac false i)
  let cols := f.cols.dedup.filter (fun i => !covered s.tst.repairs f.mac true i)
  rows.map (fun i => { mac := f.mac, col := false, index := i, src := src }) ++
    cols.map (fun i => { mac := f.mac, col := true, index := i, src := src })

/-- Spares cover a faulty macro, and the retest passes (R448). -/
def State.mends (s : State) (f : MacroFault) : Bool :=
  let n := s.needs f 0
  usedSpares (s.tst.repairs ++ n) f.mac false ≤ sparesOf false && usedSpares (s.tst.repairs ++ n) f.mac true ≤ sparesOf true &&
    f.retestOk

/-- Map repairs onto spares; the last spare of a kind in a macro sets SPARE_LOW (R457). -/
def State.mapRepairs (s : State) (l : List Repair) : State :=
  let s := { s with tst.repairs := s.tst.repairs ++ l }
  if l.any (fun r => usedSpares s.tst.repairs r.mac r.col = sparesOf r.col) then s.ev Reg.TST_TST_EVT 3 184 else s

/-- The KIND of a repair's record. -/
def repairKind (r : Repair) : Nat := if r.col then 2 else 1

/-- Log repairs (R451). -/
def State.logRepairs (s : State) (l : List Repair) : State :=
  l.foldl (fun s r => s.logRepair (repairKind r) r.src r.mac r.index) s

/-- Log an unrepairable fault once per row or column (R451, R457). -/
def State.logUnrep (s : State) (f : MacroFault) (src : Nat) : State :=
  (f.rows ++ f.cols).foldl (fun s i => s.logRepair 3 src f.mac i) s

/-! ### Groups (R445) -/

/-- The group of a macro. -/
def macroGroup (mac : Nat) : Nat :=
  if mac ≤ 0x1A4 then 0 else if mac ≤ 0x254 then 1 else if mac ≤ 0x26B then 2 else 3

/-- The islands that logic BIST of a group covers, as a mask. -/
def groupIslands (g : Nat) : BitVec 16 :=
  match g with
  | 0 => 0x0080
  | 1 => 0x7200
  | 2 => 0x007C
  | _ => 0x0D02

/-- Put what is found in a macro with what has been found there already. -/
def addFault (f : MacroFault) : List MacroFault → List MacroFault
  | [] => [f]
  | g :: t =>
    if g.mac = f.mac then
      { g with rows := f.rows ++ g.rows, cols := f.cols ++ g.cols, retestOk := f.retestOk && g.retestOk } :: t
    else g :: addFault f t

/-- What is found, macro by macro. -/
def byMacro (l : List MacroFault) : List MacroFault := l.foldr addFault []

/-- The faults in the macros of the groups that a mask names. -/
def faultsIn (grps : BitVec 4) (l : List MacroFault) : List MacroFault :=
  (byMacro l).filter (fun f => f.mac < 640 && grps.getLsbD (macroGroup f.mac))

/-- The faults that a slice of the Percolator finds: in the macros of the node table and the directory (R445, R453). -/
def sliceFaults (l : List MacroFault) : List MacroFault := (byMacro l).filter (fun f => f.mac < 0x1A4)

/-- The islands of the groups that a mask names whose signature differs. -/
def lbistIn (grps : BitVec 4) (x : BitVec 16) : BitVec 16 :=
  (List.range 4).foldl (fun m g => if grps.getLsbD g then m ||| (x &&& groupIslands g) else m) 0

/-! ### Demand tests (R459) -/

/-- A demand test has ended. -/
def State.bistDone (s : State) (found : Bool) : State :=
  ((s.wr Reg.TST_BIST_STAT 2).wr Reg.TST_BIST_FOUND (b2n found)).ev Reg.TST_TST_EVT 5 184

/-- 0x0 in BIST_GRP clamps to 0xF. -/
def bistGrps (g : BitVec 4) : BitVec 4 := if g = 0 then 0xF else g

/-- MEMORY (R448, R459): the faults of the groups are repaired where spares cover them, and logged. -/
def State.bistMem (s : State) (g : BitVec 4) (faults : List MacroFault) : State :=
  let l := faultsIn (bistGrps g) faults
  let s := l.foldl (fun (s : State) f =>
    if s.mends f then
      let n := s.needs f 3
      (s.mapRepairs n).logRepairs n
    else s.logUnrep f 3) s
  s.bistDone (!l.isEmpty)

/-- A test that only the test halt accepts (R449, R459): there the tester comes by JTAG; a host write elsewhere is
REFUSED. A command under way takes no other. -/
def State.bistHalt (s : State) (f : State → State) : State :=
  if s.up && s.testHalt then (if s.rd Reg.TST_BIST_STAT = 1 then s else f s)
  else s.hostOp .TST (fun s => if s.rd Reg.TST_BIST_STAT = 1 then s else s.wr Reg.TST_BIST_STAT 3)

/-- BIST_MEMORY (R459). -/
def execBistMemory (grps : BitVec 4) (faults : List MacroFault) (s : State) : Host.Outcome State Fault Refusal :=
  .next (s.bistHalt (fun s => s.bistMem grps faults))

/-- BIST_LOGIC (R459). -/
def execBistLogic (grps : BitVec 4) (lbist : BitVec 16) (s : State) : Host.Outcome State Fault Refusal :=
  .next (s.bistHalt (fun s => s.bistDone (lbistIn (bistGrps grps) lbist ≠ 0)))

/-- Stage 8 or later, and not halted. -/
def State.inService (s : State) : Bool :=
  s.up && 8 ≤ s.rd Reg.SYS_BOOT_STAGE && s.rd Reg.SYS_BOOT_STAGE ≠ 0xF

/-- TEST or RMA. -/
def State.labState (s : State) : Bool := s.rd Reg.SYS_LC_STATE = 1 || s.rd Reg.SYS_LC_STATE = 4

/-- The Percolator runs (R454). -/
def State.percRuns (s : State) : Bool :=
  s.inService && (s.rd Reg.SYS_LC_STATE = 3 || (s.labState && s.on Reg.TST_PERC_EN))

/-- Slices of a pass (R453). -/
def percSlices : Nat := 0x2001

/-- The effect of PERC_PASS written to BIST_CMD (R459). -/
def State.percPass (s : State) : State :=
  if s.rd Reg.TST_BIST_STAT = 1 then s
  else if s.labState && s.percRuns then
    { (s.wr Reg.TST_BIST_STAT 1).wr Reg.TST_BIST_FOUND 0 with tst.demand := percSlices }
  else s.wr Reg.TST_BIST_STAT 3

/-- BIST_PERC_PASS: the host writes 0b11 to BIST_CMD (R459). -/
def execBistPercPass (s : State) : Host.Outcome State Fault Refusal := .next (s.hostOp .TST State.percPass)

/-- The effect of FUSE written to REP_CMD (R452). -/
def State.fuseCmd (s : State) : State :=
  let l := s.tst.repairs.filter (fun r => !covered s.otp.repairs r.mac r.col r.index)
  if s.labState && s.otp.repairs.length + l.length ≤ 1024 then
    { s.wr Reg.TST_REP_STAT 2 with otp.repairs := s.otp.repairs ++ l }
  else s.wr Reg.TST_REP_STAT 3

/-- FUSE (R452): the host writes 1 to REP_CMD, or the tester in the test halt. -/
def execFuse (s : State) : Host.Outcome State Fault Refusal :=
  .next (if s.up && s.testHalt then s.fuseCmd else s.hostOp .TST State.fuseCmd)

/-! ### The Percolator (R453 to R457) -/

/-- The slice of a slot or stash location (R453). -/
def sliceOfLoc (loc : Nat) : Nat :=
  if 2 ^ 18 ≤ loc then 0x1000
  else
    let b := loc % 2 ^ 17 / 4
    loc / 2 ^ 17 * 0x800 + b % 16 + 16 * (b / 256)

/-- The slice of a handle's directory record (R453). -/
def sliceOfHandle (h : Nat) : Nat := 0x1001 + h % 8 + 8 * (h / 512)

/-- The next slice (R453, R459): after the last one PERC_POS returns to 0 and a pass is complete; a demand pass counts its
slices down. -/
def State.percNext (s : State) : State :=
  let p := s.rd Reg.TST_PERC_POS
  let s := if p = 0x2000 then ((s.wr Reg.TST_PERC_POS 0).wrap Reg.TST_PERC_PASSES).ev Reg.TST_TST_EVT 4 184
    else s.wr Reg.TST_PERC_POS (p + 1)
  match s.tst.demand with
  | 0 => s
  | n + 1 =>
    let s := { s with tst.demand := n }
    if n = 0 then (s.wr Reg.TST_BIST_STAT 2).ev Reg.TST_TST_EVT 5 184 else s

/-- A slice may start (R454, R455). -/
def State.sliceMay (s : State) : Bool :=
  (s.percRuns || 0 < s.tst.demand) && s.inService && s.runs .NTB && s.runs .TST && s.rd Reg.SYS_BOOT_STAGE ≠ 0xC

/-- Words of one slot, or a directory record, of the slice fail parity from now on (R457). -/
def State.hurtAt (s : State) (pos : Nat) (u : Upset) : State :=
  match u with
  | .slot loc w =>
    match mget s.ntb.slots loc with
    | some sl =>
      if sliceOfLoc loc = pos then { s with ntb.slots := mput s.ntb.slots loc { sl with perr := sl.perr ||| w } } else s
    | none => s
  | .dir h =>
    match mget s.ntb.dir h.toNat with
    | some r =>
      if sliceOfHandle h.toNat = pos then { s with ntb.dir := mput s.ntb.dir h.toNat { r with perr := true } } else s
    | none => s
  | _ => s

/-- Words of the slice's entries or records that fail parity after a fault left unrepaired (R457). -/
def State.hurtWords (s : State) (pos : Nat) (hurt : List Upset) : State :=
  hurt.foldl (fun (s : State) h => s.hurtAt pos h) s

/-- A soft error of a memory outside the node table: a tone-map record fails its parity from now on (R163), or a word of a
Carafe structure holds a single wrong bit (R257). No row of the table brings one about: PERC_SLICE's operand carries those
that have come since the last slice (log entry 95). -/
def State.softError (s : State) (u : Upset) : State :=
  match u with
  | .tmap i =>
    match mget s.phy.tmaps i.toNat with
    | some m => { s with phy.tmaps := mput s.phy.tmaps i.toNat { m with perr := true } }
    | none => s
  | .cell c m => { s with car.upsets := s.car.upsets ++ [(c.toNat, m)] }
  | _ => s

/-- PERC_SLICE (R455 to R457): the slice at PERC_POS is tested; a fault is mapped onto spares, or left. -/
def execPercSlice (faults : List MacroFault) (hurt : List Upset) (s : State) :
    Host.Outcome State Fault Refusal :=
  if !s.sliceMay then .next s
  else
    let s := hurt.foldl State.softError s
    let pos := s.rd Reg.TST_PERC_POS
    let faults := sliceFaults faults
    if faults.isEmpty then .next s.percNext
    else
      let s := ((s.bump Reg.TST_PERC_FAILS).wr Reg.TST_PERC_LAST_FAIL (0x8000 + pos)).ev Reg.TST_TST_EVT 0 184
      let s := if 0 < s.tst.demand then s.wr Reg.TST_BIST_FOUND 1 else s
      if faults.all s.mends then
        let n := faults.flatMap (fun f => s.needs f 2)
        let s := ((s.mapRepairs n).bump Reg.TST_PERC_REPAIRS).ev Reg.TST_TST_EVT 1 184
        .next (s.logRepairs n).percNext
      else
        let s := (s.bump Reg.TST_PERC_UNREP).ev Reg.TST_TST_EVT 2 184
        let s := faults.foldl (fun s f => s.logUnrep f 2) s
        .next (s.hurtWords pos hurt).percNext

/-- PERC_CUTOFF (R455): the slice is cut off at S + 6 µs and tested again in the next pass. -/
def execPercCutoff (s : State) : Host.Outcome State Fault Refusal :=
  .next (if s.sliceMay then (s.bump Reg.TST_PERC_OVER).percNext else s)

end Sys2Proof.Machine
end

