-- ==== Sys2Proof/Machine/Recovery.lean ====
section
/-!
DEFINITION. Faults, fences and recovery: what each island's stop discards, the fences per stream, restarts, resume
points, the fence list (R16, R18, R59, R118, R138, R170, R198, R225, R252, R278, R279, R344, R360, R379, R386, R411, R413
to R425).
-/

namespace Sys2Proof.Machine

/-! ### Fences (R419 to R421, R424) -/

/-- A node downlink fence enters the fence list (R424): a list that is full sets FNC_OVF; a fence merged to an earlier L
corrects its entry of this generation while that waits (R423). -/
def State.fncPush (s : State) (h : BitVec 18) (l : BitVec 16) : State :=
  let g := BitVec.ofNat 8 (s.rd Reg.SYS_REC_GEN)
  if s.sys.fenceList.any (fun e => e.handle = h && e.gen = g) then
    { s with sys.fenceList := s.sys.fenceList.map (fun e => if e.handle = h && e.gen = g then { e with hseq := l } else e) }
  else if 8192 ≤ s.sys.fenceList.length then s.wr Reg.SYS_FNC_OVF 1
  else
    let e : FncEntry := { handle := h, hseq := l, gen := g }
    ({ s with sys.fenceList := s.sys.fenceList ++ [e] }).wr Reg.SYS_FNC_EMPTY 0

/-- A frame that a fence discards completes ABORTED with REASON FENCE (R421). -/
def State.fenceFrame (s : State) (h : Hdr) : State := (s.settle h stABORTED 8).bump Reg.SYS_FENCED_DL

/-- Put a fence in force, in place of a later one of its stream. -/
def State.putFence (s : State) (f : Fence) : State :=
  { s with sys.fences := s.sys.fences.filter (fun x => !(x.cls = f.cls && x.idx = f.idx && x.handle = f.handle)) ++ [f] }

/-- The frames of handle `h` from host sequence L onward that stand in a queue whose entry is gone (R420, R421). -/
def State.fenceOrphans (s : State) (h : BitVec 18) (l : BitVec 16) : State :=
  let late := fun (x : QItem) => (x.hdr.map (fun hd => laterEq hd.seq l)).getD false
  let mine := s.car.orphans.filter (fun p => p.1 = h)
  let s := (mine.flatMap (fun p => (p.2.items.filter late).filterMap (fun x => x.hdr))).foldl State.fenceFrame s
  let cut := fun (p : BitVec 18 × Queue) =>
    if p.1 = h then
      let keep := p.2.items.filter (fun x => !late x)
      (p.1, { p.2 with items := keep, read := min p.2.read keep.length, mark := min p.2.mark keep.length })
    else p
  { s with car.orphans := (s.car.orphans.map cut).filter (fun p => !p.2.items.isEmpty) }

/-- Every frame of a node from host sequence L onward is discarded (R420, R421): on its way, waiting for admission, or in
its queue; the wake of a dispatched one ends as never committed, with no counter moved. -/
def State.fenceDrop (s : State) (h : BitVec 18) (l : BitVec 16) : State :=
  let s := s.pullItems (fun f => f.kind = TxKind.dl && f.copy.handle = h && laterEq f.seq l)
  let mine := fun (t : Try) => t.kind = TxKind.dl && t.handle = h && laterEq t.seq l
  let had := s.sch.tries.any mine || s.sch.held.any (fun p => mine p.1)
  let s := { s with sch.tries := s.sch.tries.filter (fun t => !mine t), sch.held := s.sch.held.filter (fun p => !mine p.1) }
  let q := s.nodeQ h
  let n : Nat := (q.items.findIdx? (fun (x : QItem) => match x.hdr with
    | some hd => laterEq hd.seq l
    | none => false)).getD q.items.length
  let s := if n < q.items.length then
      let s := ((q.items.drop n).filterMap (fun x => x.hdr)).foldl (fun (s : State) hd => s.fenceFrame hd) s
      s.setNodeQ h { q with items := q.items.take n, read := min q.read n, mark := min q.mark n }
    else s
  let waits := fun (w : WaitItem) => w.tgt = Target.node h && laterEq w.hdr.seq l
  let s := (s.car.admitQ.filter waits).foldl (fun s w => s.fenceFrame w.hdr) s
  let s := { s with car.admitQ := s.car.admitQ.filter (fun w => !waits w) }
  let s := s.fenceOrphans h l
  if had then s.afterWake h else s

/-- Fence a node's downlink stream at L (R419 to R421, R423). -/
def State.fenceNode (s : State) (h : BitVec 18) (l : BitVec 16) : State :=
  if s.fenced 0 0 h l then s
  else ((s.putFence { cls := 0, idx := 0, handle := h, l := l }).fncPush h l).fenceDrop h l

/-- Fence a node's uplink stream at L: the uplinks that exist are discarded (R421). -/
def State.fenceUl (s : State) (h : BitVec 18) (l : BitVec 16) : State :=
  let hit := fun (u : UlItem) => (match u.copy with
    | some c => decide (c.handle = h)
    | none => false) && laterEq u.ulSeq l
  let gone := s.key.ul.filter hit ++ s.sch.ul.filter hit
  let s := { s with key.ul := s.key.ul.filter (fun u => !hit u), sch.ul := s.sch.ul.filter (fun u => !hit u) }
  let wait := fun (d : DevItem) => match d.hdr with
    | some hd => hd.ikind = 4 && hd.handle = h && laterEq hd.seq l
    | none => false
  let n := (s.car.inbox.filter wait).length
  let s := ({ s with car.inbox := s.car.inbox.filter (fun d => !wait d) }).bumpN Reg.SYS_FENCED_UL n
  gone.foldl (fun s u => (s.withdrawAck u.id).bump Reg.SYS_FENCED_UL) s

/-- An item of a system queue that a fence discards (R421): a frame that a descriptor posted completes; an uplink and a record
are counted. -/
def State.fenceItem (s : State) (it : QItem) : State :=
  match it.hdr with
  | some hd =>
    if hd.ikind = 4 || hd.ikind = 5 then s.bump Reg.SYS_FENCED_UL
    else if hd.ikind ≤ 3 then s.fenceFrame hd
    else s.bump Reg.SYS_FENCED_OTHER
  | none => s.bump Reg.SYS_FENCED_OTHER

/-- The items of a system queue from L onward are discarded. -/
def State.dropFrom (s : State) (q : Nat) (l : BitVec 16) : State :=
  let x := s.sysQ q
  let n := (x.items.findIdx? (fun it => laterEq it.enq l)).getD x.items.length
  let s := (x.items.drop n).foldl State.fenceItem s
  s.setSysQ q { x with items := x.items.take n, read := min x.read n, mark := min x.mark n }

/-- Fence a system queue's stream at L (R421): its items from L onward are discarded, a block on its way too. -/
def State.fenceSys (s : State) (q : Nat) (l : BitVec 16) : State :=
  if s.fenced 7 q 0 l then s
  else
    let s := s.putFence { cls := 7, idx := q, handle := 0, l := l }
    let i := q - 0x18
    let s := if 0x18 ≤ q && q < 0x20 then
        let s := s.pullItems (fun f => f.kind = TxKind.mc && f.idx = i)
        { s with sch.tries := s.sch.tries.filter (fun (t : Try) => !(t.kind = TxKind.mc && t.idx = i)) }
      else s
    s.dropFrom q l

/-- Fence a ring (R386, R421, R431): fetching restarts at L after REC_ACK. -/
def State.fenceRing (s : State) (ring : Nat) (l : BitVec 16) : State :=
  ((s.wrB Reg.HST_RING_FENCED 0 ring 1).wrB Reg.HST_RING_RESUME 0 ring l.toNat).wrB Reg.HST_RING_FETCH 0 ring l.toNat

/-- Fence the table-update stream at L (R198, R386, R421): its commands not yet reported are discarded without a
completion. -/
def State.fenceTbl (s : State) (l : BitVec 16) : State :=
  if s.on Reg.SYS_TBL_FENCED && laterEq l (BitVec.ofNat 16 (s.rd Reg.SYS_TBL_RESUME)) then s
  else
    let s := ((s.wr Reg.SYS_TBL_FENCED 1).wr Reg.SYS_TBL_RESUME l.toNat).fenceRing tblRing l
    let gone := s.ntb.cmdQ.filter (fun c => laterEq c.seq l)
    let s := { s with ntb.cmdQ := s.ntb.cmdQ.filter (fun c => !laterEq c.seq l) }
    let s := if s.headless then { s with ntb.tblSeq := l } else s
    s.bumpN Reg.SYS_FENCED_OTHER gone.length

/-! ### Work that a fault destroys -/

/-- A frame's wake ends with its frame rewound and nothing counted (R225, R419). -/
def State.rewindTry (s : State) (h : BitVec 18) (seq : BitVec 16) : State :=
  match s.tryOf h seq with
  | some t => s.tryEnd t .lost
  | none => s

/-- An item on its way to the air that a fault destroyed (R118, R170, R419): a node frame of which a try has left stays
queued, another fences its stream; a block fences its queue's stream; an acknowledgement is dropped and a beacon
missed. -/
def State.loseTx (s : State) (f : TxItem) : State :=
  match f.kind with
  | .dl =>
    let h := f.copy.handle
    match Queue.find (s.nodeQ h) f.seq with
    | none => s
    | some i =>
      match (s.nodeQ h).items[i]?.bind (fun x => x.hdr) with
      | none => s
      | some hd => if 1 ≤ hd.tries then s.rewindTry h f.seq else s.fenceNode h f.seq
  | .mc =>
    match (s.sysQ (0x18 + f.idx)).items.head? with
    | some it => s.fenceSys (0x18 + f.idx) it.enq
    | none => s
  | _ => s.notSent f false

/-- A front-end group stops (R118). -/
def State.stopFe (s : State) (g : Grp) : State :=
  let s := (s.truncate g).abortGrp g Reg.GRN_GRP_ABORT
  let x := s.fe g
  let held := match x.burst with
    | some b => b.unstarted
    | none => []
  let s := s.setFe g { x with cal := none, tune := none, burst := none, arrive := [], wait := [], gap := false, req := none }
  (x.arrive ++ x.wait ++ held).foldl State.loseTx s

/-- GRN stops (R138): detections not placed are lost; its lanes are counted at the restart. -/
def State.stopGrn (s : State) : State := { s with grn.qual := [], grn.late := [] }

/-- PHY stops (R138, R170). The lanes that it aborts are those whose receptions are under decode, in DECODING; a lane in ACQUIRING
has passed nothing to PHY but its PHR, and goes on to its timeout (log entry 23, DESIGN CHOICE). -/
def State.stopPhy (s : State) : State :=
  let tx := s.phy.tx
  let ul := s.phy.ul
  let s := { s with phy.tx := [], phy.ul := [], phy.props := [], grn.late := [] }
  let s := (s.abortLanes (fun l => l.2.decoding) Reg.GRN_FLT_LOST).bumpN Reg.GRN_FLT_LOST ul.length
  let s := ul.foldl (fun s u => s.withdrawAck u.id) s
  tx.foldl State.loseTx s

/-- NTB stops (R198). -/
def State.stopNtb (s : State) : State :=
  let ul := s.ntb.ul
  let w := s.phy.propWrites
  let s := { s with ntb.ul := [], ntb.sweepCmp := none, phy.propWrites := [] }
  let s := ul.foldl (fun s u => s.withdrawAck u.id) s
  let s := w.foldl (fun (s : State) p => s.propLost p) s
  match s.ntb.cmdQ with
  | c :: _ => s.fenceTbl c.seq
  | [] => s

/-- An uplink that is lost at SCH: its acknowledgement is withdrawn, and one with an entry is fenced (R252, R420). -/
def State.loseSchUl (s : State) (u : UlItem) : State :=
  let s := s.withdrawAck u.id
  match u.copy with
  | some c => (s.bump Reg.SYS_FENCED_UL).fenceUl c.handle u.ulSeq
  | none => s

/-- A try that SCH's stop meets: a committed one ends without acknowledgement, another is offered again (R225). -/
def State.stopTry (s : State) (t : Try) : State :=
  s.tryEnd t (if t.committed then .noAck else .lost)

/-- An outcome that SCH holds back for a stopped CAR or NTB (R16) is a wake whose outcome was pending (R225). -/
def State.stopHeld (s : State) : State :=
  { s with sch.held := s.sch.held.map (fun p => (p.1, if p.1.committed then TryEnd.noAck else TryEnd.lost)) }

/-- SCH stops (R225, R252). -/
def State.stopSch (s : State) : State :=
  let ul := s.sch.ul
  let dl := s.sch.tries.filter (fun (t : Try) => t.kind = TxKind.dl)
  let s := { s with sch.ul := [], sch.joinQ := [], sch.wheel := [], sch.ovf := [], sch.liveGrps := [], sch.placeQ := [] }
  let s := ul.foldl State.loseSchUl s
  let s := ((s.sch.acks.filter (fun a => !a.classified)).map (fun a => a.id)).foldl (fun s i => s.withdrawAck i) s
  let s := dl.foldl State.stopTry s.stopHeld
  { s with sch.acks := s.sch.acks.map (fun a => { a with opp := none }) }

/-- ETH stops (R375, R379): what waited outside queue 0x20 is lost; a DOWN record that waits for admission is discarded
under the fence of its stream, transmit ring 0, and its SEQ is expected again. -/
def State.stopEth (s : State) : State :=
  let los := fun (n : Nat) => (s.rd Reg.ETH_LINK_STAT).testBit n
  let s := (s.setLink .A false (los 2)).setLink .B false (los 3)
  let s := { s with eth.reasm := [], eth.dgrams := [] }
  match s.hst.txSlots.find? (fun p => p.2.tunSeq.isSome && !p.2.enqueued && s.car.admitQ.any (fun w =>
      w.hdr.ring = 0 && w.hdr.desc = p.2.idx)) with
  | some (r, x) =>
    let s := { s with
      car.admitQ := s.car.admitQ.filter (fun w => !(w.hdr.ring = 0 && w.hdr.desc = x.idx)),
      hst.txSlots := s.hst.txSlots.erase (r, x) }
    let s := match x.tunSeq with
      | some q => s.wr Reg.ETH_TUN_RX_NEXT q.toNat
      | none => s
    s.fenceRing 0 x.idx
  | none => s

/-- A transmit ring as HST stops: descriptors fetched and not enqueued go, and the ring is fenced at the first (R386). -/
def State.ringStop (s : State) (r : Nat) : State :=
  let mine := fun (p : Nat × TxSlot) => p.1 = r && !p.2.enqueued && p.2.tunSeq.isNone
  match s.hst.txSlots.find? mine with
  | some p =>
    let gone := s.hst.txSlots.filter mine
    let s := { s with
      hst.txSlots := s.hst.txSlots.filter (fun p => !mine p),
      car.admitQ := s.car.admitQ.filter (fun w => !gone.any (fun p => w.hdr.ring = r && w.hdr.desc = p.2.idx)) }
    s.fenceRing r p.2.idx
  | none => s

/-- HST stops, or PERST_N is asserted (R59, R386): descriptors fetched and not enqueued, commands not reported and the
mailbox record are discarded. -/
def State.stopHst (s : State) : State :=
  let s := (List.range 16).foldl State.ringStop s
  let s := match s.ntb.cmdQ.find? (fun c => !c.tunnel) with
    | some c => s.fenceTbl c.seq
    | none => s
  if s.hst.mbx then { s.wr Reg.HST_MBX_STAT 3 with hst.mbx := false } else s

/-- The twin link is down (R392). -/
def State.linkDown (s : State) : State :=
  let s := if s.on Reg.TWN_TW_LINK then (s.wr Reg.TWN_TW_LINK 0).ev Reg.TWN_TW_EVT 0 176 else s
  { s.wr Reg.TWN_TW_VER 0 with twn.good := 0 }

/-- An island stops: its work in flight goes as its own rule says (R417). -/
def State.stopIsland (s : State) (isl : Isl) : State :=
  match isl with
  | .SYS | .KEY | .CAR | .TIM => s
  | .IRQ => { s with irq.events := [], irq.held := [] }
  | .FEL => s.stopFe .L
  | .FEH => s.stopFe .H
  | .FEI => s.stopFe .I
  | .GRN => s.stopGrn
  | .PHY => s.stopPhy
  | .NTB => s.stopNtb
  | .SCH => s.stopSch
  | .ETH => s.stopEth
  | .HST => s.stopHst
  | .TWN => { s.linkDown.dropSending.dropReceived with twn.base := none, twn.partner := 0 }
  | .TST =>
    if s.rd Reg.TST_BIST_STAT = 1 then { s.wr Reg.TST_BIST_STAT 0 with tst.demand := 0 } else s

/-! ### Faults (R413, R419, R423) -/

/-- Set the run bit of an island (R35). -/
def State.setRun (s : State) (isl : Isl) (v : Bool) : State :=
  let n := isl.num
  let f := if n < 8 then Reg.SYS_ISL_RUN_L else Reg.SYS_ISL_RUN_H
  let x := s.rd f
  s.wr f (clearBits x (2 ^ (n % 8)) + (if v then 2 ^ (n % 8) else 0))

/-- Open a recovery generation, unless one is open: REC_ISL and REC_CAUSE keep the first fault (R419, R423). -/
def State.openGen (s : State) (isl cause : Nat) : State :=
  if s.rd Reg.SYS_REC_STATE = 0 then
    let s := (s.wrap Reg.SYS_REC_GEN).wr Reg.SYS_REC_ISL isl
    { s.wr Reg.SYS_REC_CAUSE cause with sys.fltCount := [] }
  else s

/-- How often an island has faulted in this generation. -/
def State.faults (s : State) (isl : Isl) : Nat := (s.sys.fltCount.filter (fun n => n = isl.num)).length

/-- An error of an island (R413): a device fault of SYS or KEY, else an island fault (R419, R423, R451). A stopped island
faults no further. -/
def State.islandFault (s : State) (isl : Isl) (cause : Nat) : State :=
  if !s.up || s.halted then s
  else
    match isl with
    | .SYS => s.internalReset 3 .none
    | .KEY => s.internalReset 4 .none
    | _ =>
      if !s.runs isl then s
      else
        let s := (s.openGen isl.num cause).setRun isl false
        let s := if isl.num < 8 then s.ev Reg.SYS_ISL_FLT_L isl.num 0 else s.ev Reg.SYS_ISL_FLT_H (isl.num - 8) 8
        let s := { s with sys.fltCount := s.sys.fltCount ++ [isl.num] }
        let s := s.logFault isl.num cause
        let s := if 3 ≤ s.faults isl then (s.wr Reg.SYS_REC_STATE 3).ev Reg.SYS_REC_EVT 1 20
          else if s.rd Reg.SYS_REC_STATE = 3 then s
          else s.wr Reg.SYS_REC_STATE 1
        s.stopIsland isl

/-- ISLAND_STATE_PARITY (R413). -/
def execIslandStateParity (isl : Isl) (s : State) : Host.Outcome State Fault Refusal := .next (s.islandFault isl 1)

/-- SPINE_TAP_ERROR (R344): a tap's count differs from the time word by more than 2 ns, or the word is missing. -/
def execSpineTapError (isl : Isl) (s : State) : Host.Outcome State Fault Refusal :=
  if !s.up || s.halted then .next s else .next ((s.bump Reg.TIM_SPINE_ERR).islandFault isl 1)

/-- Record a fabric fault (R35). -/
def State.fabFault (s : State) (isl : Isl) (cause : Nat) : State :=
  (s.wr Reg.SYS_FAB_LAST_SRC isl.num).wr Reg.SYS_FAB_LAST_CAUSE cause

/-- HANDSHAKE_TIMEOUT (R16, R35): a credited flit is not taken within 10 µs. -/
def execHandshakeTimeout (isl : Isl) (s : State) : Host.Outcome State Fault Refusal :=
  if !s.up || s.halted || !s.runs isl then .next s
  else .next (((s.bump Reg.SYS_FAB_HSTO).fabFault isl 3).islandFault isl 2)

/-- Islands that an item kind is allowed toward (R19), as a mask; 0 for a reserved code. -/
def kindMask (k : Nat) : Nat :=
  match k with
  | 0x01 => 0x3780
  | 0x02 => 0x075C
  | 0x03 | 0x04 => 0x045C
  | 0x05 => 0x075C
  | 0x10 | 0x11 => 0x0080
  | 0x12 | 0x20 | 0x21 | 0x30 | 0x31 | 0x32 | 0x40 | 0x42 | 0x80 => 0xFFFF
  | 0x22 => 0x2000
  | 0x23 => 0x2001
  | 0x41 => 0x0400
  | 0x50 => 0x43C0
  | 0x60 | 0x61 => 0x0001
  | 0x70 => 0x0002
  | _ => 0

/-- TPAR of a tag gives even parity (R17). -/
def tagEven (t : Word64) : Bool := ((List.range 64).filter (fun i => t.getLsbD i)).length % 2 = 0

/-- DEST, KIND and stream class of a tag check at a receiving island (R18). -/
def tagFits (rcv : Isl) (t : Word64) : Bool :=
  let x := t.toNat
  bits x 52 4 = rcv.num && (kindMask (bits x 40 8)).testBit rcv.num && bits x 12 4 ≤ 9

/-- An item that waits at an island is taken out of it. -/
def State.takeOut (s : State) (x : Flying) : State :=
  match x with
  | .tx f => s.pullItems (fun y => y = f)
  | .ul u => { s with ntb.ul := s.ntb.ul.filter (fun y => y.id ≠ u.id), key.ul := s.key.ul.filter (fun y => y.id ≠ u.id),
                      sch.ul := s.sch.ul.filter (fun y => y.id ≠ u.id) }
  | .tbl c => { s with ntb.cmdQ := s.ntb.cmdQ.filter (fun y => y ≠ c) }
  | .prop w => { s with phy.propWrites := s.phy.propWrites.filter (fun y => y ≠ w) }
  | .join u => { s with sch.joinQ := s.sch.joinQ.filter (fun y => y.id ≠ u.id) }
  | .wait w => { s with car.admitQ := s.car.admitQ.filter (fun y => y ≠ w) }
  | .sess r => { s with sys.sessQ := s.sys.sessQ.filter (fun y => y ≠ r) }
  | .msg m => { s.wr Reg.KEY_KU_STAT 0 with key.msgQ := s.key.msgQ.filter (fun y => y ≠ m) }
  | .event e => { s with irq.events := s.irq.events.filter (fun y => y ≠ e) }
  | .mir r => { s with twn.toLink := s.twn.toLink.filter (fun y => y ≠ r) }

/-- What follows for an item that a failed tag check has destroyed, beside the fault of its sender (R18, R419 to R421; log
entry 72). -/
def State.itemLost (s : State) (x : Flying) : State :=
  match x with
  | .tx f => s.loseTx f
  | .ul u => s.loseSchUl u
  | .tbl c => s.fenceTbl c.seq
  | .prop w => s.propLost w
  | .join _ => s
  | .wait w =>
    let s := s.fenceFrame w.hdr
    match w.tgt with
    | .node h => s.fenceNode h w.hdr.seq
    | .sys q => s.fenceSys q (s.sysQ q).enqs
  | .sess r => s.dropMbx r.1
  | .msg m => s.dropMbx m.1
  | .event _ | .mir _ => s

/-- FAB_TAG_CHECK_FAIL (R18, R35): the receiving island discards the item; the fault is charged to the sender. FAB_LAST_CAUSE
of a reserved stream class, for which R35 has no code, is 0b10, as for DEST or KIND; where the parity fails beside another
cause it is 0b01 (log entry 72, DESIGN CHOICE). -/
def execFabTagCheckFail (rcv snd : Isl) (tag : Word64) (s : State) : Host.Outcome State Fault Refusal :=
  if !s.up || s.halted || !s.runs rcv || !s.runs snd || (tagEven tag && tagFits rcv tag) then .next s
  else
    let s := (s.bump Reg.SYS_FAB_TAGCHK).fabFault snd (if tagEven tag then 2 else 1)
    let v := s.tagged rcv tag (!tagEven tag)
    let s := match v with
      | some x => s.takeOut x
      | none => s
    let s := s.islandFault snd 4
    -- a device fault of the sender leaves nothing to settle
    match v with
    | some x => .next (if snd = .SYS || snd = .KEY then s else s.itemLost x)
    | none => .next s

/-- CARAFE_DOUBLE_ERROR (R278, R413). -/
def execCarafeDoubleError (cell : BitVec 16) (mem : CarMem) (s : State) : Host.Outcome State Fault Refusal :=
  if !s.up || s.halted || !s.runs .CAR then .next s
  else
    let s := (s.wr Reg.CAR_DE_LOC cell.toNat).wr Reg.CAR_DE_SRC (CarMem.code mem)
    .next (({ s with car.deCells := s.car.deCells ++ [cell.toNat] }).islandFault .CAR 3)

/-! ### Restarts (R417, R418) -/

/-- An item's cells agree with its header map and length (R255): a frame holds a header cell and its data cells, a record
one cell. -/
def QItem.fits (it : QItem) : Bool :=
  it.cells.length = if it.hdr.isSome then cellsOf it.body.length else 1

/-- How many items from HEAD on a walk passes (R279): it stops at a double error, at a cell that another queue or item has
claimed, and at an item whose length does not agree. -/
def walkFar (bad claimed : List Nat) : List QItem → Nat
  | [] => 0
  | it :: t =>
    if !QItem.fits it || it.cells.any (fun c => bad.contains c || claimed.contains c) then 0
    else 1 + walkFar bad (it.cells ++ claimed) t

/-- The item at which a walk of a queue stops, if it does. -/
def badItem (q : Queue) (bad claimed : List Nat) : Option Nat :=
  let n := walkFar bad claimed q.items
  if n < q.items.length then some n else none

/-- The cells that a walk of a queue claims. -/
def walkCells (q : Queue) (bad claimed : List Nat) : List Nat :=
  (q.items.take (walkFar bad claimed q.items)).flatMap (fun it => it.cells)

/-- The items of queues whose entry is gone that no walk reaches and no island has in flight go back to the free list: SWEPT
counts their cells (R279). Their frames complete with REASON REMOVED (log entry 64). -/
def State.sweep (s : State) : State :=
  let gone := s.car.orphans.flatMap (fun p => (p.2.items.drop p.2.read).flatMap (fun x => x.cells))
  let s := s.car.orphans.foldl (fun (s : State) p => s.removeQueue p.2) s
  let kept := (s.car.orphans.map (fun p => (p.1, Queue.offered p.2))).filter (fun p => !p.2.items.isEmpty)
  ({ s with car.orphans := kept }).bumpN Reg.CAR_SWEPT gone.length

/-- CAR's walk meets a node queue (R279). -/
def State.walkNode (s : State) (bad claimed : List Nat) (p : Nat × Queue) : State :=
  match badItem p.2 bad claimed with
  | some i =>
    match p.2.items[i]?.bind (fun x => x.hdr) with
    | some hd =>
      let s := s.bumpN Reg.CAR_TRUNC_ITEMS (p.2.items.length - i)
      let h := BitVec.ofNat 18 p.1
      if s.fenced 0 0 h hd.seq then s.fenceDrop h hd.seq else s.fenceNode h hd.seq
    | none => s
  | none => s

/-- CAR's walk meets a system queue (R279). Mirror records are of a stream that R419 does not fence. -/
def State.walkSys (s : State) (bad claimed : List Nat) (p : Nat × Queue) : State :=
  match badItem p.2 bad claimed with
  | some i =>
    match p.2.items[i]? with
    | some it =>
      let s := s.bumpN Reg.CAR_TRUNC_ITEMS (p.2.items.length - i)
      if p.1 = 0x28 || p.1 = 0x29 then s.dropFrom p.1 it.enq else s.fenceSys p.1 it.enq
    | none => s
  | none => s

/-- CAR's walk (R279): system queues through the queue table, then node queues through their entries. Where a walk stops,
that item and every later one of the queue are discarded and its stream is fenced there. -/
def State.walk (s : State) : State :=
  let bad := s.car.deCells
  let r := s.car.sysQs.foldl (fun (r : List Nat × State) p =>
    (r.1 ++ walkCells p.2 bad r.1, r.2.walkSys bad r.1 p)) ([], { s with car.deCells := [] })
  (s.car.nodeQs.foldl (fun (r : List Nat × State) p =>
    (r.1 ++ walkCells p.2 bad r.1, r.2.walkNode bad r.1 p)) r).2

/-- CAR restarts (R279): the walk, the end of the purges under way, the sweep; then the operations that waited for a credit
are applied in their order (R16). -/
def State.carRestart (s : State) : State :=
  let s := s.walk
  let s := (s.car.purge.foldl (fun (s : State) h =>
    let pr := s.removeFrames h
    (pr.2.bumpN Reg.CAR_PURGED pr.1).ev Reg.CAR_CAR_EVT 6 104) s).sweep
  let s := { s with car.purge := [] }
  let s := s.car.inbox.foldl (fun (s : State) d => s.takeItem d.q d.hdr d.body d.note) { s with car.inbox := [] }
  s.flushHeld.trimOut.flushRsp

/-- SCH's scan at its restart (R225): every ACTIVE entry with a queue is placed at its next wake. -/
def State.schScan (s : State) : State :=
  s.ntb.slots.foldl (fun (s : State) (p : Nat × Slot) =>
    let e := p.2.entry
    let s := s.updEntry e.handle (fun e => { e with wheeled := false })
    if e.state = .active && e.qne then s.placeNode e.handle else s) s

/-- An UNREACHABLE scan that a stop interrupted, or that waited for NTB, runs again (R217, R225). -/
def State.scanAgain (s : State) : State :=
  match s.sch.scan with
  | some l => s.unreachScan l
  | none => s

/-- The scans of R225 at a restart of SCH, once NTB runs: its own scan first, then one of UNREACHABLE. -/
def State.schScans (s : State) : State :=
  if s.runs .NTB then (({ s with sch.scanDue := false }).schScan).scanAgain else { s with sch.scanDue := true }

/-- SCH restarts (R225): what still stood in the wheel or the overflow list is discarded, its scans run, and what it held
back goes on. -/
def State.schRestart (s : State) : State :=
  let s := { s with sch.lastBucket := none, sch.wheel := [], sch.ovf := [], sch.placeQ := [] }
  s.schScans.flushHeld.predRun

/-- NTB restarts (R198): commands under an ABORT are skipped; the field updates and reads that waited for a credit are
applied (R16). -/
def State.ntbRestart (s : State) : State :=
  let s := (s.tblSkip s.ntb.cmdQ.length).syncAnchors.flushHeld
  let s := s.sch.placeQ.foldl State.afterWake { s with sch.placeQ := [] }
  if !s.runs .SCH then s
  else (if s.sch.scanDue then s.schScans else s.scanAgain).predRun

/-- Event registers and the source of their bit 0 (R432). -/
def eventRegs : List (Fld × Nat) :=
  [(Reg.SYS_ISL_FLT_L, 0), (Reg.SYS_ISL_FLT_H, 8), (Reg.SYS_VBAT_LOST, 16), (Reg.SYS_THERM_WARN, 17),
   (Reg.SYS_UPD_EVT, 18), (Reg.SYS_REC_EVT, 20), (Reg.FE_GRP_EVT .L, 32), (Reg.FE_GRP_EVT .H, 40),
   (Reg.FE_GRP_EVT .I, 48), (Reg.GRN_GRN_EVT, 56), (Reg.PHY_PHY_EVT, 64), (Reg.NTB_NTB_EVT, 72),
   (Reg.SCH_SCH_EVT, 80), (Reg.SCH_AX_EVT, 88), (Reg.SCH_MC_DONE_MAP, 96), (Reg.CAR_CAR_EVT, 104),
   (Reg.KEY_KEY_EVT, 112), (Reg.KEY_ATT_EVT, 117), (Reg.TIM_TIM_EVT, 120), (Reg.ETH_ETH_EVT, 128),
   (Reg.HST_HST_EVT, 136), (Reg.TWN_TW_EVT, 176), (Reg.TST_TST_EVT, 184)]

/-- IRQ restarts (R418): an EVENT item for each event bit that reads 1, and every pending and enabled source delivered
once. -/
def State.irqRestart (s : State) : State :=
  let s := eventRegs.foldl (fun (s : State) (r : Fld × Nat) =>
    (List.range r.1.width).foldl (fun (s : State) b => if (s.rd r.1).testBit b then s.event (r.2 + b) else s) s) s
  s.deliverAll

/-- TIM restarts (R359, R360). -/
def State.timRestart (s : State) : State :=
  let s := (s.domLoss .A).domLoss .B
  let s := { s with tim.domA := DomSt.empty, tim.domB := DomSt.empty }
  if !s.on Reg.TIM_TIME_SET then s
  else if s.rd Reg.TIM_SRC = 3 then (s.wrS Reg.TIM_RATE_ADJ 0).wrS Reg.TIM_STEER_OFS 0
  else
    let was := s.tim.holdover
    let s := { s with tim.holdover := true, tim.holdF := s.rdS Reg.TIM_RATE_ADJ }
    let s := (s.wr Reg.TIM_SRC 0).wrS Reg.TIM_STEER_OFS 0
    if was then s else s.ev Reg.TIM_TIM_EVT 1 120

/-- PHY restarts (R162, R170): IN_FLIGHT reads 0 in every record, and AUTO maps that nothing uses are free. -/
def State.phyRestart (s : State) : State :=
  let f := fun (i : Nat) (m : TMap) => { m with inFlight := 0, valid := m.valid && !(m.auto && m.users = 0 && !s.mapPromised i) }
  let l := (s.phy.tmaps.map (fun p => (p.1, f p.1 p.2))).filter (fun p => p.2 ≠ TMap.zero)
  ({ s with phy.tmaps := l, phy.props := [] }).wr Reg.PHY_TMAP_STAT 0

/-- What an island does as it restarts. -/
def State.restartIsland (s : State) (isl : Isl) : State :=
  match isl with
  | .SYS | .KEY | .TWN | .TST => s
  | .IRQ => s.irqRestart
  | .FEL => (s.wr (Reg.FE_TUNE_STAT .L) 0).reqCal .L true
  | .FEH => (s.wr (Reg.FE_TUNE_STAT .H) 0).reqCal .H true
  | .FEI => (s.wr (Reg.FE_TUNE_STAT .I) 0).reqCal .I true
  | .GRN => { s.bumpN Reg.GRN_FLT_LOST s.grn.lanes.length with grn.lanes := [] }
  | .PHY => s.phyRestart
  | .NTB => s.ntbRestart
  | .SCH => s.schRestart
  | .CAR => s.carRestart
  | .TIM => s.timRestart
  | .ETH => s.flushRsp
  | .HST => s.flushTbl.flushIrq

/-- ISLAND_RESTART (R419 step 4, R423): a stopped island runs again, unless it has faulted three times; an abort that
waited for it goes on (R427). -/
def execIslandRestart (isl : Isl) (s : State) : Host.Outcome State Fault Refusal :=
  if !s.up || s.halted || s.runs isl || 3 ≤ s.faults isl then .next s
  else .next (((s.setRun isl true).restartIsland isl).abortRun)

/-! ### Resume points and the host's answer (R419, R422, R424) -/

/-- Every island runs. -/
def State.allRun (s : State) : Bool := s.rd Reg.SYS_ISL_RUN_L = 0xFF && s.rd Reg.SYS_ISL_RUN_H = 0xFF

/-- RESUME_PUBLISH (R419 step 5): every island of the generation has restarted. -/
def execResumePublish (s : State) : Host.Outcome State Fault Refusal :=
  if s.up && s.rd Reg.SYS_REC_STATE = 1 && s.allRun then
    .next ((s.wr Reg.SYS_REC_STATE 2).ev Reg.SYS_REC_EVT 0 20)
  else .next s

/-- The effect of 1 written to REC_ACK (R422). -/
def State.recAck (s : State) : State :=
  if s.rd Reg.SYS_REC_STATE ≠ 2 then s
  else
    let s := (List.range 33).foldl (fun (s : State) r => s.wrB Reg.HST_RING_FENCED 0 r 0) s
    let s := ((s.wr Reg.SYS_REGW_FENCED 0).wr Reg.SYS_TBL_FENCED 0).wr Reg.SYS_REC_STATE 0
    { s with sys.fences := [], sys.fltCount := [] }

/-- A host write to REC_ACK (R422): under a register fence HST accepts it, and it takes no number. -/
def State.recAckWrite (s : State) : State :=
  if s.sys.linkUp && s.live && s.runs .HST && s.on Reg.SYS_REGW_FENCED then s.recAck
  else s.hostOp .SYS State.recAck

/-- REC_ACK: 1 is written by the host or, in headless mode, by the firmware (R422, R443). -/
def execRecAck (s : State) : Host.Outcome State Fault Refusal :=
  .next (if s.headless then (if s.up && s.live then s.recAck else s) else s.recAckWrite)

/-- Bytes 0x018 to 0x01E of SYS as the FNC fields stand (R430). -/
def State.fncBytes (s : State) : List Byte :=
  leBytes 3 (s.rd Reg.SYS_FNC_HANDLE + 2 ^ 23 * s.rd Reg.SYS_FNC_VALID) ++ leBytes 2 (s.rd Reg.SYS_FNC_HSEQ) ++
    [BitVec.ofNat 8 (s.rd Reg.SYS_FNC_EMPTY + 2 * s.rd Reg.SYS_FNC_OVF), BitVec.ofNat 8 (s.rd Reg.SYS_FNC_GEN)]

/-- The effect of a read of SYS+0x018 (R424): the head entry is popped, and the window captured. -/
def State.fncPop (s : State) : State :=
  let s := match s.sys.fenceList with
    | e :: rest =>
      let s := { s with sys.fenceList := rest }
      let s := ((s.wr Reg.SYS_FNC_HANDLE e.handle.toNat).wr Reg.SYS_FNC_VALID 1).wr Reg.SYS_FNC_HSEQ e.hseq.toNat
      (s.wr Reg.SYS_FNC_GEN e.gen.toNat).wr Reg.SYS_FNC_EMPTY (b2n rest.isEmpty)
    | [] => (s.wr Reg.SYS_FNC_VALID 0).wr Reg.SYS_FNC_EMPTY 1
  let b := s.fncBytes
  { s.capture 0x18 b with hostData := b.headD 0 }

/-- FNC_POP (R424): the host reads SYS+0x018. -/
def execFncPop (s : State) : Host.Outcome State Fault Refusal := .next (if s.hostReads .SYS then s.fncPop else s.readZero)

/-! ### PERST_N (R59, R435) -/

/-- PERST_ASSERT (R59): the link goes down, the PCIe configuration, the MSI-X table and the PBA are reset, and HST discards its work
as under an island fault, which sets no bit of ISL_FLT_H. In headless mode the device ignores the pin, whose level is kept for
a later boot in host mode. -/
def execPerstAssert (s : State) : Host.Outcome State Fault Refusal :=
  let s := { s with sys.perst := true }
  if s.headless then .next s
  else
    let s := { s with
      hst.pcie := PcieCfg.empty, irq.table := IrqSt.noTable, sys.linkUp := false, irq.msixEn := false, irq.msixMask := false, irq.vecMask := 0xFFFF,
      irq.pba := 0 }
    let s := s.wr Reg.HST_PCIE_STAT 0
    if s.up && s.live && s.runs .HST then
      let s := s.openGen Isl.HST.num 0
      let s := if s.rd Reg.SYS_REC_STATE = 3 then s else s.wr Reg.SYS_REC_STATE 1
      .next s.stopHst
    else .next s

end Sys2Proof.Machine
end

