-- ==== Sys2Proof/Machine/Shown.lean ====
section
/-!
DEFINITION. What each register reads as: the stored fields, and the fields whose quantity the state holds elsewhere
(R6, R8, R64, R87, R119, R140, R171, R199, R227, R253, R280, R316, R337, R338, R361, R387, R430, R444, R460).
-/

namespace Sys2Proof.Machine

/-- The selected bank of a field (R140, R387). -/
def State.bankOf (s : State) (f : Fld) : Nat :=
  match f.bank with
  | .none => 0
  | .plan => s.rd Reg.GRN_PLAN_IDX
  | .ring => s.rd Reg.HST_RING_SEL

/-- The group of a field of a front-end island. -/
def Fld.grp (f : Fld) : Grp :=
  match f.addr / 0x1000 with
  | 2 => .L
  | 3 => .H
  | _ => .I

/-- The domain of a field of a domain block. -/
def Fld.dom (f : Fld) : Dom := if f.addr < 0xB060 then .A else .B

/-- OTP has been read in this boot (stage 2). -/
def State.otpRead (s : State) : Bool := 2 ≤ s.rd Reg.SYS_BOOT_STAGE

/-- STG_STATE of the header as R337 codes it; the header is known from stage 4 on. -/
def State.stgShown (s : State) : Nat :=
  if s.rd Reg.SYS_BOOT_STAGE < 4 then 0
  else
    match s.stgByte with
    | 0xFF => 0
    | 0x7F => 1
    | 0x3F => 2
    | 0x1F => 3
    | 0x0F => 4
    | 0x07 => 5
    | _ => 6

/-- LANE_STATE of a lane (R140). -/
def State.laneShown (s : State) (n : Nat) : Nat :=
  match mget s.grn.lanes n with
  | some l => (if l.decoding then 2 else 1) + 4 * b2n l.rsv + 8 * l.opt.toNat
  | none => 4 * b2n (s.isRsv n)

/-- NF_VAL of the selected entry, aerial 0 lowest: 0 before the first window and outside PORT_RX_EN (R139). -/
def State.nfShown (s : State) : Nat :=
  let e := s.rd Reg.GRN_PLAN_IDX
  match mget s.grn.nf e with
  | some x =>
    let rx := (s.fe (s.chanGrp (BitVec.ofNat 8 e))).rxEn
    leNat ((List.range 4).map (fun i => BitVec.ofNat 8 (if rx.getLsbD i then x.vals.getD i 0 else 0)))
  | none => 0

/-- NF_AGE of the selected entry (R139). -/
def State.nfAgeShown (s : State) : Nat :=
  match (mget s.grn.nf (s.rd Reg.GRN_PLAN_IDX)).bind (fun x => x.done) with
  | some t => min 255 (s.msSince t)
  | none => 255

/-- Spares of a kind in use over all macros (R460). -/
def State.sparesUsed (s : State) (col : Bool) : Nat := (s.tst.repairs.filter (fun r => r.col = col)).length

/-- Fewest spares of a kind left in any macro (R460). -/
def State.spareLeft (s : State) (col : Bool) : Nat :=
  s.tst.repairs.foldl (fun (m : Nat) (r : Repair) => min m (sparesOf col - usedSpares s.tst.repairs r.mac col)) (sparesOf col)

/-- The PEND bits of all sources (R444). -/
def State.pendShown (s : State) : Nat := ((List.range 192).map (fun n => b2n (s.pendOf n) * 2 ^ n)).sum

/-- A quantity of a front-end island (R119). -/
def State.feShown (s : State) (g : Grp) (d : Dv) : Nat :=
  match d with
  | .calPend => b2n (s.fe g).cal.isSome
  | .calWait =>
    match (s.fe g).cal with
    | some c => min 200 (s.msSince c.since)
    | none => 0
  | .coexStat => b2n (s.reqPin g) + 2 * b2n (s.prioPin g) + 4 * b2n (s.fe g).grant
  | .rfStat => b2n (s.fe g).burst.isSome + 2 * b2n (s.rxLive g) + 4 * b2n s.holds
  | _ => 0

/-- The quantity that copy `i` of a field shows. -/
def State.derived (s : State) (f : Fld) (i : Nat) (d : Dv) : Nat :=
  match d with
  | .thermHot => b2n (decide (s.rdS Reg.SYS_TEMP_WARN ≤ s.sys.temp))
  | .calPend => s.feShown f.grp .calPend
  | .calWait => s.feShown f.grp .calWait
  | .coexStat => s.feShown f.grp .coexStat
  | .rfStat => s.feShown f.grp .rfStat
  | .planEnt => ((mget s.grn.plan (s.rd Reg.GRN_PLAN_IDX)).getD 0).toNat
  | .planLive => ((mget s.grn.live (s.rd Reg.GRN_PLAN_IDX)).getD 0).toNat
  | .nfVal => s.nfShown
  | .nfAge => s.nfAgeShown
  | .laneFree => ((List.range 96).filter (fun n => s.laneIdle n && !s.isRsv n)).length
  | .laneRsv => s.privs.length
  | .laneState => s.laneShown i
  | .laneEnt => ((mget s.grn.lanes i).map (fun l => l.ent.toNat)).getD 0
  | .tmapNfree => 4096 - (s.phy.tmaps.filter (fun p => p.2.valid || p.2.users ≠ 0)).length
  | .occ => s.occ
  | .stashOcc => s.stashOcc
  | .badSlots => min 31 (s.ntb.slots.filter (fun p => p.2.bad)).length
  | .wheelOcc => s.sch.wheel.length
  | .ovfOcc => s.sch.ovf.length
  | .capPend => b2n (!s.grn.cap.isEmpty)
  | .scanBusy => b2n s.sch.scan.isSome
  | .mcStat => b2n (s.serves i)
  | .freeCells => s.freeCells
  | .sqItems => min 65535 (s.sysQ (s.rd Reg.CAR_SQ_IDX)).items.length
  | .sqCells => (queueCells (s.sysQ (s.rd Reg.CAR_SQ_IDX))).length
  | .tevEmpty => b2n (s.sysQ 0x12).items.isEmpty
  | .sevEmpty => b2n (s.sysQ 0x13).items.isEmpty
  | .tevDepth => min 65535 (s.sysQ 0x12).items.length
  | .sevDepth => min 65535 (s.sysQ 0x13).items.length
  | .latch => b2n s.aon.latch
  | .epochCur => s.epochCur.toNat
  | .epochPrev => (s.key.prevEpoch.map (fun x => x.2.toNat)).getD 0
  | .epochLeft => if s.rd Reg.KEY_KSTATE = 1 then s.aon.store.left else 0
  | .graceLeft => if s.key.prevEpoch.isSome then ceilDiv (s.key.graceAt - s.sys.uptime) (1000 * msTicks) else 0
  | .kuOtp => if s.otpRead then s.otp.kuCtr else 0
  | .tamperSrc => s.aon.src.toNat
  | .tamperWhen => s.aon.when_.toNat
  | .tamperKop => b2n s.aon.kop
  | .tamperCnt => s.aon.cnt.toNat
  | .dieId => if s.otpRead then bits s.otp.dieId.toNat (8 * i) 8 else 0
  | .devIdent => bits s.devIdent.toNat (8 * i) 8
  | .devEui => if s.otpRead then s.otp.devEui.toNat else 0
  | .attSeg => if s.otpRead then s.otp.attSeg else 0
  | .timeNow => s.sys.timeNs
  | .domDiff => if s.tracks .A && s.tracks .B then ((s.domOfs .A - s.domOfs .B) % 2 ^ 64).toNat else 0
  | .domState => s.domState f.dom
  | .domOfs => ((s.domOfs f.dom) % 2 ^ 64).toNat
  | .ringIdle => b2n (decide (s.rdB Reg.HST_RING_COMPL 0 (s.rd Reg.HST_RING_SEL) =
      s.rdB Reg.HST_RING_FETCH 0 (s.rd Reg.HST_RING_SEL)))
  | .repRows => s.sparesUsed false
  | .repCols => s.sparesUsed true
  | .repOtp => if s.otpRead then s.otp.repairs.length else 0
  | .repLog => if 4 ≤ s.rd Reg.SYS_BOOT_STAGE then s.nvm.repLog.length else 0
  | .spareMin => s.spareLeft false
  | .spareMinc => s.spareLeft true
  | .percRun => b2n (s.percRuns && s.runs .TST)
  | .pendSum => s.pendShown
  | .arbOtp => if s.otpRead then s.otp.arb else 0
  | .updIdle =>
    match s.sys.sess with
    | some x => min 30 (s.msSince x.answered / 1000)
    | none => 0
  | .stgState => s.stgShown

/-- What copy `i` of a field reads as; a WO field reads 0 (R7). -/
def State.shown (s : State) (f : Fld) (i : Nat) : Nat :=
  if f.acc = .wo then 0
  else
    match f.dv with
    | none => s.rdB f i (s.bankOf f)
    | some d => s.derived f i d % 2 ^ f.width

/-- The copy of a field whose byte group holds an address. -/
def Fld.copyAt (f : Fld) (a : Nat) : Option Nat :=
  let i := if f.stride = 0 then 0 else (a - f.addr) / f.stride
  let b := f.addr + i * f.stride
  if f.addr ≤ a && i < f.n && b ≤ a && a < b + f.glen then some i else none

/-- The fields, with their copies, of the byte group that holds an address. -/
def fieldsAt (a : Nat) : List (Fld × Nat) :=
  (Reg.ofIsland (a / 0x1000)).filterMap (fun f => (f.copyAt a).map (fun i => (f, i)))

/-- The lowest address and the length of the byte group that holds an address; an address that holds no register stands
alone. -/
def groupAt (a : Nat) : Nat × Nat :=
  match fieldsAt a with
  | [] => (a, 1)
  | (f, i) :: _ => (f.addr + i * f.stride, f.glen)

/-- A field has bits in byte `k` of its group. -/
def Fld.inByte (f : Fld) (k : Nat) : Bool := f.lsb < 8 * (k + 1) && 8 * k < f.lsb + f.width

/-- A register byte as it stands (R8): reserved bits, and offsets that hold no register, read 0. The record bytes of a
pop window stand as last captured (R270). -/
def State.liveByte (s : State) (a : Nat) : Byte :=
  if 0x9080 ≤ a && a < 0x9090 then s.car.tevLast.getD (a - 0x9080) 0
  else if 0x90A0 ≤ a && a < 0x90B0 then s.car.sevLast.getD (a - 0x90A0) 0
  else
    let b := (groupAt a).1
    BitVec.ofNat 8 (((fieldsAt a).map (fun p => bits (s.shown p.1 p.2 * 2 ^ p.1.lsb) (8 * (a - b)) 8)).sum)

/-- Consecutive register bytes as they stand. -/
def State.liveBytes (s : State) (a n : Nat) : List Byte := (List.range n).map (fun k => s.liveByte (a + k))

end Sys2Proof.Machine
end

