-- ==== Sys2Proof/Machine/Start.lean ====
section
/-!
DEFINITION. Boot stages 10 and 11: time acquisition, start beacons, the start hold and MESH_GO (R80 to R82, R221, R357,
R390).
-/

namespace Sys2Proof.Machine

/-- The beacon slots that are enabled (R219, R221). -/
def State.bcnSlots (s : State) : List Nat := (List.range 8).filter (fun i => (s.rdI Reg.SCH_BCN_CFG i).testBit 0)

/-- The start beacons begin (R82, R221): BOOT_STAGE reads stage 11, and RUNNING at once where no slot is enabled. One of a
pair starts in WAIT (R390). -/
def State.startMesh (s : State) : State :=
  let l := s.bcnSlots
  let t : State := { s.wr Reg.SYS_BOOT_STAGE 0xB with sys.bootAt := s.sys.timeNs, sys.startLeft := l }
  if t.on Reg.TWN_TW_EN then t.wr Reg.TWN_TW_STATE 1
  else if l.isEmpty then t.wr Reg.SYS_BOOT_STAGE 0xD
  else t

/-- The effect of 1 written to MESH_GO: only in HOLD (R82). -/
def State.meshGo (s : State) : State := if s.rd Reg.SYS_BOOT_STAGE = 0xC then s.startMesh else s

/-- STAGE10_TIME_ACQ (R357): stage 10 begins; the updates of TIM take the step in place of steering. -/
def execStage10TimeAcq (s : State) : Host.Outcome State Fault Refusal :=
  .next (if s.up && s.rd Reg.SYS_BOOT_STAGE = 9 then s.wr Reg.SYS_BOOT_STAGE 0xA else s)

/-- STAGE11_START_BEACONS (R82, R221, R357): once the time base is set, the start beacons begin, or the device waits for
MESH_GO. -/
def execStage11StartBeacons (s : State) : Host.Outcome State Fault Refusal :=
  if !s.up || s.rd Reg.SYS_BOOT_STAGE ≠ 0xA || !s.on Reg.TIM_TIME_SET then .next s
  else if s.on Reg.SYS_START_HOLD then .next (s.wr Reg.SYS_BOOT_STAGE 0xC)
  else .next s.startMesh

/-- MESH_GO: the host writes 1 (R82). -/
def execMeshGo (s : State) : Host.Outcome State Fault Refusal := .next (s.hostOp .SYS State.meshGo)

end Sys2Proof.Machine
end

