-- ==== Sys2Proof/Machine/Twin.lean ====
section
/-!
DEFINITION. Twins: heartbeats, the interlock, mirroring, takeover, swap, relay (R390 to R411).
-/

namespace Sys2Proof.Machine

/-! ### The twin link (R392, R393, R404, R405) -/

/-- The unit runs as one of a pair (R390), and TWN works. -/
def State.twnOn (s : State) : Bool := s.up && !s.halted && s.on Reg.TWN_TW_EN && s.runs .TWN && s.sys.meshRun

/-- The unit is ACTIVE. -/
def State.active (s : State) : Bool := s.rd Reg.TWN_TW_STATE = 2

/-- Highest twin-link major of this unit (VER_TWN). -/
def State.twnMajor (s : State) : Nat := s.rd Reg.SYS_VER_TWN / 16

/-- The heartbeat of this unit (R393). -/
def State.heartbeat (s : State) : Heartbeat :=
  { bytes := hbClose ([1] ++
      hbFlags (s.rd Reg.TWN_TW_STATE) s.holds (s.rd Reg.TWN_SWAP_ST = 1) s.twnMajor (s.rd Reg.TWN_TW_VER) s.epochCur ++
      leBytes 2 s.aon.store.sgen.toNat ++ leBytes 2 (s.rd Reg.TWN_TW_CYCLE) ++ leBytes 3 s.freeCells ++ [0] ++
      leBytes 4 s.twn.txSeq.toNat ++ leBytes 8 s.sys.timeNs ++ leBytes 8 s.twn.rxTime ++ leBytes 4 s.twn.rxSeq.toNat),
    timeSet := s.on Reg.TIM_TIME_SET, rate := s.rdS Reg.TIM_RATE_ADJ }

/-! ### The records of a cycle on their way (R266, R400, R402, R403) -/

/-- Records go into queue 0x28 in their order, while the pool holds their cells and TX_RSV beside them; the rest wait in TWN
(R258, R266; log entry 106). -/
def State.linkMirror (s : State) (l : List (BitVec 16 × List Byte)) : State :=
  match l with
  | [] => { s with twn.toLink := [] }
  | r :: rest =>
    if cellsOf r.2.length + s.rd Reg.CAR_TX_RSV ≤ s.freeCells then
      (s.linkSys 0x28 (some (devHdr 7 0 r.1 0 none)) r.2 (.mirror r.1)).linkMirror rest
    else { s with twn.toLink := r :: rest }

/-- The cycle whose number a mirror record bears. -/
def noteCycle (n : ItemNote) : BitVec 16 :=
  match n with
  | .mirror c => c
  | _ => 0

/-- The link takes the record at the head of queue 0x28. With its end record a cycle has been sent: TW_CYCLE, TW_REGIME and
MIR_BYTES are its own (R399, R401, R412). -/
def State.sendRecord (s : State) : State :=
  match (s.sysQ 0x28).items.head? with
  | none => s
  | some it =>
    let s := s.releaseSys 0x28
    let n := noteCycle it.note
    match s.twn.sending.find? (fun c => c.n = n) with
    | none => s
    | some c =>
      if it.body.take 1 = [3] then
        let s := { s with twn.sending := s.twn.sending.filter (fun x => x.n ≠ n) }
        let s := ((s.wr Reg.TWN_TW_CYCLE n.toNat).wr Reg.TWN_TW_REGIME (b2n !c.full)).wr Reg.TWN_MIR_BYTES c.bytes
        s.emit (.mirror c)
      else
        { s with twn.sending := s.twn.sending.map (fun x => if x.n = n then { x with received := x.received + 1 } else x) }

/-- Send `n` records, then link those that wait. -/
def State.sendRecords (s : State) (n : Nat) : State :=
  match n with
  | 0 => s.linkMirror s.twn.toLink
  | k + 1 => s.sendRecord.sendRecords k

/-- The twin link takes records from queue 0x28 (R403). How many it has taken since it last did the manual leaves to the
traffic of the islands, below which the link ranks: a free value (log entry 1), so a cycle may lag by any number of cuts. -/
def State.sendMirror (s : State) : State :=
  if s.active && s.on Reg.TWN_TW_LINK && s.runs .CAR && !((s.sysQ 0x28).items.isEmpty && s.twn.toLink.isEmpty) then
    s.tick.sendRecords (s.freeVal 32)
  else s

/-- HEARTBEAT_SEND (R393): every 250 µs of mesh time. The stamps of the latest sixteen are kept for R404. -/
def execHeartbeatSend (s : State) : Host.Outcome State Fault Refusal :=
  if !s.twnOn then .next s
  else
    let s := s.sendMirror
    let hb := s.heartbeat
    let kept := (s.twn.sent ++ [(s.twn.txSeq, s.sys.timeNs)])
    .next (({ s with twn.txSeq := s.twn.txSeq + 1, twn.sent := kept.drop (kept.length - 16) }).emit (.heartbeat hb))

/-- The unit enters SYNCING: it holds no applied state (R402, R406). The system queues from 0x20 on are its own (log
entry 106). -/
def State.beginSync (s : State) : State :=
  { (s.wr Reg.TWN_TW_STATE 3).dropReceived with
    twn.copied := false, ntb.slots := [], ntb.dir := [], car.nodeQs := [], phy.tmaps := [],
    car.sysQs := s.car.sysQs.filter (fun p => 0x20 ≤ p.1 && p.1 ≠ 0x29), sch.wheel := [], sch.ovf := [] }

/-- A full copy starts after the join (R402). -/
def State.resync (s : State) : State := (s.beginSync.bump Reg.TWN_RESYNCS).ev Reg.TWN_TW_EVT 3 176

/-- TW_OFS from the four stamps (R404): the partner's time base less this one's. -/
def State.twinOfs (s : State) (hb : Heartbeat) : State :=
  match s.twn.sent.find? (fun x => x.1 = hb.rxSeq) with
  | some (_, t1) =>
    let t : Int := (((hb.rxTime : Int) - t1) + ((hb.txTime : Int) - s.sys.timeNs)) / 2
    { s.wrS Reg.TWN_TW_OFS (max (-2147483648) (min 2147483647 t)) with twn.ofs := some t }
  | none => s

/-- The link comes up with the second good heartbeat in a row (R392, R393): the majors are agreed; a standby that this
finds takes a full copy (R411). -/
def State.linkRise (s : State) (hb : Heartbeat) : State :=
  if 2 ≤ s.twn.good && !s.on Reg.TWN_TW_LINK then
    let s := (s.wr Reg.TWN_TW_LINK 1).ev Reg.TWN_TW_EVT 0 176
    let s := (s.wr Reg.TWN_TW_VER (min s.twnMajor hb.verMax)).wr Reg.TWN_TW_PVER hb.verMax
    if s.rd Reg.TWN_TW_STATE = 4 then s.resync else s
  else s

/-- A join is already queued for its boundary. -/
def State.joining (s : State) : Bool := s.grn.cap.any (fun c => c.2 = CapChange.twinJoin)

/-- The swap's last step on the active (R396, R409): the standby has applied the final cycle; XLOCK is released and this
unit becomes the new standby. -/
def State.swapOut (s : State) : State :=
  let s := (s.wr Reg.TWN_TW_HOLD 0).wr Reg.TWN_TW_STATE 3
  let s := (s.wr Reg.TWN_SWAP_ST 2).ev Reg.TWN_TW_EVT 6 176
  let s := { s.dropSending with
    twn.swapStop := false, twn.final := none, twn.joined := false, twn.fullCopy := false, twn.base := none }
  (allGrps.foldl (fun s g => s.grantFell g) s).beginSync

/-- The partner wants a full copy: it has entered SYNCING, or the copy that the last one asked for has gone past it without
taking it there (R402; log entry 106). -/
def State.copyWanted (s : State) (was : BitVec 3) (hb : Heartbeat) : Bool :=
  was ≠ 3 || s.twn.copy.isNone && (s.twn.copyEnd.any (fun n => laterEq hb.cycle n))

/-- What a good heartbeat makes the unit do in its state (R391, R402, R406, R409); `was`: the state that the one before it
reported. -/
def State.hbAct (s : State) (was : BitVec 3) (hb : Heartbeat) : State :=
  let t := s.rd Reg.TWN_TW_STATE
  if t = 1 && hb.state = 2 then s.beginSync
  else if t = 5 && s.on Reg.TWN_TW_LINK then s.resync
  else if t = 2 then
    if s.twn.swapStop && s.twn.final = some hb.cycle && hb.state = 4 then s.swapOut
    else if hb.state = 3 then
      if !s.twn.joined then (if s.joining then s else s.capChange .twinJoin)
      else if s.copyWanted was hb then { s with twn.fullCopy := true }
      else s
    else s
  else s

/-- HEARTBEAT_RX (R391 to R393, R404, R405): one whose CRC fails is no heartbeat. -/
def execHeartbeatRx (hb : Heartbeat) (s : State) : Host.Outcome State Fault Refusal :=
  if !s.twnOn || !hb.good then .next s
  else
    let was := s.twn.partner
    let s := s.twinOfs hb
    let s := { s with
      twn.partner := hb.state, twn.partnerArmed := hb.armed, twn.partnerCycle := hb.cycle, twn.partnerTime := hb.timeSet,
      twn.partnerRate := hb.rate, twn.good := s.twn.good + 1, twn.miss := 0, twn.rxSeq := hb.seq,
      twn.rxTime := s.sys.timeNs }
    let s := s.linkRise hb
    let s := if hb.epoch ≠ s.epochCur || hb.sgen ≠ s.aon.store.sgen then s.ev Reg.TWN_TW_EVT 5 176 else s
    .next (s.hbAct was hb)

/-- A claim begins (R394). -/
def State.claim (s : State) : State :=
  { s.wr Reg.TWN_TW_STATE 6 with twn.from_ := BitVec.ofNat 3 (s.rd Reg.TWN_TW_STATE), twn.claimAt := s.sys.uptime }

/-- HEARTBEAT_MISS (R392, R393, R406): a period has passed without a good heartbeat; `held`: XLOCK is held, or has not been
sensed released for the claim window, so that no claim may begin (R394). -/
def execHeartbeatMiss (held : Bool) (s : State) : Host.Outcome State Fault Refusal :=
  if !s.twnOn then .next s
  else
    let n := s.twn.miss + 1
    let s := { s.bump Reg.TWN_HB_MISS with twn.miss := n, twn.good := 0 }
    if n < 8 then .next s
    else
      let s := s.linkDown
      let t := s.rd Reg.TWN_TW_STATE
      if t = 2 && (s.twn.joined || s.joining) && n = 8 then .next (s.capChange .twinLeave)
      else if t = 4 && held then
        .next (((s.wr Reg.TWN_TW_STATE 5).bump Reg.TWN_SPLITS).ev Reg.TWN_TW_EVT 2 176)
      else if (t = 4 || t = 5) && !held then .next s.claim
      else .next s

/-! ### The interlock (R390, R391, R394, R396) -/

/-- XLOCK_RELEASE_SENSED (R390, R391, R394, R406): the line has been released for the claim window. A unit that is OFF
claims from stage 11 on, once it is not held back (R82). -/
def execXlockReleaseSensed (s : State) : Host.Outcome State Fault Refusal :=
  let st := s.rd Reg.SYS_BOOT_STAGE
  let run := s.up && (st = 0xB || st = 0xD)
  if !run || s.holds || !s.runs .TWN then .next s
  else if !s.on Reg.TWN_TW_EN then .next { s with twn.claiming := true, twn.claimAt := s.sys.uptime }
  else
    let t := s.rd Reg.TWN_TW_STATE
    if t = 1 || t = 4 || t = 5 then .next s.claim else .next s

/-- A unit that waited becomes ACTIVE (R390, R391). Its start beacons may all be past. -/
def State.becomeActive (s : State) : State :=
  let s := s.wr Reg.TWN_TW_STATE 2
  if s.rd Reg.SYS_BOOT_STAGE = 0xB && s.sys.startLeft.isEmpty then s.wr Reg.SYS_BOOT_STAGE 0xD else s

/-- CLAIM_CHECK (R394, R396, R407): the sample at the check. A unit whose check passes holds XLOCK; one that takes over
is ACTIVE when its takeover ends. -/
def execClaimCheck (low : Bool) (s : State) : Host.Outcome State Fault Refusal :=
  if s.twn.claiming then
    let s := { s with twn.claiming := false }
    .next (if low then s.bump Reg.TWN_CLAIM_LOST else s.wr Reg.TWN_TW_HOLD 1)
  else if s.rd Reg.TWN_TW_STATE ≠ 6 || s.holds then .next s
  else if low then .next ((s.bump Reg.TWN_CLAIM_LOST).wr Reg.TWN_TW_STATE s.twn.from_.toNat)
  else
    let s := s.wr Reg.TWN_TW_HOLD 1
    .next (if s.twn.from_ = 1 then s.becomeActive else s)

/-! ### Takeover (R407) -/

/-- Settle the frame that a node's queue had offered at the cut, as a try that passed its commit point and drew no
acknowledgement (R241, R407; log entry 38). -/
def State.settleOffered (s : State) (h : BitVec 18) : State :=
  let q := s.nodeQ h
  if q.read = 0 then s
  else
    match q.items.head?.bind (fun x => x.hdr) with
    | none => s
    | some hd =>
      let s := s.updHdr h 0 (fun x => { x with tries := max 1 x.tries })
      s.tryEnd { kind := .dl, grp := .L, handle := h, seq := hd.seq, dsn := hd.dsn, chan := 0, idx := 0, first := 0,
                 dur := 0, committed := true, start := false, opp := false,
                 rep := ((s.entry h).map (fun e => e.repeatLim.toNat)).getD 15 } .noAck

/-- Settle the block that a session's queue had offered at the cut: its first symbol has left (R249, R407). -/
def State.settleBlock (s : State) (i : Nat) : State :=
  if (s.sysQ (0x18 + i)).read = 0 then s
  else s.commitFrame (plainItem .mc .L 0 0 0 0 i 0 0 0 0)

/-- The host frames that the queues hold. -/
def State.heldHdrs (s : State) : List Hdr :=
  ((s.car.nodeQs ++ s.car.sysQs).flatMap (fun p => p.2.items.filterMap (fun x => x.hdr))).filter (fun h => h.ikind ≤ 3)

/-- The resume point of a ring after a takeover (R407): the lowest descriptor of a frame held. -/
def ringLow (l : List Hdr) (ring : Nat) : Option (BitVec 16) :=
  (l.filter (fun h => h.ring = ring)).foldl (fun (r : Option (BitVec 16)) h =>
    match r with
    | some x => if later x h.desc then some h.desc else some x
    | none => some h.desc) none

/-- The resume point of a ring: where HST fetches from (R407). -/
def State.publishRing (s : State) (l : List Hdr) (r : Nat) : State :=
  match ringLow l r with
  | some d =>
    let s := (s.wrB Reg.HST_RING_RESUME 0 r d.toNat).wrB Reg.HST_RING_FETCH 0 r d.toNat
    (s.wrB Reg.HST_RING_COMPL 0 r d.toNat).wrB Reg.HST_RING_PROD 0 r d.toNat
  | none => s

/-- The resume point of a node: past its last frame held (R407). -/
def State.publishNode (s : State) (p : Nat × Queue) : State :=
  match p.2.items.getLast?.bind (fun x => x.hdr) with
  | some h => s.fncPush (BitVec.ofNat 18 p.1) (h.seq + 1)
  | none => s

/-- Publish the resume points of R407: per ring of which a frame is held, and per node. HST fetches from them. -/
def State.publish (s : State) : State :=
  let l := s.heldHdrs
  let s := (List.range 16).foldl (fun (s : State) r => s.publishRing l r) s
  let s := s.car.nodeQs.foldl State.publishNode s
  let held := (l.filter (fun h => h.ikind = 1)).map (fun h => (h.handle.toNat, h.seq.toNat))
  { s with hst.resumed := held }

/-- A cycle held and not applied is dropped at a takeover (R407). -/
def State.dropHeld (s : State) : State :=
  if s.twn.held.isSome then
    (s.bump Reg.TWN_CYC_DROP).dropReceived
  else s

/-- Every frame and block the queues had offered at the cut is settled (R407). -/
def State.settleAll (s : State) : State :=
  let t : State := s.car.nodeQs.foldl (fun (t : State) (p : Nat × Queue) => t.settleOffered (BitVec.ofNat 18 p.1)) s
  (List.range 8).foldl State.settleBlock t

/-- The unit turns ACTIVE: its standby side ends. -/
def State.endStandby (s : State) : State :=
  let t : State := s.wr Reg.TWN_TW_STATE 2
  { t.dropSending with twn.joined := false, twn.fullCopy := false, twn.base := none }

/-- What a takeover reports (R407, R409). -/
def State.reportTakeover (s : State) (us : Nat) : State :=
  if s.rd Reg.TWN_SWAP_ST = 1 then (s.wr Reg.TWN_SWAP_ST 2).ev Reg.TWN_TW_EVT 6 176
  else
    let t : State := (s.ev Reg.TWN_TW_EVT 1 176).bump Reg.TWN_TAKEOVERS
    (t.wr Reg.TWN_TKO_TIME (min us 65535)).wr Reg.TWN_TKO_CUT t.twn.cutMs

/-- TAKEOVER (R407, R409): `us` is the time since the trigger. An armed swap ends COMPLETED. -/
def execTakeover (us : Nat) (s : State) : Host.Outcome State Fault Refusal :=
  if !s.twnOn || s.rd Reg.TWN_TW_STATE ≠ 6 || !s.holds || s.twn.from_ = 1 then .next s
  else .next (s.dropHeld.settleAll.publish.endStandby.reportTakeover us)

/-! ### Mirroring (R398 to R403) -/

/-- Keys of the RS fields of NTB, CAR and SCH. -/
def rsKeys : List Nat :=
  ((Reg.allNTB ++ Reg.allSCH ++ Reg.allCAR).filter (fun f => f.acc = .rs)).flatMap (fun f =>
    (List.range f.n).map (fun i => f.key i 0))

/-- A register of NTB, SCH or CAR that is mirrored (RKIND 0x08 of R400). -/
def mirrored (k : Nat) : Bool :=
  let a := k / 256 % 0x10000
  0x7000 ≤ a && a < 0xA000 && !rsKeys.contains k

/-- The mirrored tables as they stand. Of the system queues those below 0x20 are mirrored (log entry 106). -/
def State.mirBase (s : State) : MirBase :=
  { slots := s.ntb.slots, dir := s.ntb.dir, nodeQs := s.car.nodeQs, sysQs := s.car.sysQs.filter (fun p => p.1 < 0x20),
    tmaps := s.phy.tmaps }

/-- What is listed now and was not so before. -/
def changed {α : Type} [DecidableEq α] (now old : List (Nat × α)) : List (Nat × α) :=
  now.filter (fun p => mget old p.1 ≠ some p.2)

/-- Keys that were listed before and are not now. -/
def freed {α : Type} (now old : List (Nat × α)) : List Nat :=
  (old.filter (fun p => (mget now p.1).isNone)).map (fun p => p.1)

/-! ### Mirror records (R400) -/

/-- RKIND, LOC and body of a mirror record. -/
abbrev MirRec := Nat × Nat × List Byte

/-- The body of a kind whose layout R400 does not state, within the 1,024 bytes of LEN (log entry 106). -/
def openBody (rkind : Nat) (parts : List Byte) : List Byte := (Config.mirBody rkind parts).take 1024

/-- RKIND 0x01: an entry. -/
def slotRec (p : Nat × Slot) : MirRec := (1, p.1, p.2.entry.bytes)

/-- RKIND 0x02: a directory record, in the layout of R180; 0 for one that is free. -/
def dirRec (h : Nat) (r : Option DirRec) : MirRec :=
  (2, h, leBytes 3 (match r with
    | some x => x.loc.toNat + 2 ^ 19
    | none => 0))

/-- The cells of a queue, each with its link word and header-map bit (R254, R400). -/
def queueImage (q : Queue) : List (Nat × List Byte) :=
  q.items.flatMap (fun it => (QItem.image it).map (fun p =>
    (p.1, p.2 ++ leBytes 2 ((Queue.link q p.1).getD 0) ++ [BitVec.ofNat 8 (b2n (it.hdr.isSome && it.cells.head? = some p.1))])))

/-- RKIND 0x03: a cell. -/
def cellRec (p : Nat × List Byte) : MirRec := (3, p.1, openBody 3 p.2)

/-- The first cell of the item at a position of a queue; at its end, its last cell (R260; log entry 106). -/
def Queue.cellAt (q : Queue) (i : Nat) : Nat :=
  match (q.items[i]?).bind (fun it => it.cells.head?) with
  | some c => c
  | none => ((queueCells q).getLast?).getD 0

/-- RKIND 0x05: the positions of a queue. -/
def queueRec (loc : Nat) (q : Queue) : MirRec :=
  (5, loc, openBody 5 (leBytes 2 (Queue.cellAt q 0) ++ leBytes 2 (Queue.cellAt q q.read) ++ leBytes 2 (Queue.cellAt q q.mark)))

/-- RKIND 0x07: a tone-map record. -/
def tmapRec (p : Nat × TMap) : MirRec := (7, p.1, p.2.bytes)

/-- RKIND 0x08: the registers. -/
def regsRec (l : List (Nat × Nat)) : MirRec := (8, 0, openBody 8 (l.flatMap (fun p => leBytes 4 p.1 ++ leBytes 8 p.2)))

/-- Every cell of the queues of a base. -/
def MirBase.cells (b : MirBase) : List (Nat × List Byte) := (b.nodeQs ++ b.sysQs).flatMap (fun p => queueImage p.2)

/-- The cells of a cycle's queues. -/
def cycleCells (c : MirCycle) : List (Nat × List Byte) := (c.nodeQs ++ c.sysQs).flatMap (fun p => queueImage p.2)

/-- The records of a cycle over the cells `old` that the standby has: entries, directory, cells, queues, tone maps, registers, and
what was freed (R400, R401). -/
def cycleRecords (c : MirCycle) (old : List (Nat × List Byte)) : List MirRec :=
  c.slots.map slotRec ++ c.goneSlots.map (fun k => (6, k, [])) ++
    c.dir.map (fun p => dirRec p.1 (some p.2)) ++ c.goneDir.map (fun h => dirRec h none) ++
    (changed (cycleCells c) old).map cellRec ++ (c.goneCells.map (fun k => (4, k, []))) ++
    c.sysQs.map (fun p => queueRec p.1 p.2) ++ c.nodeQs.map (fun p => queueRec (0x100 + p.1) p.2) ++
    c.goneQs.map (fun k => queueRec k emptyQueue) ++ c.tmaps.map tmapRec ++ [regsRec c.regs]

/-- Bytes of records with their headers. -/
def recsBytes (l : List MirRec) : Nat := (l.map (fun r => 16 + r.2.2.length)).sum

/-- The records of a cycle as the link carries them, its end record last (R399, R400). -/
def cycleFrames (c : MirCycle) (l : List MirRec) : List (BitVec 16 × List Byte) :=
  (l.map (fun r => (c.n, mirRecord 2 (BitVec.ofNat 8 r.1) c.n r.2.1 (!c.full) r.2.2))) ++
    [(c.n, mirRecord 3 0 c.n 0 (!c.full) (leBytes 4 l.length))]

/-! ### The full copy (R402) -/

/-- Every structure of R401 that a full copy streams. -/
def State.allParts (s : State) : List CopyPart :=
  s.ntb.slots.map (fun p => CopyPart.slot p.1) ++ s.ntb.dir.map (fun p => CopyPart.dir p.1) ++
    s.car.nodeQs.map (fun p => CopyPart.nodeQ p.1) ++ s.mirBase.sysQs.map (fun p => CopyPart.sysQ p.1) ++
    s.phy.tmaps.map (fun p => CopyPart.tmap p.1)

/-- The records of a structure as it stands. -/
def State.partRecs (s : State) (p : CopyPart) : List MirRec :=
  match p with
  | .slot l => ((mget s.ntb.slots l).map (fun x => slotRec (l, x))).toList
  | .dir h => [dirRec h (mget s.ntb.dir h)]
  | .nodeQ h =>
    let q := s.nodeQ (BitVec.ofNat 18 h)
    queueRec (0x100 + h) q :: (queueImage q).map cellRec
  | .sysQ k => queueRec k (s.sysQ k) :: (queueImage (s.sysQ k)).map cellRec
  | .tmap i => ((mget s.phy.tmaps i).map (fun x => tmapRec (i, x))).toList

/-- Half of what the link carries in a cycle: 10 Gbit/s for 2 ms, in bytes (R392, R402). -/
def halfLink : Nat := 1250000

/-- How many of the structures go with this cycle: as many as half the link carries, one at least. -/
def State.partCount (s : State) (l : List CopyPart) (n left : Nat) : Nat :=
  match l with
  | [] => n
  | p :: rest =>
    let b := recsBytes (s.partRecs p)
    if b ≤ left || n = 0 then s.partCount rest (n + 1) (left - b) else n

/-- The regime of a cycle cut now (R401). -/
def State.regimeFull (s : State) : Bool := s.occ ≤ 32768 && s.cellsInUse ≤ 8192

/-- The structures of a full copy under way that go with the cycle cut now; none where the cycle is whole. -/
def State.partsNow (s : State) : List CopyPart :=
  match s.twn.copy with
  | some l => l.take (s.partCount l 0 halfLink)
  | none => []

/-- The tables as the previous cut left them. -/
def State.cutBase (s : State) : MirBase := s.twn.base.getD s.mirBase

/-- What of a table goes with a cycle: all of it when whole, else what changed and the structures of a full copy. -/
def cutTable {α : Type} [DecidableEq α] (whole : Bool) (now old : List (Nat × α)) (copied : Nat → Bool) : List (Nat × α) :=
  now.filter (fun p => whole || copied p.1 || mget old p.1 ≠ some p.2)

/-- Tone maps of a cycle: those of cutTable, and zeros for those freed. -/
def State.cutTmaps (s : State) (whole : Bool) (b : MirBase) (l : List CopyPart) : List (Nat × TMap) :=
  cutTable whole s.phy.tmaps b.tmaps (fun i => l.contains (.tmap i)) ++
    (if whole then [] else (freed s.phy.tmaps b.tmaps).map (fun (k : Nat) => (k, TMap.zero)))

/-- Queues freed since the previous cut: system queues by number, node queues from 0x100. -/
def State.cutGoneQs (s : State) (b : MirBase) : List Nat :=
  freed s.mirBase.sysQs b.sysQs ++ (freed s.car.nodeQs b.nodeQs).map (fun (h : Nat) => 256 + h)

/-- A cycle over the tables of a base, with structures of a full copy. -/
def State.cycleOver (s : State) (whole done : Bool) (b : MirBase) (l : List CopyPart) : MirCycle :=
  { n := BitVec.ofNat 16 (s.ms / 2), cutMs := s.ms / 2 * 2, full := whole, endSeen := true, declared := 0,
    received := 0, badCrc := 0, completesCopy := whole || done, bytes := 0,
    slots := cutTable whole s.ntb.slots b.slots (fun k => l.contains (.slot k)),
    dir := cutTable whole s.ntb.dir b.dir (fun k => l.contains (.dir k)),
    nodeQs := cutTable whole s.car.nodeQs b.nodeQs (fun k => l.contains (.nodeQ k)),
    sysQs := cutTable whole s.mirBase.sysQs b.sysQs (fun k => l.contains (.sysQ k)),
    tmaps := s.cutTmaps whole b l, regs := s.regs.filter (fun (p : Nat × Nat) => mirrored p.1),
    goneSlots := if whole then [] else freed s.ntb.slots b.slots, goneDir := if whole then [] else freed s.ntb.dir b.dir,
    goneQs := if whole then [] else s.cutGoneQs b,
    goneCells := if whole then [] else freed s.mirBase.cells b.cells }

/-- The records of the cycle cut now: of a selective one, beside the structures of a full copy, the cells written since the
previous cut. -/
def State.cutRecords (s : State) (c : MirCycle) (l : List CopyPart) : List MirRec :=
  if c.full then cycleRecords c []
  else
    cycleRecords c s.cutBase.cells ++ (l.flatMap s.partRecs).filter (fun r => r.1 = 3 && mget s.cutBase.cells r.2.1 = mget (cycleCells c) r.2.1)

/-- The cycle cut now (R399 to R402): whole in the full regime, else what changed since the previous cut. A full copy is
complete at the first cut after its last structure has been sent. -/
def State.cutCycle (s : State) : MirCycle :=
  let done := s.twn.copy = some [] && s.twn.sending.isEmpty
  let c := s.cycleOver s.regimeFull done s.cutBase s.partsNow
  let r := s.cutRecords c s.partsNow
  { c with declared := r.length, bytes := recsBytes r + 20 }

/-- The lag at a cut (R403): where the records of two cycles have not all gone, the active abandons them, and a full copy
begins. -/
def State.lagCut (s : State) : State :=
  if 2 ≤ s.twn.sending.length then { s.dropSending with twn.fullCopy := true, twn.base := none } else s

/-- A full copy that is due begins; in the full regime each cycle is one. -/
def State.copyBegin (s : State) : State :=
  if s.regimeFull then { s with twn.fullCopy := false, twn.copy := none }
  else if s.twn.fullCopy then { s with twn.fullCopy := false, twn.copy := some s.allParts }
  else s

/-- What is left of a full copy once the cycle has been cut. -/
def State.copyRest (s : State) (c : MirCycle) : State :=
  if c.completesCopy then { s with twn.copy := none, twn.copyEnd := some c.n }
  else { s with twn.copy := s.twn.copy.map (fun l => l.drop s.partsNow.length) }

/-- An acknowledgement window that outlives its try is still open (R239). -/
def State.windowOpen (s : State) : Bool :=
  s.sch.wins.any (fun w => s.sys.timeNs ≤ w.first + w.dur + s.rd Reg.SCH_ACK_TMO * 100000)

/-- The swap on the active at a cut (R409): dispatching stops once both units are armed; the first later cut at which
every outcome is settled is the final one. -/
def State.swapCut (s : State) (n : BitVec 16) : State :=
  if s.twn.swapStop then
    if s.twn.final.isNone && s.sch.tries.isEmpty && !s.windowOpen && s.sch.acks.isEmpty && s.sch.held.isEmpty then
      { s with twn.final := some n }
    else s
  else if s.rd Reg.TWN_SWAP_ST = 1 && s.twn.partner = 4 && s.twn.partnerArmed then { s with twn.swapStop := true }
  else s

/-- MIRROR_CUT (R399 to R403): the active cuts cycle n; its records go after those of the cycles before it. -/
def execMirrorCut (s : State) : Host.Outcome State Fault Refusal :=
  if !s.twnOn || !s.active || !s.twn.joined || !s.on Reg.TWN_TW_LINK then .next s
  else
    let s := s.sendMirror.lagCut.copyBegin
    let c := s.cutCycle
    let f := cycleFrames c (s.cutRecords c s.partsNow)
    let s := (s.copyRest c).swapCut c.n
    let s := { s with twn.base := some s.mirBase, twn.cutMs := c.cutMs, twn.sending := s.twn.sending ++ [c] }
    .next (if s.runs .CAR then s.linkMirror (s.twn.toLink ++ f) else { s with twn.toLink := s.twn.toLink ++ f })

/-- Put what a cycle lists into a table: in place of it when whole, else over it less what was freed. -/
def applyTable {α : Type} (whole : Bool) (old new : List (Nat × α)) (gone : List Nat) : List (Nat × α) :=
  new.foldl (fun m p => mput m p.1 p.2) (if whole then [] else gone.foldl mdel old)

/-- The queues and tables of a cycle, applied (R402). WHEELED stays the standby's own (R398). -/
def State.applyCycle (s : State) (c : MirCycle) : State :=
  let own := fun (loc : Nat) (sl : Slot) => match mget s.ntb.slots loc with
    | some o => decide (o.entry.handle = sl.entry.handle) && o.entry.wheeled
    | none => false
  let slots := c.slots.map (fun (p : Nat × Slot) => (p.1, { p.2 with entry := { p.2.entry with wheeled := own p.1 p.2 } }))
  let qgone := (c.goneQs.filter (fun k => 0x100 ≤ k)).map (fun k => k - 0x100)
  let sgone := c.goneQs.filter (fun k => k < 0x100)
  let regs := c.regs.foldl (fun m (p : Nat × Nat) => if mirrored p.1 then mput m p.1 p.2 else m)
    (s.regs.filter (fun p => !mirrored p.1))
  { s with
    ntb.slots := applyTable c.full s.ntb.slots slots c.goneSlots, ntb.dir := applyTable c.full s.ntb.dir c.dir c.goneDir,
    car.nodeQs := (applyTable c.full s.car.nodeQs c.nodeQs qgone).filter (fun p => !p.2.items.isEmpty),
    car.sysQs := ((applyTable false (if c.full then s.car.sysQs.filter (fun p => 0x20 ≤ p.1) else s.car.sysQs)
      (c.sysQs.filter (fun p => p.1 < 0x20)) (sgone.filter (fun k => k < 0x20))).filter (fun p => p.2 ≠ emptyQueue)),
    phy.tmaps := (applyTable c.full s.phy.tmaps c.tmaps []).filter (fun p => p.2 ≠ TMap.zero), regs := regs }

/-- Place the mirrored entries that are ACTIVE with a queue and have changed, or are not wheeled (R398). -/
def State.placeMirrored (s : State) (old : List (Nat × Slot)) : State :=
  s.ntb.slots.foldl (fun (s : State) p =>
    let e := p.2.entry
    if e.state = .active && e.qne && (!e.wheeled || mget old p.1 ≠ some p.2) then s.placeNode e.handle else s) s

/-- A cycle that fails the test of R402 is dropped; after a selective one the unit enters SYNCING. -/
def State.dropCycle (s : State) (full : Bool) (n bad : Nat) : State :=
  let s := ((s.bumpN Reg.TWN_CYC_DROP n).bumpN Reg.TWN_MIR_CRC bad).dropReceived
  if full then s else s.resync

/-- How many cycles before `c` have not come to their end: those between the last one applied and `c`, or the one held in
part. -/
def State.cyclesLost (s : State) (c : MirCycle) : Nat :=
  let last := BitVec.ofNat 16 (s.rd Reg.TWN_TW_CYCLE)
  if s.twn.copied then (if later c.n last then (c.n - last - 1).toNat else 0)
  else b2n (s.twn.held.any (fun h => h.n ≠ c.n))

/-- A cycle of which something arrives ends those before it: each one lost is dropped (R402). The regime of one that left no
record here is taken as that of the last applied (log entry 106). -/
def State.skipTo (s : State) (c : MirCycle) : State :=
  let n := s.cyclesLost c
  if n = 0 then s
  else s.dropCycle ((s.twn.held.filter (fun h => h.n ≠ c.n)).elim (!s.on Reg.TWN_TW_REGIME) (fun h => h.full)) n 0

/-- The records of a cycle received in part wait on queue 0x29 (R266, R402), in place of those held before. Where that
would take FREE_CELLS below 1,024 the unit enters SYNCING. -/
def State.holdCycle (s : State) (c : MirCycle) : State :=
  let s := s.dropReceived
  let l := (cycleFrames c (cycleRecords c [])).dropLast
  if s.freeCells < 1024 + (l.map (fun r => cellsOf r.2.length)).sum then s.resync
  else
    { l.foldl (fun (s : State) r => s.linkSys 0x29 (some (devHdr 7 0 r.1 0 none)) r.2 (.mirror r.1)) s with
      twn.held := some c }

/-- MIRROR_CYCLE_APPLY (R402): a cycle received in part is held; one that fails its checks is dropped; one that would
leave too few cells free is not applied; else all of it is applied at once. -/
def execMirrorCycleApply (c : MirCycle) (s : State) : Host.Outcome State Fault Refusal :=
  let t := s.rd Reg.TWN_TW_STATE
  if !s.twnOn || !s.on Reg.TWN_TW_LINK || !(t = 3 || t = 4) || !s.runs .CAR then .next s
  else
    let s := s.skipTo c
    if !c.endSeen then .next (s.holdCycle c)
    else
      let s := s.dropReceived
      if c.declared ≠ c.received || c.badCrc ≠ 0 then .next (s.dropCycle c.full 1 c.badCrc)
      else
        let s' := s.applyCycle c
        if s'.freeCells < 1024 then .next s.resync
        else
          let s' := s'.placeMirrored s.ntb.slots
          let s' := { s' with twn.cutMs := c.cutMs, twn.copied := s.twn.copied || c.full || c.completesCopy }
          .next (((s'.wr Reg.TWN_TW_CYCLE c.n.toNat).wr Reg.TWN_TW_REGIME (b2n !c.full)).wr Reg.TWN_MIR_BYTES c.bytes)

/-- SYNC_DONE (R391, R402): the full copy has been applied. -/
def execSyncDone (s : State) : Host.Outcome State Fault Refusal :=
  if s.twnOn && s.rd Reg.TWN_TW_STATE = 3 && s.twn.copied then
    let s := (s.wr Reg.TWN_TW_STATE 4).ev Reg.TWN_TW_EVT 4 176
    .next (if s.rd Reg.SYS_BOOT_STAGE = 0xB then
      ({ s with sys.startLeft := [] }).wr Reg.SYS_BOOT_STAGE 0xD else s)
  else .next s

/-! ### Switch-back and relay (R409, R410) -/

/-- The effect of a value written to TW_CMD (R409, R412): 0b11 clamps to CANCEL. -/
def State.twCmd (s : State) (v : Nat) : State :=
  match v with
  | 0 => s
  | 1 => s.wr Reg.TWN_SWAP_ST 1
  | _ =>
    if s.rd Reg.TWN_SWAP_ST = 1 then { s.wr Reg.TWN_SWAP_ST 0 with twn.swapStop := false, twn.final := none } else s

/-- TW_SWAP: the host writes SWAP to TW_CMD (R409). -/
def execTwSwap (s : State) : Host.Outcome State Fault Refusal := .next (s.hostOp .TWN (fun s => s.twCmd 1))

/-- TW_CANCEL: the host writes CANCEL to TW_CMD (R409). -/
def execTwCancel (s : State) : Host.Outcome State Fault Refusal := .next (s.hostOp .TWN (fun s => s.twCmd 2))

/-- SWAP_ARM_TIMEOUT (R409): armed for 1 s without the swap happening. -/
def execSwapArmTimeout (s : State) : Host.Outcome State Fault Refusal :=
  if s.rd Reg.TWN_SWAP_ST = 1 && s.runs .TWN then
    .next { s.wr Reg.TWN_SWAP_ST 3 with twn.swapStop := false, twn.final := none }
  else .next s

/-- RELAY_RECORD (R410): the standby's SYS takes a relayed record as the twin source. -/
def execRelayRecord (r : SessRec) (s : State) : Host.Outcome State Fault Refusal :=
  if s.twnOn && s.standby && s.on Reg.TWN_TW_LINK && s.rd Reg.TWN_TW_VER = 2 then
    .next (s.sessPost { src := .twin, ip := 0, port := 0, ver := 2 } r)
  else .next s

end Sys2Proof.Machine
end

