-- ==== Sys2Proof/Machine/HostAccess.lean ====
section
/-!
DEFINITION. Host accesses (R4 to R9, R34, R74, R79, R85, R86, R270, R374, R421, R422, R424): a write stages or applies
its byte group; a read captures its group and clears what reading clears; the status snapshot. A register whose write is a
command of its own has here the same effect as that command.
-/

namespace Sys2Proof.Machine

/-! ### Writes (R5, R7, R9, R85) -/

/-- The island whose window holds an address (R4). -/
def islOf (a : Nat) : Isl :=
  [Isl.SYS, .IRQ, .FEL, .FEH, .FEI, .GRN, .PHY, .NTB, .SCH, .CAR, .KEY, .TIM, .ETH, .HST, .TWN].getD (a / 0x1000) .TST

/-- Discard the bytes staged from `lo` up to, not including, `hi`. -/
def State.unstage (s : State) (lo hi : Nat) : State :=
  { s with staged := s.staged.filter (fun p => p.1 < lo || hi ≤ p.1) }

/-- The ordinary effect of a group's word on one of its fields: a W1C field is cleared by the host, an RW field takes the
clamped value, an RS field takes it from a record (R7, R9, R74). -/
def State.putField (s : State) (host : Bool) (w : Nat) (p : Fld × Nat) : State :=
  let f := p.1
  let b := s.bankOf f
  let x := bits w f.lsb f.width
  match f.acc with
  | .w1c => if host then s.wrB f p.2 b (clearBits (s.rdB f p.2 b) x) else s
  | .rw => s.wrB f p.2 b (f.clamp.apply x)
  | .rs => if host then s else s.wrB f p.2 b (f.clamp.apply x)
  | _ => s

/-- The ordinary effect of a word on a group: W1C fields first. -/
def State.putGroup (s : State) (host : Bool) (w : Nat) (l : List (Fld × Nat)) : State :=
  let c := l.filter (fun p => p.1.acc = .w1c)
  let r := l.filter (fun p => p.1.acc ≠ .w1c)
  r.foldl (fun (s : State) p => s.putField host w p) (c.foldl (fun (s : State) p => s.putField host w p) s)

/-- SYS registers whose write is a command (R82, R329, R422, R427). -/
def State.sysWrite (s : State) (base w : Nat) : State :=
  match base with
  | 0x0054 => if w.testBit 0 then s.meshGo else s
  | 0x005E => s.abtCmd (w % 4)
  | 0x006B => if w.testBit 0 then s.updKill else s
  | 0x0078 => if w.testBit 0 then s.recAck else s
  | _ => s

/-- IRQ registers (R434, R441, R442); `host`: PEND may be cleared. -/
def State.irqWrite (s : State) (host : Bool) (base w : Nat) : State :=
  if base < 0x10C0 then s.srcCtl (base - 0x1000) (host && w.testBit 6) (some (w % 32)) (some (w.testBit 5))
  else if base = 0x10D8 && host && w.testBit 0 then s.deliverAll
  else if base = 0x10D9 && host then s.swi w
  else s

/-- Port enables (R109, R223): read back at once, in effect at the boundary. -/
def State.portsWrite (s : State) (host : Bool) (g : Grp) (w : Nat) (l : List (Fld × Nat)) : State :=
  (s.putGroup host w l).capChange (.ports g (BitVec.ofNat 4 w) (BitVec.ofNat 4 (w / 16)))

/-- Front-end registers (R92, R109, R114). -/
def State.feWrite (s : State) (host : Bool) (g : Grp) (off w : Nat) (l : List (Fld × Nat)) : State :=
  match off with
  | 0x001 => s.portsWrite host g w l
  | 0x004 => if host then s.calCmd g (w % 4) else s
  | 0x02A => if host && w.testBit 2 then s.tuneGo g (w % 4) else s
  | _ => s.putGroup host w l

/-- GRN registers (R5, R124): a change of PLAN_IDX discards what PLAN_ENT has staged. -/
def State.grnWrite (s : State) (host : Bool) (base w : Nat) (l : List (Fld × Nat)) : State :=
  match base with
  | 0x5000 =>
    let t : State := s.putGroup host w l
    if t.rd Reg.GRN_PLAN_IDX = s.rd Reg.GRN_PLAN_IDX then t else t.unstage 0x5004 0x5008
  | 0x5004 => s.planWrite (s.rd Reg.GRN_PLAN_IDX) w
  | _ => s.putGroup host w l

/-- SCH registers (R143, R227): MC_MCS is clamped against the MC_OPT written with it. -/
def State.schWrite (s : State) (host : Bool) (base w : Nat) (l : List (Fld × Nat)) : State :=
  if base = 0x8043 then (if host then s.predCmd w else s)
  else if 0x8140 ≤ base && base % 16 = 1 then
    let i := (base - 0x8141) / 16
    let t : State := s.putGroup host w l
    t.wrI Reg.SCH_MC_MCS i (clampMcs (BitVec.ofNat 2 (t.rdI Reg.SCH_MC_OPT i)) (t.rdI Reg.SCH_MC_MCS i)).toNat
  else s.putGroup host w l

/-- HST registers (R5, R382, R383, R385): ring set-up only while the ring is disabled; a change of RING_SEL discards what
the ring's groups have staged. A record of the mailbox comes with its own command (log entry 39). -/
def State.hstWrite (s : State) (host : Bool) (base w : Nat) (l : List (Fld × Nat)) : State :=
  let r := s.rd Reg.HST_RING_SEL
  match base with
  | 0xD000 => if host then s.doorbell (if w.testBit 5 then tblRing else w % 32) (bits w 16 16) else s
  | 0xD008 =>
    let t : State := s.putGroup host w l
    if t.rd Reg.HST_RING_SEL = r then t else t.unstage 0xD010 0xD020
  | 0xD009 =>
    let t : State := s.putGroup host w (l.filter (fun p => p.1.acc = .w1c))
    t.ringEn r (w.testBit 0)
  | 0xD00A => if s.rdB Reg.HST_RING_EN 0 r = 1 then s else s.putGroup host w l
  | 0xD010 => if s.rdB Reg.HST_RING_EN 0 r = 1 then s else s.putGroup host w l
  | 0xD018 => if s.rdB Reg.HST_RING_EN 0 r = 1 then s else s.putGroup host w l
  | 0xD03A => if host && w % 4 ≠ 0 && s.rd Reg.HST_MBX_STAT = 1 then s.wr Reg.HST_MBX_OVR 1 else s
  | _ => s.putGroup host w l

/-- TST registers (R452, R459): after SEAL a host is never in the test halt, so MEMORY and LOGIC are refused. -/
def State.tstWrite (s : State) (host : Bool) (base w : Nat) (l : List (Fld × Nat)) : State :=
  match base with
  | 0xF014 =>
    if !host || w % 4 = 0 then s
    else if w % 4 = 3 then s.percPass
    else if s.rd Reg.TST_BIST_STAT = 1 then s
    else s.wr Reg.TST_BIST_STAT 3
  | 0xF016 => if host && w.testBit 0 then s.fuseCmd else s
  | _ => s.putGroup host w l

/-- The host clears THERM_WARN (R64): while the die is still hot the device remembers it until its next update, and ALERT_N stays
low. -/
def State.thermClear (s : State) (w : Nat) (l : List (Fld × Nat)) : State :=
  let t := s.putGroup true w l
  { t with sys.hotClear := s.sys.hotClear || (s.on Reg.SYS_THERM_WARN && w.testBit 0 && s.rdS Reg.SYS_TEMP_WARN ≤ s.sys.temp) }

/-- A word takes effect on the group at `base` (R5). -/
def State.groupWrite (s : State) (host : Bool) (base w : Nat) (l : List (Fld × Nat)) : State :=
  match islOf base with
  | .SYS =>
    if base = 0x35 && host then s.thermClear w l
    else if l.any (fun p => p.1.acc = .wo) then (if host then s.sysWrite base w else s) else s.putGroup host w l
  | .IRQ => s.irqWrite host base w
  | .FEL => s.feWrite host .L (base - 0x2000) w l
  | .FEH => s.feWrite host .H (base - 0x3000) w l
  | .FEI => s.feWrite host .I (base - 0x4000) w l
  | .GRN => s.grnWrite host base w l
  | .PHY => if base = 0x6012 then (if host then s.tmapCmd (w % 4) else s) else s.putGroup host w l
  | .SCH => s.schWrite host base w l
  | .KEY =>
    if base = 0xA007 then (if host && w.testBit 0 then s.epochCmd else s) else s.putGroup host w l
  | .HST => s.hstWrite host base w l
  | .TWN => if base = 0xE003 then (if host then s.twCmd (w % 4) else s) else s.putGroup host w l
  | .TST => s.tstWrite host base w l
  | _ => s.putGroup host w l

/-- The word of a group with byte `top` as its highest, the lower bytes as staged or as they stand (R5). -/
def State.stagedWord (s : State) (base n : Nat) (top : Nat) : Nat :=
  leNat ((List.range n).map (fun k =>
    if k + 1 = n then BitVec.ofNat 8 top else (mget s.staged (base + k)).getD (s.liveByte (base + k))))

/-- A byte reaches its register by the R5 path: the highest byte of a group makes it take effect, a lower one is staged. -/
def State.stageByte (s : State) (host : Bool) (a v : Nat) (l : List (Fld × Nat)) : State :=
  let base := (groupAt a).1
  let n := (groupAt a).2
  if a + 1 = base + n then
    let w := s.stagedWord base n v
    (s.unstage base (base + n)).groupWrite host base w l
  else { s with staged := mput s.staged a (BitVec.ofNat 8 v) }

/-- A host write meets RS fields (R85): counted, unless the byte also holds RW fields and the write changes none of the RS
values. -/
def State.rsDrop (s : State) (v : Nat) (l : List (Fld × Nat)) : State :=
  let rs := l.filter (fun p => p.1.acc = .rs)
  let mixed := l.any (fun p => p.1.acc = .rw)
  if rs.any (fun p => !mixed || bits v p.1.lsb p.1.width ≠ s.rdB p.1 p.2 0) then s.bump Reg.SYS_HOSTWR_DROP else s

/-- One byte of a host write takes effect (R5, R7, R8, R85). A group that only holds W1C bits among fields the host cannot
write takes it bit by bit. -/
def State.hostByte (s : State) (a v : Nat) : State :=
  let l := fieldsAt a
  let base := (groupAt a).1
  let n := (groupAt a).2
  if l.isEmpty then s
  else if n = 1 then (s.rsDrop v l).groupWrite true base v l
  else if l.any (fun p => p.1.acc = .rs) then s.bump Reg.SYS_HOSTWR_DROP
  else if l.any (fun p => p.1.acc = .rw || p.1.acc = .wo) then s.stageByte true a v l
  else s.putGroup true (v * 256 ^ (a - base)) (l.filter (fun p => p.1.inByte (a - base)))

/-- A host write of one byte: REC_ACK is accepted under a register fence and then takes no number (R422). -/
def State.hostWrite (s : State) (a v : Nat) : State :=
  if a = 0x78 && s.sys.linkUp && s.live && s.runs .HST && s.on Reg.SYS_REGW_FENCED then s.sysWrite a v
  else s.hostOp (islOf a) (fun s => s.hostByte a v)

/-- REG_WRITE (R5, R28, R85). -/
def execRegWrite (addr : BitVec 16) (v : Byte) (s : State) : Host.Outcome State Fault Refusal :=
  .next (s.hostWrite addr.toNat v.toNat)

/-! ### Reads (R6, R7, R34, R79, R270, R424) -/

/-- The present value from which a watermark is reloaded as it is read; 0 for every other RC field (R7). -/
def State.reload (s : State) (f : Fld) : Nat :=
  if f = Reg.CAR_FREE_MIN then s.freeCells
  else if f = Reg.GRN_LANE_PEAK then s.grn.lanes.length
  else if f = Reg.NTB_OCC_PEAK then s.occ
  else 0

/-- Clear or reload the RC fields of a group that has been read. -/
def State.clearRc (s : State) (l : List (Fld × Nat)) : State :=
  (l.filter (fun p => p.1.acc = .rc)).foldl (fun (s : State) p => s.wrB p.1 p.2 (s.bankOf p.1) (s.reload p.1)) s

/-- An address inside a pop window or the fence-list window. -/
def inWindow (a : Nat) : Bool := (0x9080 ≤ a && a ≤ 0x9090) || (0x90A0 ≤ a && a ≤ 0x90B0)

/-- A read that reaches its register. -/
def State.readByte (s : State) (a : Nat) : State :=
  if a = 0x18 then s.fncPop
  else if a = 0x9080 then s.tevPop
  else if a = 0x90A0 then s.sevPop
  else
    let l := fieldsAt a
    let base := (groupAt a).1
    let n := (groupAt a).2
    if n = 1 && !inWindow a then { s.clearRc l with hostData := s.liveByte a }
    else if a = base && !inWindow a then
      let b := s.liveBytes base n
      { (s.capture base b).clearRc l with hostData := b.headD 0 }
    else { s with hostData := (mget s.captured a).getD (s.liveByte a) }

/-- A host read of one byte (R34, R79, R462): with the link down none completes; of a stopped island, and outside SYS of a
halted device, it reads 0x00. -/
def State.hostRead (s : State) (a : Nat) : State :=
  if s.hostReads (islOf a) then s.readByte a else s.readZero

/-- GROUP_CAPTURE (R6): the host reads the lowest byte of a group. -/
def execGroupCapture (addr : BitVec 16) (s : State) : Host.Outcome State Fault Refusal :=
  .next (s.hostRead addr.toNat)

/-- RC_READ (R7): the host reads a register that stands alone. -/
def execRcRead (addr : BitVec 16) (s : State) : Host.Outcome State Fault Refusal :=
  .next (s.hostRead addr.toNat)

/-! ### The status snapshot (R374) -/

/-- The fence-list window of a snapshot: the head entry, not popped. -/
def State.fncPeek (s : State) : List Byte :=
  let ovf := 2 * s.rd Reg.SYS_FNC_OVF
  match s.sys.fenceList with
  | e :: _ =>
    leBytes 3 (e.handle.toNat + 2 ^ 23) ++ leBytes 2 e.hseq.toNat ++ [BitVec.ofNat 8 ovf, e.gen]
  | [] => ((s.wr Reg.SYS_FNC_VALID 0).wr Reg.SYS_FNC_EMPTY 1).fncBytes

/-- The 160 bytes of a STATUS response: SYS+0x000 to 0x06F, then KEY+0x000 to 0x02F. -/
def State.statusBytes (s : State) : List Byte :=
  s.liveBytes 0 0x18 ++ s.fncPeek ++ s.liveBytes 0x1F 0x51 ++ s.liveBytes 0xA000 0x30

/-- MGT_STATUS (R373, R374). -/
def execMgtStatus (s : State) : Host.Outcome State Fault Refusal :=
  match s.mgtFront 3 with
  | some d => .next ((s.releaseSys 0x20).mgtReply (mgtFrom d) 0x83 s.statusBytes)
  | none => .next s

end Sys2Proof.Machine
end

