-- ==== Sys2Proof/Machine/Boot.lean ====
section
/-!
DEFINITION. Boot stages 1 to 9 (R50, R57, R66 to R91, R115, R282 to R291, R302, R320, R321, R332, R446 to R451). Digests
and signatures come as verdicts (log entry 3).
-/

namespace Sys2Proof.Machine

/-- The stage before has ended and nothing holds or halts the device. -/
def State.atStage (s : State) (n : Nat) : Bool := s.up && !s.halted && s.rd Reg.SYS_BOOT_STAGE = n

/-! ### Stages 1 and 2 -/

/-- The retention flag is read and cleared (R50): after a loss the key store and the tamper latch count as lost. -/
def State.readRetention (s : State) : State :=
  if s.aon.lost then
    { s.ev Reg.SYS_VBAT_LOST 0 16 with
      aon := { s.aon with lost := false, latch := false, src := 0, store := KeyStore.empty } }
  else s

/-- Every source goes to control core 0 (R443): the reset of headless mode. -/
def State.allToCore (s : State) (n : Nat) : State :=
  match n with
  | 0 => s
  | n + 1 => (s.allToCore n).wrI Reg.IRQ_SRC_CTL_TGT n 16

/-- STAGE1_TAMPER_READ (R50, R77, R79): the retention flag and the tamper latch; the number from which sessions count is
drawn (R323). -/
def execStage1TamperRead (s : State) : Host.Outcome State Fault Refusal :=
  if s.atStage 0 then
    let t : State := (s.wr Reg.SYS_BOOT_STAGE 1).readRetention
    let t := t.wr Reg.SYS_TAMPER_SEEN (b2n t.aon.latch)
    let t := if t.headless then t.allToCore 192 else t
    .next { t with sys.sessNo := t.freeVal 12, free := t.free + 1 }
  else .next s

/-- LC_STATE of an OTP word (R281); none where the word is no encoding listed. -/
def lcOf (w : BitVec 5) : Option Nat :=
  if w.getLsbD 4 then some 5
  else
    match w.toNat with
    | 0 => some 0
    | 1 => some 1
    | 3 => some 2
    | 7 => some 3
    | 15 => some 4
    | _ => none

/-- The state that stage 2 decides: none where the copies differ or spell no state (R282). -/
def State.lcRead (s : State) : Option Nat :=
  if s.otp.lc0 = s.otp.lc1 && s.otp.lc1 = s.otp.lc2 then lcOf s.otp.lc0 else none

/-- BOOT_MODE was 0b11, or 0b10 outside TEST and RMA (R57). -/
def State.strapBad (s : State) : Bool :=
  s.rd Reg.SYS_BOOT_MODE = 3 || (s.rd Reg.SYS_BOOT_MODE = 2 && !s.labState)

/-- STAGE2_OTP_READ (R282, R286, R79, R340, R450): the life-cycle state, the repair map, the PUF's power-up contents; the mesh time
base counts. An
inconsistency is a device fault; the boot after it halts. STRAP_BAD is written anew at each stage 2, from the latched straps and the
life-cycle state of this boot: R64 gives it no other reset than PORST_N's, and says nothing of a life-cycle change between
two boots (log entry 99, DESIGN CHOICE). -/
def execStage2OtpRead (s : State) : Host.Outcome State Fault Refusal :=
  if s.atStage 1 then
    let t : State := { s.wr Reg.SYS_BOOT_STAGE 2 with
      sys.meshRun := true, key.captured := true }.mapRepairs s.otp.repairs
    let t : State := match t.lcRead with
      | some lc => { t.wr Reg.SYS_LC_STATE lc with key.lc := BitVec.ofNat 3 lc }
      | none => t
    let t := t.wr Reg.SYS_STRAP_BAD (b2n t.strapBad)
    if t.rd Reg.SYS_RST_CAUSE = 2 then .next (t.halt 0xA)
    else if t.lcRead.isNone then .next (t.internalReset 2 .none)
    else .next (if t.lcRead = some 0 || t.lcRead = some 5 then t.halt 0xA else t)
  else .next s

/-! ### Stages 3 and 4 -/

/-- One macro that start-up BIST finds faulty (R448): repaired, or recorded as beyond repair. -/
def State.sbMacro (s : State) (f : MacroFault) : State :=
  if s.mends f then
    let n := s.needs f 1
    let t : State := (s.mapRepairs n).bumpN Reg.TST_SB_NEWREP n.length
    { t with tst.newRep := t.tst.newRep ++ n }
  else if s.rd Reg.TST_SB_FAIL_MACRO = 0 then s.wr Reg.TST_SB_FAIL_MACRO (0x8000 + f.mac)
  else s

/-- The groups of a mask that hold none of the macros that `f` picks. -/
def groupsClear (l : List MacroFault) : Nat :=
  ((List.range 4).map (fun g => if l.any (fun f => macroGroup f.mac = g) then 0 else 2 ^ g)).sum

/-- The groups whose logic signatures agree. -/
def logicClear (x : BitVec 16) : Nat :=
  ((List.range 4).map (fun g => if x &&& groupIslands g = 0 then 2 ^ g else 0)).sum

/-- Start-up BIST (R446, R448): macros, islands, results. -/
def State.startBist (s : State) (faults : List MacroFault) (lbist : BitVec 16) (durUs : Nat) : State :=
  let l := faultsIn 0xF faults
  let x := lbistIn 0xF lbist
  let dead := l.filter (fun f => !s.mends f)
  let t : State := l.foldl State.sbMacro s
  let t := (t.wr Reg.TST_SB_MEM_OK (groupsClear dead)).wr Reg.TST_SB_LOG_OK (logicClear x)
  let t := (t.wr Reg.TST_LBIST_FAIL x.toNat).wr Reg.TST_SB_TIME (min durUs 0xFFFF)
  t.wr Reg.TST_SB_STAT (if !dead.isEmpty || x ≠ 0 then 3 else if t.tst.newRep.isEmpty then 1 else 2)

/-- STAGE3_BIST (R446, R448, R449, R79). In the test halt BOOT_STAGE keeps reading stage 3. -/
def execStage3Bist (faults : List MacroFault) (lbist : BitVec 16) (durUs : Nat) (s : State) :
    Host.Outcome State Fault Refusal :=
  if s.atStage 2 then
    let t : State := (s.wr Reg.SYS_BOOT_STAGE 3).startBist faults lbist durUs
    if t.rd Reg.TST_SB_STAT = 3 then
      .next (if t.testMode then t.wr Reg.SYS_BOOT_ERR 8 else t.halt 8)
    else .next t
  else .next s

/-- A repair record of the NVM log is loaded (R450). -/
def State.loadRepair (s : State) (r : LogRec) : State :=
  let col : Bool := decide (r.kind = 2)
  if r.kind ≠ 1 && r.kind ≠ 2 then s
  else if covered s.tst.repairs r.mac col r.index then s
  else if sparesOf col ≤ usedSpares s.tst.repairs r.mac col then s.bump Reg.TST_REP_SKIP
  else s.mapRepairs [{ mac := r.mac, col := col, index := r.index, src := r.src }]

/-- MAGIC of the NVM header (R68). -/
def nvmMagic : List Byte := [0x4F, 0x56, 0x48, 0x58]

/-- STAGE4_NVM_PROBE (R66, R68, R448, R450): the probe, the header, the repair records, the repairs of stage 3 logged. -/
def execStage4NvmProbe (probeOk : Bool) (s : State) : Host.Outcome State Fault Refusal :=
  if s.atStage 3 then
    let t : State := s.wr Reg.SYS_BOOT_STAGE 4
    if !probeOk then .next (t.halt 1)
    else if nvmReads t.nvm.bytes 0 4 ≠ nvmMagic || nvmRead t.nvm.bytes 4 ≠ 1 then .next (t.halt 2)
    else
      let t := t.nvm.repLog.foldl State.loadRepair t
      let t := t.logRepairs t.tst.newRep
      .next { t with tst.newRep := [] }
  else .next s

/-! ### Images (R69, R70, R320) -/

/-- A byte of an image, as a number. -/
def State.imgByte (s : State) (base o : Nat) : Nat := (nvmRead s.nvm.bytes (base + o)).toNat

/-- A little-endian number of an image. -/
def State.imgNum (s : State) (base o n : Nat) : Nat := leNat (nvmReads s.nvm.bytes (base + o) n)

/-- KIND of an image. -/
def State.imgKind (s : State) (base : Nat) : Nat := s.imgByte base 5

/-- Check 1 of R320: MAGIC, FMT, KIND, LEN. -/
def State.imgFormat (s : State) (base : Nat) : Bool :=
  nvmReads s.nvm.bytes base 4 = [0x4F, 0x49, 0x4D, 0x47] && (s.imgByte base 4 = 1 || s.imgByte base 4 = 2) &&
    (s.imgKind base = 1 || s.imgKind base = 2) && lenOk (s.imgKind base) (s.imgNum base 0xC 4)

/-- Check 3 of R320: firmware under the vendor key; a configuration in DEPLOYED under the owner key (R70, R318). -/
def State.imgSigned (s : State) (base : Nat) (v : Verdict) : Bool :=
  let t := BitVec.ofNat 8 (s.imgByte base 0x30)
  let good := fun (set : Byte) => t = set && v.sigOk && sigFieldOk set (nvmReads s.nvm.bytes (base + 0x34) 2692)
  if s.imgKind base = 1 then good 2 else s.key.lc ≠ 3 || good s.otp.ownerSet

/-! ### Configuration records (R72 to R76) -/

/-- What a configuration is made of, its FILLs expanded. -/
inductive CfgOp where
  /-- NOP and DELAY -/
  | plain
  /-- SET, SETBITS and CLRBITS of one register -/
  | put (addr op val : Nat)
  /-- a PRELOAD block of node-table entries -/
  | nodes (entries : List (List Byte))
  /-- a PRELOAD block of tone-map entries -/
  | maps (entries : List (List Byte))
deriving DecidableEq, Repr

/-- Cut a block into entries of `n` bytes. -/
def cutEntries (k n : Nat) (b : List Byte) : List (List Byte) :=
  match k with
  | 0 => []
  | k + 1 => b.take n :: cutEntries k n (b.drop n)

/-- The bytes of a PRELOAD block whose length word stands `o` bytes into the image (R73, R75): the block and the offset of
the next record, or none where VAL, ISL, the length or the extent is wrong. -/
def State.cfgBlock (s : State) (base o len isl val : Nat) : Option (CfgOp × Nat) :=
  let l := s.imgNum base o 4
  let next := o + 4 + 4 * ceilDiv l 4
  if len < o + 4 || len < next then none
  else if val = 1 && isl = 7 && l % 48 = 0 then
    some (.nodes (cutEntries (l / 48) 48 (nvmReads s.nvm.bytes (base + o + 4) l)), next)
  else if val = 2 && isl = 6 && l % 52 = 0 then
    some (.maps (cutEntries (l / 52) 52 (nvmReads s.nvm.bytes (base + o + 4) l)), next)
  else none

/-- The record `o` bytes into the image (R72, R73): what it does and where the next one stands; an END stands at the end
of the image. None: the configuration is invalid. -/
def State.cfgRecord (s : State) (base o len : Nat) : Option (List CfgOp × Nat) :=
  let w := s.imgNum base o 4
  let isl := bits w 0 4
  let off := bits w 4 12
  let val := bits w 24 8
  let a := isl * 0x1000 + off
  match bits w 16 8 with
  | 0x00 => some ([.plain], o + 4)
  | 0x01 => some ([.put a 1 val], o + 4)
  | 0x02 => some ([.put a 2 val], o + 4)
  | 0x03 => some ([.put a 3 val], o + 4)
  | 0x04 =>
    let n := bits (s.imgNum base (o + 4) 4) 0 12 + 1
    if len < o + 8 || 0x1000 < off + n then none
    else some ((List.range n).map (fun k => CfgOp.put (a + k) 1 val), o + 8)
  | 0x08 => some ([.plain], o + 4)
  | 0x20 => (s.cfgBlock base (o + 4) len isl val).map (fun p => ([p.1], p.2))
  | 0xFF => some ([], len)
  | _ => none

/-- The records of a configuration of `len` bytes from offset `o`, at most `fuel` of them (R73, R76). -/
def State.cfgParse (s : State) (base len fuel o : Nat) : Option (List CfgOp) :=
  match fuel with
  | 0 => some []
  | fuel + 1 =>
    if len ≤ o then some []
    else
      match s.cfgRecord base o len with
      | none => none
      | some (l, next) => (s.cfgParse base len fuel next).map (fun t => l ++ t)

/-- The records of the configuration image at `base`: none where a check of R76 on them fails. -/
def State.cfgOps (s : State) (base : Nat) : Option (List CfgOp) :=
  let len := s.imgNum base 0xC 4
  s.cfgParse base len (len / 4) 0x1000

/-- What a record's operation makes of the register byte as it stands (R73). -/
def cfgValue (op val was : Nat) : Nat :=
  match op with
  | 2 => was ||| val
  | 3 => clearBits was val
  | _ => val

/-- A record reaches its register (R74): one that may not be written is skipped and counted. -/
def State.cfgPut (s : State) (a op val : Nat) : State :=
  let l := fieldsAt a
  let base := (groupAt a).1
  let may := fun (p : Fld × Nat) =>
    p.1.inByte (a - base) && (p.1.acc = .rs || (p.1.acc = .rw && islOf a ≠ .KEY))
  if !l.any may then s.bump Reg.SYS_CFG_SKIP
  else
    let v := cfgValue op val (s.liveByte a).toNat
    let t : State := s.bump Reg.SYS_CFG_APPLIED
    if (groupAt a).2 = 1 then t.groupWrite false base v l else t.stageByte false a v l

/-- A preloaded node-table entry (R75): an INSERT with ALLOC = 0 under the handle of its word W2. -/
def State.preNode (s : State) (e : List Byte) : State :=
  let c : TblCmd := { seq := 0, bytes := [1, 0, 0, 0] ++ leBytes 3 (bits (leAt e 8 4) 0 18) ++ List.replicate 9 0 ++ e,
                      tunnel := false, aborted := false }
  let r := s.tblInsert c
  if r.1.status = stCOMPLETED then r.2 else r.2.bump Reg.SYS_CFG_SKIP

/-- A preloaded tone map (R158): an index above 0x0FFF clamps. -/
def State.preMap (s : State) (e : List Byte) : State :=
  let r := s.mapWrite (min (leAt e 0 2) 0xFFF) (e.drop 4)
  if r.1 then r.2 else r.2.bump Reg.SYS_CFG_SKIP

/-- One step of a configuration (R74, R75). -/
def State.cfgStep (s : State) (c : CfgOp) : State :=
  match c with
  | .plain => s.bump Reg.SYS_CFG_APPLIED
  | .put a op v => s.cfgPut a op v
  | .nodes l => l.foldl State.preNode (s.bump Reg.SYS_CFG_APPLIED)
  | .maps l => l.foldl State.preMap (s.bump Reg.SYS_CFG_APPLIED)

/-! ### Stage 5: the boot copy (R84, R320) -/

/-- The check of R320 that a staged image fails first: its code in STG_REJ_WHY. -/
def State.stgCheck (s : State) (v : Verdict) : Option Nat :=
  if !s.imgFormat stagingBase then some 1
  else if !v.digestOk then some 2
  else if !s.imgSigned stagingBase v then some 3
  else if s.imgKind stagingBase = 1 then (if s.imgByte stagingBase 6 < s.otp.arb then some 4 else none)
  else if (s.cfgOps stagingBase).isNone then some 5
  else none

/-- The COPY_NEXT page of a sector reads 0x00 (R68). -/
def sectorDone (m : List Host.Cell) (k : Nat) : Bool := (nvmReads m (0x200 + 256 * k) 256).all (fun b => b = 0)

/-- What the cells from `base + lo` up to `base + hi` hold, by offset. -/
def cellsFrom (m : List Host.Cell) (base lo hi : Nat) : List Host.Cell :=
  (m.filter (fun c => base + lo ≤ c.1 && c.1 < base + hi)).map (fun c => (c.1 - base, c.2))

/-- The end of sector `k` in an image of `len` bytes. -/
def sectorEnd (len k : Nat) : Nat := min (0x10000 * k + 0x10000) len

/-- Erase and program sector `k` of a staged image of `len` bytes at `dst` (R84). -/
def copySector (dst len : Nat) (m : List Host.Cell) (k : Nat) : List Host.Cell :=
  let src := cellsFrom m stagingBase (0x10000 * k) (sectorEnd len k)
  let m := nvmErase m (dst + 0x10000 * k) 0x10000
  src.foldl (fun (m : List Host.Cell) c => nvmProg m (dst + c.1) c.2) m

/-- A range read back at the destination has the digest of the staged bytes, which passed their own check (R71, R320): it holds
the same bytes (log entry 3). -/
def readsBack (dst : Nat) (m : List Host.Cell) (lo hi : Nat) : Bool := cellsFrom m dst lo hi = cellsFrom m stagingBase lo hi

/-- The sectors of `l` in turn (R71, R84): each programmed, checked if the image is of format 2, then its COPY_NEXT page
programmed. What becomes of a copy one of whose checks fails the spec does not say: it ends there, with the page unwritten and
STG_STATE reading COPYING, so that the next boot copies the sector again (log entry 101, DESIGN CHOICE). -/
def copySectors (fmt dst len : Nat) (m : List Host.Cell) : List Nat → Bool × List Host.Cell
  | [] => (true, m)
  | k :: l =>
    let m' := copySector dst len m k
    if fmt = 2 && !readsBack dst m' (0x10000 * k) (sectorEnd len k) then (false, m')
    else copySectors fmt dst len (nvmProgs m' (0x200 + 256 * k) (List.replicate 256 0)) l

/-- The sectors that are still to be copied: from the first whose page is not 0x00 (R84). -/
def sectorsLeft (m : List Host.Cell) (n : Nat) : List Nat := (List.range n).dropWhile (sectorDone m)

/-- The staged image is copied (R84). An image of format 1 is checked whole, once every sector is written (R71). -/
def State.copyImage (s : State) : State :=
  let len := s.imgNum stagingBase 0xC 4
  let dst := if s.imgKind stagingBase = 1 then fwBase else cfgBase
  let t : State := s.setStg 0x1F
  let fmt := s.imgByte stagingBase 4
  let r := copySectors fmt dst len t.nvm.bytes (sectorsLeft t.nvm.bytes (ceilDiv len 0x10000))
  let t : State := { t with nvm.bytes := r.2 }
  if r.1 && (fmt = 2 || readsBack dst r.2 0 len) then (t.setStg 0x0F).wr Reg.SYS_STG_COPIED 1 else t

/-- STAGE5_STAGING_COPY (R84, R320): acts on a header in COMMITTED or COPYING alone. -/
def execStage5StagingCopy (v : Verdict) (s : State) : Host.Outcome State Fault Refusal :=
  if s.atStage 4 then
    let t : State := s.wr Reg.SYS_BOOT_STAGE 5
    if t.stgByte ≠ 0x3F && t.stgByte ≠ 0x1F then .next t
    else
      let t := if t.imgFormat stagingBase then t.wr Reg.SYS_STG_KIND (t.imgKind stagingBase) else t
      match t.stgCheck v with
      | some why => .next (((t.setStg 0x07).wr Reg.SYS_STG_REJ_WHY why).wr Reg.SYS_STG_REJ 1)
      | none => .next t.copyImage
  else .next s

/-! ### Stage 6: firmware, and the root (R286, R320, R321) -/

/-- Unwrap a root slot (R285): its tag checks under the K_slot of its number alone. -/
def unwrapRoot (slot : Option RootSlot) (puf : Option (BitVec 256)) (n : Nat) : Option (BitVec 256) :=
  match slot, puf with
  | some r, some p => if r.key = .slot p n then some r.root else none
  | _, _ => none

/-- The raw root of the present state (R281, R285), unwrapped under the PUF key where the state keeps it in a slot. -/
def State.rootOf (s : State) : Option (BitVec 256) :=
  match s.key.lc.toNat with
  | 1 => some Config.testRoot
  | 2 => unwrapRoot s.otp.provRoot s.key.pufKey 1
  | 3 => unwrapRoot s.otp.ownerRoot s.key.pufKey 3
  | 4 => unwrapRoot s.otp.rmaRoot s.key.pufKey 2
  | _ => none

/-- Slot 4 passes its tag check (R286, R330): it is written, and under the K_slot of number 4. -/
def State.slot4Checks (s : State) : Bool :=
  match s.otp.slot4, s.key.pufKey with
  | some a, some p => a.key = .slot p 4
  | _, _ => false

/-- KEY reconstructs the PUF key from the captured contents and the helper data, and unwraps the root and slot 4 (R286); the captured
contents are then discarded. A failure of the first two leaves no key, one of slot 4 touches attestation alone. -/
def State.unwrap (s : State) (pufOk slot4Ok : Bool) : State :=
  let s := { s with key.pufKey := if pufOk && s.key.captured then s.otp.helper else none, key.captured := false }
  if s.key.pufKey.isSome && s.rootOf.isSome then
    { s with key.rawRoot := s.rootOf, key.slot4Ok := slot4Ok && s.slot4Checks && s.key.lc ≠ 1 }
  else ({ s with key.pufKey := none }).wr Reg.KEY_KSTATE 4

/-- STAGE6_FW_VERIFY (R320, R321, R79): the active firmware is verified and the anti-rollback field advanced; then the PUF
key and the root. An RMA_AUTH or a SCRAP that was cut off past its commit point makes its transition here (R307). -/
def execStage6FwVerify (v : Verdict) (pufOk slot4Ok : Bool) (s : State) : Host.Outcome State Fault Refusal :=
  if s.atStage 5 then
    let t : State := s.wr Reg.SYS_BOOT_STAGE 6
    let arb := t.imgByte fwBase 6
    if !t.imgFormat fwBase || t.imgKind fwBase ≠ 1 || !v.digestOk || !t.imgSigned fwBase v then .next (t.halt 3)
    else if arb < t.otp.arb then .next (t.halt 4)
    else
      let t : State := { t with otp.arb := arb, sys.fwHeader := nvmReads t.nvm.bytes fwBase 64 }
      let t := (t.wr Reg.SYS_FW_ARB arb).wr Reg.SYS_FW_BUILD (t.imgNum fwBase 8 4)
      let t := t.unwrap pufOk slot4Ok
      match t.nvm.kuMove with
      | some b => .next (t.transition b)
      | none => .next t
  else .next s

/-! ### Stage 7: configuration and key source (R76, R80, R290, R291, R302, R332) -/

/-- The BOOT_ERR of the first check that the active configuration fails (R76, R320). -/
def State.cfgError (s : State) (v : Verdict) : Option Nat :=
  if !s.imgFormat cfgBase || s.imgKind cfgBase ≠ 2 then some 7
  else if !v.digestOk then some 5
  else if !s.imgSigned cfgBase v then some 6
  else if (s.cfgOps cfgBase).isNone then some 7
  else none

/-- The configuration is applied whole, or not at all (R76, R80). -/
def State.applyConfig (s : State) (v : Verdict) : State :=
  match s.cfgError v with
  | some e => s.wr Reg.SYS_BOOT_ERR e
  | none =>
    let ops := (s.cfgOps cfgBase).getD []
    let t : State := ops.foldl State.cfgStep s
    { t.wr Reg.SYS_CFG_BUILD (s.imgNum cfgBase 8 4) with sys.cfgHeader := nvmReads s.nvm.bytes cfgBase 64 }

/-- Service mode (R80, R286): a configuration check failed, or there is no key. -/
def State.toService (s : State) : Bool :=
  s.rd Reg.KEY_KSTATE = 4 || s.rd Reg.SYS_BOOT_ERR = 5 || s.rd Reg.SYS_BOOT_ERR = 6 || s.rd Reg.SYS_BOOT_ERR = 7

/-- KU_CTR fits the OTP counter; in TEST it is not compared (R290). -/
def State.ctrFits (s : State) (st : KeyStore) : Bool := s.key.lc = 1 || st.kuCtr = s.otp.kuCtr

/-- The copy of the greatest WSEQ (R290). -/
def bestCopy (l : List KeyCopy) : Option KeyCopy :=
  l.foldl (fun (m : Option KeyCopy) c =>
    match m with
    | some x => if x.wseq < c.wseq then some c else some x
    | none => some c) none

/-- No key source: KSTATE reads NO_KEYS, but PUF_FAIL stays (R286, R290). -/
def State.noKeys (s : State) : State :=
  let t : State := if s.rd Reg.KEY_KSTATE = 4 then s else s.wr Reg.KEY_KSTATE 2
  t.wr Reg.KEY_KEYS_LOST 1

/-- With VBAT_LOST set, the loss is a tamper event while the device was off, where VBAT_LOSS_TAMPER says so (R291). -/
def State.vbatTamper (s : State) : State :=
  if s.on Reg.SYS_VBAT_LOST && s.on Reg.KEY_VBAT_LOSS_TAMPER then
    { s.latchTamper 0 2 false with aon.store := KeyStore.empty }
  else s

/-- The source of the keys (R290, R311), once R291 has acted; whether there is one. Without the PUF key no copy's tag checks. -/
def State.pickSource (s : State) : Bool × State :=
  if s.aon.latch then (false, (s.wr Reg.SYS_TAMPER_SEEN 1).eraseCopies.noKeys)
  else if s.aon.store.good && s.ctrFits s.aon.store then (true, s)
  else
    match bestCopy (s.goodCopies.filter (fun c => s.ctrFits c.store)) with
    | some c => (true, { s.wr Reg.KEY_FROM_NVM 1 with aon.store := c.store })
    | none => (false, s.noKeys)

/-- The frame counter resumes at the block after the greatest one recorded (R302); past the last block nothing is left. -/
def State.resumeFc (s : State) : State :=
  let st := s.aon.store
  let b := match lastBlock s.nvm.ctrLog st.sgen st.epoch with
    | some r => r.block + 1
    | none => 0
  if 0xFFFF < b then ((s.wr Reg.KEY_FC_BLOCK 0xFFFF).wr Reg.KEY_FC_NEXT 0xFFFFFFFF).ev Reg.KEY_KEY_EVT 3 112
  else
    let t : State := (s.reserve st.sgen st.epoch b).wr Reg.KEY_FC_NEXT (b * 65536)
    if 0xF000 ≤ b then t.ev Reg.KEY_KEY_EVT 3 112 else t

/-- The keys are loaded (R290): READY with a network secret, NO_KEYS without; a failed PUF key makes neither. -/
def State.loadKeys (s : State) : State :=
  let p := s.pickSource
  let t : State := p.2
  if !p.1 || t.rd Reg.KEY_KSTATE = 4 then t
  else if t.aon.store.epoch = 0 then t.wr Reg.KEY_KSTATE 2
  else { (t.wr Reg.KEY_KSTATE 1).resumeFc with key.egress := t.aon.store.epoch }

/-- The next leaf (R332), and the most leaves that the resumption can have skipped. -/
def State.leafResume (s : State) : Nat × Nat :=
  let seg := s.otp.attSeg
  match lastBlock s.nvm.leafLog 0 0 with
  | some r => if r.block / 256 + 1 = seg then (256 * (r.block + 1), 255) else (65536 * seg, if seg = 0 then 0 else 65536)
  | none => (65536 * seg, if seg = 0 then 0 else 65536)

/-- Attestation resumes (R330, R332): not in TEST. How many leaves the resumption skips is not recorded: a free value below
its bound (log entry 1). -/
def State.resumeAtt (s : State) : State :=
  if s.key.lc = 1 then s
  else
    let n := s.leafResume.1
    let t : State := (s.wr Reg.KEY_ATT_NEXT n).wr Reg.KEY_ATT_LEFT (1048576 - n)
    let t := (t.bumpN Reg.KEY_ATT_WASTED (t.freeVal 32 % (s.leafResume.2 + 1))).tick
    t.wr Reg.KEY_ATT_READY (b2n (t.key.slot4Ok && t.otp.attRoot.isSome && t.nvm.cache))

/-- STAGE7_CONFIG_APPLY (R76, R80, R289 to R291, R302, R310, R332): the configuration, then the key source. SCRAP_ON_TAMPER acts, with
its configured value, on a latched event (R290). -/
def execStage7ConfigApply (v : Verdict) (s : State) : Host.Outcome State Fault Refusal :=
  if s.atStage 6 && !s.needsKeygen then
    let t : State := s.wr Reg.SYS_BOOT_STAGE 7
    let t := if t.rd Reg.KEY_KSTATE = 4 then t else t.applyConfig v
    let t : State := { t with nvm.lastCopy := (bestCopy t.nvm.copies).map (fun c => c.slot) }
    let t := t.vbatTamper
    if t.aon.latch && t.on Reg.KEY_SCRAP_ON_TAMPER && t.key.lc ≠ 0 && t.key.lc ≠ 5 then .next (t.transition 0b10000)
    else .next t.loadKeys.resumeAtt
  else .next s

/-! ### Stages 8 and 9 -/

/-- An address belongs to a group that holds RS fields. -/
def rsGroup (a : Nat) : Bool := (fieldsAt a).any (fun p => p.1.acc = .rs)

/-- STAGE8_SEAL (R74, R80, R85, R370): the bytes staged for RS groups are discarded; SEAL is set; BOOT_ID is drawn; service
mode begins where it is due. -/
def execStage8Seal (s : State) : Host.Outcome State Fault Refusal :=
  if s.atStage 7 then
    let t : State := { s with staged := s.staged.filter (fun p => !rsGroup p.1) }
    let t := ((t.wr Reg.SYS_SEAL 1).wr Reg.ETH_BOOT_ID (t.freeVal 64)).tick
    .next (t.wr Reg.SYS_BOOT_STAGE (if s.toService then 0xE else 8))
  else .next s

/-- The check of a group's ports at stage 9, whether or not the group is enabled (R115): its tuners are loaded, and a port that
fails is out of use until the next boot. -/
def State.portCheck (s : State) (portFault : BitVec 12) (g : Grp) : State :=
  let pf := bits portFault.toNat (4 * g.code) 4
  let s := s.setFe g { s.fe g with tuner := s.tunerCodes g }
  if pf = 0 then s else (s.wr (Reg.FE_PORT_FAULT g) pf).ev (Reg.FE_GRP_EVT g) 4 (32 + 8 * g.code)

/-- A group at stage 9 (R79, R91, R115): its ports checked; calibrated if enabled; one that does not lock is disabled. -/
def State.stage9Grp (s : State) (lock : BitVec 3) (portFault : BitVec 12) (g : Grp) : State :=
  let off := fun (t : State) => t.wr Reg.SYS_CAP_BANDS (clearBits (t.rd Reg.SYS_CAP_BANDS) (2 ^ g.code))
  let s := if s.runs g.isl then s.portCheck portFault g else s
  if !s.on (Reg.FE_GRP_EN g) || !s.runs g.isl then off s
  else
    let t : State := (s.wr (Reg.FE_CAL_TEMP g) (s.rd (Reg.FE_GRP_TEMP g))).bump (Reg.FE_CAL_COUNT g)
    let t := (t.setFe g { t.fe g with calAt := t.sys.uptime }).writeIqcal g 128
    if lock.getLsbD g.code then t.wr (Reg.FE_SYN_STATE g) 3
    else off ((t.wr (Reg.FE_SYN_STATE g) 4).ev (Reg.FE_GRP_EVT g) 0 (32 + 8 * g.code))

/-- STAGE9_SYNTH_CAL (R79, R91, R115): the three groups in parallel. -/
def execStage9SynthCal (lock : BitVec 3) (portFault : BitVec 12) (s : State) : Host.Outcome State Fault Refusal :=
  if s.atStage 8 then
    let t : State := s.wr Reg.SYS_BOOT_STAGE 9
    .next (((t.stage9Grp lock portFault .L).stage9Grp lock portFault .H).stage9Grp lock portFault .I)
  else .next s

end Sys2Proof.Machine
end

