-- ==== Sys2Proof/Machine/Dispatch.lean ====
section
/-!
DEFINITION. The dispatch: one arm for each command.
-/

namespace Sys2Proof.Machine

/-- What a command does to everything but the queue of pending commands. -/
def exec (i : Instr) (s : State) : Host.Outcome State Fault Refusal :=
  match i with
  | .regWrite addr v => Sys2Proof.Machine.execRegWrite addr v s
  | .groupCapture addr => Sys2Proof.Machine.execGroupCapture addr s
  | .handshakeTimeout isl => Sys2Proof.Machine.execHandshakeTimeout isl s
  | .fabTagCheckFail rcv snd tag => Sys2Proof.Machine.execFabTagCheckFail rcv snd tag s
  | .islandStateParity isl => Sys2Proof.Machine.execIslandStateParity isl s
  | .islandRestart isl => Sys2Proof.Machine.execIslandRestart isl s
  | .resumePublish => Sys2Proof.Machine.execResumePublish s
  | .recAck => Sys2Proof.Machine.execRecAck s
  | .fncPop => Sys2Proof.Machine.execFncPop s
  | .deviceFaultReset cause => Sys2Proof.Machine.execDeviceFaultReset cause s
  | .clockLoss which => Sys2Proof.Machine.execClockLoss which s
  | .clockReturnRestart => Sys2Proof.Machine.execClockReturnRestart s
  | .porstAssert => Sys2Proof.Machine.execPorstAssert s
  | .porstRise bootMode twinId => Sys2Proof.Machine.execPorstRise bootMode twinId s
  | .perstAssert => Sys2Proof.Machine.execPerstAssert s
  | .perstRelease => Sys2Proof.Machine.execPerstRelease s
  | .aonRetentionLoss => Sys2Proof.Machine.execAonRetentionLoss s
  | .dieTempUpdate t => Sys2Proof.Machine.execDieTempUpdate t s
  | .stage1TamperRead => Sys2Proof.Machine.execStage1TamperRead s
  | .stage2OtpRead => Sys2Proof.Machine.execStage2OtpRead s
  | .stage3Bist faults lbist durUs => Sys2Proof.Machine.execStage3Bist faults lbist durUs s
  | .stage4NvmProbe probeOk => Sys2Proof.Machine.execStage4NvmProbe probeOk s
  | .stage5StagingCopy v => Sys2Proof.Machine.execStage5StagingCopy v s
  | .stage6FwVerify v pufOk slot4Ok => Sys2Proof.Machine.execStage6FwVerify v pufOk slot4Ok s
  | .stage7ConfigApply v => Sys2Proof.Machine.execStage7ConfigApply v s
  | .stage8Seal => Sys2Proof.Machine.execStage8Seal s
  | .stage9SynthCal lock portFault => Sys2Proof.Machine.execStage9SynthCal lock portFault s
  | .stage10TimeAcq => Sys2Proof.Machine.execStage10TimeAcq s
  | .stage11StartBeacons => Sys2Proof.Machine.execStage11StartBeacons s
  | .meshGo => Sys2Proof.Machine.execMeshGo s
  | .attKeygen => Sys2Proof.Machine.execAttKeygen s
  | .attCacheRebuildDone => Sys2Proof.Machine.execAttCacheRebuildDone s
  | .calCmdGap g => Sys2Proof.Machine.execCalCmdGap g s
  | .calCmdNow g => Sys2Proof.Machine.execCalCmdNow g s
  | .grpTempUpdate g t => Sys2Proof.Machine.execGrpTempUpdate g t s
  | .calForceTimeout g => Sys2Proof.Machine.execCalForceTimeout g s
  | .calibrationStart g => Sys2Proof.Machine.execCalibrationStart g s
  | .calSettling g => Sys2Proof.Machine.execCalSettling g s
  | .synthLockCheck g lock => Sys2Proof.Machine.execSynthLockCheck g lock s
  | .lossOfLock g => Sys2Proof.Machine.execLossOfLock g s
  | .burstBegin g => Sys2Proof.Machine.execBurstBegin g s
  | .frameDue g => Sys2Proof.Machine.execFrameDue g s
  | .frameJoin g => Sys2Proof.Machine.execFrameJoin g s
  | .grantCheck g grant => Sys2Proof.Machine.execGrantCheck g grant s
  | .grantLow g => Sys2Proof.Machine.execGrantLow g s
  | .firstSymbol g => Sys2Proof.Machine.execFirstSymbol g s
  | .lastSymbolEnd g => Sys2Proof.Machine.execLastSymbolEnd g s
  | .burstEnd g => Sys2Proof.Machine.execBurstEnd g s
  | .rlMismatch g rl => Sys2Proof.Machine.execRlMismatch g rl s
  | .tuneGo g port => Sys2Proof.Machine.execTuneGo g port s
  | .tuneSearchStart g => Sys2Proof.Machine.execTuneSearchStart g s
  | .tuneSearchEnd g grant coarse fine low => Sys2Proof.Machine.execTuneSearchEnd g grant coarse fine low s
  | .planEntWrite v => Sys2Proof.Machine.execPlanEntWrite v s
  | .capBoundary => Sys2Proof.Machine.execCapBoundary s
  | .scanDone => Sys2Proof.Machine.execScanDone s
  | .detection ent opt metric => Sys2Proof.Machine.execDetection ent opt metric s
  | .edWindow ent power => Sys2Proof.Machine.execEdWindow ent power s
  | .qualifierEnd ent opt metric => Sys2Proof.Machine.execQualifierEnd ent opt metric s
  | .phrReport lane first rest => Sys2Proof.Machine.execPhrReport lane first rest s
  | .acqTimeout lane => Sys2Proof.Machine.execAcqTimeout lane s
  | .receptionEnd lane r => Sys2Proof.Machine.execReceptionEnd lane r s
  | .ulRelease => Sys2Proof.Machine.execUlRelease s
  | .nfWindowDone ent power => Sys2Proof.Machine.execNfWindowDone ent power s
  | .phyModulate => Sys2Proof.Machine.execPhyModulate s
  | .tmapRead => Sys2Proof.Machine.execTmapRead s
  | .tmapWrite => Sys2Proof.Machine.execTmapWrite s
  | .tmapFree => Sys2Proof.Machine.execTmapFree s
  | .tonemapTableWrite => Sys2Proof.Machine.execTonemapTableWrite s
  | .ntbLookup => Sys2Proof.Machine.execNtbLookup s
  | .tblInsert => Sys2Proof.Machine.execTblInsert s
  | .tblWrite => Sys2Proof.Machine.execTblWrite s
  | .tblRead => Sys2Proof.Machine.execTblRead s
  | .tblRemove => Sys2Proof.Machine.execTblRemove s
  | .tblLock => Sys2Proof.Machine.execTblLock s
  | .tblLookup => Sys2Proof.Machine.execTblLookup s
  | .purgeEnd => Sys2Proof.Machine.execPurgeEnd s
  | .stashDrainTick => Sys2Proof.Machine.execStashDrainTick s
  | .sweepVisit => Sys2Proof.Machine.execSweepVisit s
  | .compareRemove => Sys2Proof.Machine.execCompareRemove s
  | .lockTimeout handle => Sys2Proof.Machine.execLockTimeout handle s
  | .bucketProcess => Sys2Proof.Machine.execBucketProcess s
  | .overflowMove => Sys2Proof.Machine.execOverflowMove s
  | .hourlyContactClamp => Sys2Proof.Machine.execHourlyContactClamp s
  | .predCmd => Sys2Proof.Machine.execPredCmd s
  | .ulClassify => Sys2Proof.Machine.execUlClassify s
  | .joinInsert => Sys2Proof.Machine.execJoinInsert s
  | .ackWindowClose handle => Sys2Proof.Machine.execAckWindowClose handle s
  | .beaconDispatch slot => Sys2Proof.Machine.execBeaconDispatch slot s
  | .mcBlockDispatch sess => Sys2Proof.Machine.execMcBlockDispatch sess s
  | .abtFrame => Sys2Proof.Machine.execAbtFrame s
  | .abtNode => Sys2Proof.Machine.execAbtNode s
  | .abtTable => Sys2Proof.Machine.execAbtTable s
  | .txDescFetch ring desc buf => Sys2Proof.Machine.execTxDescFetch ring desc buf s
  | .admitRetry => Sys2Proof.Machine.execAdmitRetry s
  | .tblDescFetch rec => Sys2Proof.Machine.execTblDescFetch rec s
  | .rxDeliver ring buf => Sys2Proof.Machine.execRxDeliver ring buf s
  | .txCompletionWrite ring => Sys2Proof.Machine.execTxCompletionWrite ring s
  | .tevPop => Sys2Proof.Machine.execTevPop s
  | .sevPop => Sys2Proof.Machine.execSevPop s
  | .carafeDoubleError cell mem => Sys2Proof.Machine.execCarafeDoubleError cell mem s
  | .keyUlCheck => Sys2Proof.Machine.execKeyUlCheck s
  | .keySecure => Sys2Proof.Machine.execKeySecure s
  | .epochCmd => Sys2Proof.Machine.execEpochCmd s
  | .epochComplete => Sys2Proof.Machine.execEpochComplete s
  | .graceExpire => Sys2Proof.Machine.execGraceExpire s
  | .kuDeploy => Sys2Proof.Machine.execKuDeploy s
  | .kuKeys => Sys2Proof.Machine.execKuKeys s
  | .kuRmaAuth => Sys2Proof.Machine.execKuRmaAuth s
  | .kuScrap => Sys2Proof.Machine.execKuScrap s
  | .tamperEvent src keyOp => Sys2Proof.Machine.execTamperEvent src keyOp s
  | .sessionOpen => Sys2Proof.Machine.execSessionOpen s
  | .sessionData readBackOk => Sys2Proof.Machine.execSessionData readBackOk s
  | .sessionCommit => Sys2Proof.Machine.execSessionCommit s
  | .sessionAbort => Sys2Proof.Machine.execSessionAbort s
  | .attest => Sys2Proof.Machine.execAttest s
  | .attSignDone => Sys2Proof.Machine.execAttSignDone s
  | .sessionIdleExpire => Sys2Proof.Machine.execSessionIdleExpire s
  | .updKill => Sys2Proof.Machine.execUpdKill s
  | .attTokenTick => Sys2Proof.Machine.execAttTokenTick s
  | .steerUpdate => Sys2Proof.Machine.execSteerUpdate s
  | .timeAcqExpire => Sys2Proof.Machine.execTimeAcqExpire s
  | .ptpAnnounceRx d h a => Sys2Proof.Machine.execPtpAnnounceRx d h a s
  | .ptpSyncRx d h twoStep t1 => Sys2Proof.Machine.execPtpSyncRx d h twoStep t1 s
  | .ptpFollowUpRx d h t1 => Sys2Proof.Machine.execPtpFollowUpRx d h t1 s
  | .followUpTimeout d => Sys2Proof.Machine.execFollowUpTimeout d s
  | .delayReqSend d => Sys2Proof.Machine.execDelayReqSend d s
  | .ptpDelayRespRx d h t4 freq span => Sys2Proof.Machine.execPtpDelayRespRx d h t4 freq span s
  | .syncTimeout d => Sys2Proof.Machine.execSyncTimeout d s
  | .announceTimeout d port => Sys2Proof.Machine.execAnnounceTimeout d port s
  | .ppsEdge => Sys2Proof.Machine.execPpsEdge s
  | .spineTapError isl => Sys2Proof.Machine.execSpineTapError isl s
  | .linkChange p up los => Sys2Proof.Machine.execLinkChange p up los s
  | .bridgeRx p f => Sys2Proof.Machine.execBridgeRx p f s
  | .reassemblyTimeout id => Sys2Proof.Machine.execReassemblyTimeout id s
  | .datagramRx d => Sys2Proof.Machine.execDatagramRx d s
  | .mgtSession => Sys2Proof.Machine.execMgtSession s
  | .mgtKeyUpdate => Sys2Proof.Machine.execMgtKeyUpdate s
  | .mgtStatus => Sys2Proof.Machine.execMgtStatus s
  | .tunDown => Sys2Proof.Machine.execTunDown s
  | .tunTable => Sys2Proof.Machine.execTunTable s
  | .tunAckRx => Sys2Proof.Machine.execTunAckRx s
  | .tunAckSend => Sys2Proof.Machine.execTunAckSend s
  | .tunDrain => Sys2Proof.Machine.execTunDrain s
  | .tunRtoExpire => Sys2Proof.Machine.execTunRtoExpire s
  | .doorbell ring tbl prod => Sys2Proof.Machine.execDoorbell ring tbl prod s
  | .ringEnWrite en => Sys2Proof.Machine.execRingEnWrite en s
  | .dmaError ring => Sys2Proof.Machine.execDmaError ring s
  | .mbxSession r => Sys2Proof.Machine.execMbxSession r s
  | .mbxKeyUpdate m => Sys2Proof.Machine.execMbxKeyUpdate m s
  | .heartbeatSend => Sys2Proof.Machine.execHeartbeatSend s
  | .heartbeatRx hb => Sys2Proof.Machine.execHeartbeatRx hb s
  | .heartbeatMiss held => Sys2Proof.Machine.execHeartbeatMiss held s
  | .xlockReleaseSensed => Sys2Proof.Machine.execXlockReleaseSensed s
  | .claimCheck low => Sys2Proof.Machine.execClaimCheck low s
  | .takeover us => Sys2Proof.Machine.execTakeover us s
  | .mirrorCut => Sys2Proof.Machine.execMirrorCut s
  | .mirrorCycleApply c => Sys2Proof.Machine.execMirrorCycleApply c s
  | .syncDone => Sys2Proof.Machine.execSyncDone s
  | .twSwap => Sys2Proof.Machine.execTwSwap s
  | .twCancel => Sys2Proof.Machine.execTwCancel s
  | .swapArmTimeout => Sys2Proof.Machine.execSwapArmTimeout s
  | .relayRecord r => Sys2Proof.Machine.execRelayRecord r s
  | .eventLatch src => Sys2Proof.Machine.execEventLatch src s
  | .srcEnWrite src en => Sys2Proof.Machine.execSrcEnWrite src en s
  | .pendClear c => Sys2Proof.Machine.execPendClear c s
  | .tgtWrite src tgt => Sys2Proof.Machine.execTgtWrite src tgt s
  | .replay => Sys2Proof.Machine.execReplay s
  | .swi bits => Sys2Proof.Machine.execSwi bits s
  | .bistMemory grps faults => Sys2Proof.Machine.execBistMemory grps faults s
  | .bistLogic grps lbist => Sys2Proof.Machine.execBistLogic grps lbist s
  | .bistPercPass => Sys2Proof.Machine.execBistPercPass s
  | .fuse => Sys2Proof.Machine.execFuse s
  | .percSlice faults hurt => Sys2Proof.Machine.execPercSlice faults hurt s
  | .percCutoff => Sys2Proof.Machine.execPercCutoff s
  | .aonSwitchOver io4 vbatOk => Sys2Proof.Machine.execAonSwitchOver io4 vbatOk s
  | .rcRead addr => Sys2Proof.Machine.execRcRead addr s
  | .pcieLinkTrained speed width => Sys2Proof.Machine.execPcieLinkTrained speed width s
  | .reqRise g => Sys2Proof.Machine.execReqRise g s

end Sys2Proof.Machine
end

