-- ==== Sys2Proof/Safety.lean ====
section
/-!
DEFINITION. What the statements are phrased in: the canonical forms of the sparse maps, a host write that is accepted,
the parts of the state.
-/

namespace Sys2Proof.Machine

/-- Registers listed once each, in rising order. -/
def State.regsOk (s : State) : Bool := mwf s.regs

/-- The NVM bytes in canonical form. -/
def State.nvmOk (s : State) : Bool := Memory.wf s.nvm.bytes

/-- The state that an outcome answers; `s` where it answers none. -/
def Outcome.get (o : Host.Outcome State Fault Refusal) (s : State) : State :=
  match o with
  | .next t => t
  | _ => s

/-- A host write to a register of island `isl` takes effect: the link is up (R462), SEAL is set (R85), no register fence is in
force (R421), the island and HST run (R34). -/
def State.hostMay (s : State) (isl : Isl) : Bool :=
  s.sys.linkUp && s.live && !s.on Reg.SYS_REGW_FENCED && s.runs isl && s.runs .HST

/-- The table holds entry `e` under handle `h` at location `loc`, with no parity error in its slot or its directory record
(R180, R196, R197). -/
def State.hasEntry (s : State) (h : BitVec 18) (loc : Nat) (e : Entry) : Prop :=
  loc < 2 ^ 19 ∧ mget s.ntb.dir h.toNat = some ⟨BitVec.ofNat 19 loc, false⟩ ∧
    mget s.ntb.slots loc = some { entry := e, bad := false, perr := 0 } ∧ e.handle = h

/-- A probe for an EUI-64 meets no parity error, and `r` names the one location of it that holds the EUI-64 and is not BAD,
if there is one (R178). -/
def State.probeFinds (s : State) (eui : Word64) (r : Option Nat) : Prop :=
  (∀ k ∈ s.probeLocs eui, ∀ sl, mget s.ntb.slots k = some sl →
    sl.perr = 0 ∧ (sl.bad = false → sl.entry.eui = eui → r = some k)) ∧
  ∀ k, r = some k → k ∈ s.probeLocs eui ∧ ∃ sl, mget s.ntb.slots k = some sl ∧ sl.bad = false ∧ sl.entry.eui = eui

/-- A state after a host write of `n` bytes has taken its numbers (R421). -/
def State.numbered (s : State) (n : Nat) : State := { s with sys.regW := s.sys.regW + BitVec.ofNat 16 n }

/-! ### The parts of the state -/

/-- The parts of the state other than the queue of commands. -/
inductive Part where
  | regs | staged | captured | hostData | sys | irq | feL | feH | feI
  | grn | phy | ntb | sch | car | hst | key | tim | eth
  | twn | tst | aon | otp | nvm | free | out
deriving DecidableEq, Repr

/-- Two states agree on a part. -/
def Part.same (p : Part) (s t : State) : Prop :=
  match p with
  | .regs => t.regs = s.regs
  | .staged => t.staged = s.staged
  | .captured => t.captured = s.captured
  | .hostData => t.hostData = s.hostData
  | .sys => t.sys = s.sys
  | .irq => t.irq = s.irq
  | .feL => t.feL = s.feL
  | .feH => t.feH = s.feH
  | .feI => t.feI = s.feI
  | .grn => t.grn = s.grn
  | .phy => t.phy = s.phy
  | .ntb => t.ntb = s.ntb
  | .sch => t.sch = s.sch
  | .car => t.car = s.car
  | .hst => t.hst = s.hst
  | .key => t.key = s.key
  | .tim => t.tim = s.tim
  | .eth => t.eth = s.eth
  | .twn => t.twn = s.twn
  | .tst => t.tst = s.tst
  | .aon => t.aon = s.aon
  | .otp => t.otp = s.otp
  | .nvm => t.nvm = s.nvm
  | .free => t.free = s.free
  | .out => t.out = s.out

/-- What a reset clears: every part but the always-on domain, OTP, the NVM, the count of free values and what was driven
outside (R58). -/
def Part.volatile : List Part :=
  [.regs, .staged, .captured, .hostData, .sys, .irq, .feL, .feH, .feI, .grn,
   .phy, .ntb, .sch, .car, .hst, .key, .tim, .eth, .twn, .tst]

/-- The parts that a command may change. Every other part is as it was before (statement Frame). -/
def touches (c : Instr) : List Part :=
  match c with
  | .regWrite _ _ => [.regs, .staged, .sys, .irq, .feL, .feH, .feI, .grn, .phy, .ntb, .sch, .car, .hst, .key, .eth,
      .twn, .tst, .aon, .otp, .nvm, .free, .out]
  | .groupCapture _ => [.regs, .captured, .hostData, .sys, .irq, .car]
  | .handshakeTimeout _ => Part.volatile ++ [.nvm, .free]
  | .fabTagCheckFail _ _ _ => Part.volatile ++ [.nvm, .free]
  | .islandStateParity _ => Part.volatile ++ [.nvm, .free]
  | .islandRestart _ => [.regs, .sys, .irq, .feL, .feH, .feI, .grn, .phy, .ntb, .sch, .car, .hst, .key, .tim, .eth,
      .free, .out]
  | .resumePublish => [.regs, .sys, .irq]
  | .recAck => [.regs, .sys]
  | .fncPop => [.regs, .captured, .hostData, .sys]
  | .deviceFaultReset _ => Part.volatile
  | .clockLoss _ => Part.volatile
  | .clockReturnRestart => [.regs, .sys]
  | .porstAssert => Part.volatile
  | .porstRise _ _ => [.regs, .sys]
  | .perstAssert => [.regs, .sys, .irq, .ntb, .car, .hst, .eth]
  | .perstRelease => [.sys]
  | .aonRetentionLoss => [.aon]
  | .dieTempUpdate _ => Part.volatile ++ [.free]
  | .stage1TamperRead => [.regs, .sys, .irq, .aon, .free, .out]
  | .stage2OtpRead => Part.volatile
  | .stage3Bist _ _ _ => [.regs, .sys, .irq, .tst]
  | .stage4NvmProbe _ => [.regs, .sys, .irq, .tst, .nvm]
  | .stage5StagingCopy _ => [.regs, .nvm]
  | .stage6FwVerify _ _ _ => Part.volatile ++ [.aon, .otp, .nvm]
  | .stage7ConfigApply _ => Part.volatile ++ [.aon, .otp, .nvm, .free, .out]
  | .stage8Seal => [.regs, .staged, .free]
  | .stage9SynthCal _ _ => [.regs, .sys, .irq, .feL, .feH, .feI, .free]
  | .stage10TimeAcq => [.regs]
  | .stage11StartBeacons => [.regs, .sys]
  | .meshGo => [.regs, .sys]
  | .attKeygen => [.key, .otp, .nvm, .free]
  | .attCacheRebuildDone => [.regs, .nvm]
  | .calCmdGap _ => [.regs, .sys, .feL, .feH, .feI]
  | .calCmdNow _ => [.regs, .sys, .feL, .feH, .feI]
  | .grpTempUpdate _ _ => [.regs, .feL, .feH, .feI]
  | .calForceTimeout _ => [.regs, .sys, .irq, .feL, .feH, .feI]
  | .calibrationStart _ => [.regs, .feL, .feH, .feI, .grn]
  | .calSettling _ => [.regs]
  | .synthLockCheck _ _ => [.regs, .sys, .irq, .free]
  | .lossOfLock _ => [.regs, .sys, .irq, .feL, .feH, .feI, .grn, .ntb, .sch, .car, .hst, .free]
  | .burstBegin _ => [.regs, .sys, .irq, .feL, .feH, .feI, .grn, .ntb, .sch, .car, .hst, .free]
  | .frameDue _ => [.regs, .sys, .irq, .feL, .feH, .feI, .ntb, .sch, .car, .hst, .free]
  | .frameJoin _ => [.regs, .sys, .irq, .feL, .feH, .feI, .ntb, .sch, .car, .hst, .free]
  | .grantCheck _ _ => [.regs, .sys, .irq, .feL, .feH, .feI, .ntb, .sch, .car, .hst, .key, .free]
  | .grantLow _ => [.regs, .sys, .irq, .feL, .feH, .feI, .ntb, .sch, .car, .hst, .free]
  | .firstSymbol _ => [.regs, .sys, .irq, .feL, .feH, .feI, .sch, .car, .hst]
  | .lastSymbolEnd _ => [.regs, .sys, .irq, .feL, .feH, .feI, .ntb, .sch, .car, .free]
  | .burstEnd _ => [.feL, .feH, .feI]
  | .rlMismatch _ _ => [.regs, .sys, .irq, .feL, .feH, .feI, .ntb, .sch, .car, .hst, .free]
  | .tuneGo _ _ => [.regs, .sys, .feL, .feH, .feI]
  | .tuneSearchStart _ => [.regs, .sys, .irq, .feL, .feH, .feI, .grn, .ntb, .car, .free]
  | .tuneSearchEnd _ _ _ _ _ => [.regs, .sys, .irq, .feL, .feH, .feI, .ntb, .car, .free]
  | .planEntWrite _ => [.regs, .staged, .sys, .grn]
  | .capBoundary => [.regs, .sys, .irq, .feL, .feH, .feI, .grn, .phy, .ntb, .sch, .car, .hst, .key, .twn, .free]
  | .scanDone => [.regs, .sys, .irq, .sch]
  | .detection _ _ _ => [.regs, .sys, .irq, .grn]
  | .edWindow _ _ => [.grn]
  | .qualifierEnd _ _ _ => [.regs, .sys, .irq, .grn]
  | .phrReport _ _ _ => [.regs, .grn]
  | .acqTimeout _ => [.regs, .grn]
  | .receptionEnd _ _ => [.regs, .sys, .irq, .feL, .feH, .feI, .grn, .phy, .ntb, .sch, .car, .hst, .free]
  | .ulRelease => [.phy, .ntb]
  | .nfWindowDone _ _ => [.grn]
  | .phyModulate => [.regs, .sys, .irq, .feL, .feH, .feI, .phy, .ntb, .sch, .car, .hst, .key, .free]
  | .tmapRead => [.regs, .sys, .phy]
  | .tmapWrite => [.regs, .sys, .phy]
  | .tmapFree => [.regs, .sys, .phy]
  | .tonemapTableWrite => [.regs, .sys, .irq, .phy, .ntb, .car, .free]
  | .ntbLookup => [.regs, .sys, .irq, .phy, .ntb, .car, .key, .free]
  | .tblInsert => [.regs, .sys, .irq, .phy, .ntb, .car, .eth, .free, .out]
  | .tblWrite => [.regs, .sys, .irq, .phy, .ntb, .sch, .car, .eth, .free, .out]
  | .tblRead => [.regs, .sys, .irq, .ntb, .car, .eth, .free, .out]
  | .tblRemove => [.regs, .sys, .irq, .phy, .ntb, .car, .hst, .eth, .free, .out]
  | .tblLock => [.regs, .sys, .irq, .ntb, .car, .eth, .free, .out]
  | .tblLookup => [.regs, .sys, .irq, .ntb, .car, .eth, .free, .out]
  | .purgeEnd => [.regs, .sys, .irq, .car, .hst]
  | .stashDrainTick => [.regs, .sys, .irq, .ntb, .car, .free]
  | .sweepVisit => [.regs, .sys, .irq, .ntb, .car, .free]
  | .compareRemove => [.regs, .sys, .irq, .phy, .ntb, .car, .free]
  | .lockTimeout _ => [.regs, .sys, .irq, .ntb, .car, .free]
  | .bucketProcess => [.regs, .sys, .irq, .feL, .feH, .feI, .ntb, .sch, .car, .hst, .key, .free]
  | .overflowMove => [.sch]
  | .hourlyContactClamp => [.regs, .sys, .irq, .ntb, .car, .free]
  | .predCmd => [.regs, .sys, .irq, .ntb, .sch, .car, .free]
  | .ulClassify => [.regs, .sys, .irq, .feL, .feH, .feI, .phy, .ntb, .sch, .car, .hst, .key, .free]
  | .joinInsert => [.regs, .sys, .irq, .phy, .ntb, .sch, .car, .free]
  | .ackWindowClose _ => [.regs, .sys, .irq, .ntb, .sch, .car, .hst, .free]
  | .beaconDispatch _ => [.regs, .sys, .irq, .sch, .car, .hst, .key, .free]
  | .mcBlockDispatch _ => [.regs, .sch, .car, .key]
  | .abtFrame => [.regs, .sys, .irq, .feL, .feH, .feI, .phy, .ntb, .sch, .car, .hst, .key, .eth, .free, .out]
  | .abtNode => [.regs, .sys, .irq, .feL, .feH, .feI, .phy, .ntb, .sch, .car, .hst, .key, .eth, .free, .out]
  | .abtTable => [.regs, .sys, .irq, .feL, .feH, .feI, .phy, .ntb, .sch, .car, .hst, .key, .eth, .free, .out]
  | .txDescFetch _ _ _ => [.regs, .sys, .irq, .ntb, .sch, .car, .hst, .eth, .free]
  | .admitRetry => [.regs, .sys, .irq, .ntb, .sch, .car, .hst, .free]
  | .tblDescFetch _ => [.regs, .sys, .irq, .ntb, .eth, .out]
  | .rxDeliver _ _ => [.regs, .sys, .irq, .car, .hst, .out]
  | .txCompletionWrite _ => [.regs, .sys, .irq, .car, .hst, .eth, .out]
  | .tevPop => [.regs, .captured, .hostData, .sys, .irq, .car]
  | .sevPop => [.regs, .captured, .hostData, .sys, .irq, .car]
  | .carafeDoubleError _ _ => Part.volatile ++ [.nvm, .free]
  | .keyUlCheck => [.regs, .feL, .feH, .feI, .phy, .sch, .key]
  | .keySecure => [.regs, .sys, .irq, .feL, .feH, .feI, .phy, .ntb, .sch, .car, .hst, .key, .nvm, .free]
  | .epochCmd => [.regs, .sys, .key, .aon, .nvm]
  | .epochComplete => [.regs, .sys, .irq, .key]
  | .graceExpire => [.key]
  | .kuDeploy => Part.volatile ++ [.aon, .otp, .nvm, .free, .out]
  | .kuKeys => [.regs, .sys, .irq, .car, .hst, .key, .eth, .aon, .otp, .nvm, .free, .out]
  | .kuRmaAuth => Part.volatile ++ [.aon, .otp, .nvm, .free, .out]
  | .kuScrap => Part.volatile ++ [.aon, .otp, .nvm, .free, .out]
  | .tamperEvent _ _ => Part.volatile ++ [.aon, .otp, .nvm, .free, .out]
  | .sessionOpen => [.regs, .sys, .irq, .car, .hst, .eth, .nvm, .free, .out]
  | .sessionData _ => [.regs, .sys, .irq, .car, .hst, .eth, .nvm, .free, .out]
  | .sessionCommit => [.regs, .sys, .irq, .car, .hst, .eth, .nvm, .free, .out]
  | .sessionAbort => [.regs, .sys, .irq, .car, .hst, .eth, .free, .out]
  | .attest => [.regs, .sys, .irq, .car, .hst, .key, .eth, .otp, .nvm, .free, .out]
  | .attSignDone => [.regs, .sys, .irq, .car, .hst, .key, .eth, .free, .out]
  | .sessionIdleExpire => [.regs, .sys, .irq]
  | .updKill => [.regs, .sys, .irq]
  | .attTokenTick => [.regs]
  | .steerUpdate => [.regs, .sys, .irq, .grn, .ntb, .sch, .car, .tim, .twn, .free]
  | .timeAcqExpire => [.regs, .sys, .irq, .grn, .ntb, .sch, .car, .tim, .twn, .free]
  | .ptpAnnounceRx _ _ _ => [.regs, .sys, .irq, .tim]
  | .ptpSyncRx _ _ _ _ => [.regs, .tim]
  | .ptpFollowUpRx _ _ _ => [.regs, .tim]
  | .followUpTimeout _ => [.tim]
  | .delayReqSend _ => [.tim, .out]
  | .ptpDelayRespRx _ _ _ _ _ => [.regs, .sys, .irq, .tim]
  | .syncTimeout _ => [.regs, .sys, .irq, .tim]
  | .announceTimeout _ _ => [.regs, .sys, .irq, .tim]
  | .ppsEdge => [.out]
  | .spineTapError _ => Part.volatile ++ [.nvm, .free]
  | .linkChange _ _ _ => [.regs, .sys, .irq]
  | .bridgeRx _ _ => [.regs, .sys, .irq, .eth, .out]
  | .reassemblyTimeout _ => [.regs, .eth]
  | .datagramRx _ => [.regs, .sys, .irq, .car, .eth, .free, .out]
  | .mgtSession => [.regs, .sys, .irq, .car, .hst, .eth, .free, .out]
  | .mgtKeyUpdate => [.regs, .sys, .irq, .car, .hst, .key, .eth, .free, .out]
  | .mgtStatus => [.regs, .sys, .irq, .car, .eth, .free, .out]
  | .tunDown => [.regs, .sys, .irq, .ntb, .sch, .car, .hst, .eth, .free]
  | .tunTable => [.regs, .sys, .irq, .ntb, .car, .eth, .out]
  | .tunAckRx => [.regs, .sys, .irq, .car, .eth]
  | .tunAckSend => [.eth, .out]
  | .tunDrain => [.regs, .sys, .irq, .car, .eth, .free, .out]
  | .tunRtoExpire => [.regs, .sys, .irq, .eth, .out]
  | .doorbell _ _ _ => [.regs, .staged, .sys]
  | .ringEnWrite _ => [.regs, .sys, .hst]
  | .dmaError _ => [.regs, .sys, .irq]
  | .mbxSession _ => [.regs, .sys, .irq, .car, .hst, .eth, .free, .out]
  | .mbxKeyUpdate _ => [.regs, .sys, .irq, .car, .hst, .key, .eth, .free, .out]
  | .heartbeatSend => [.regs, .sys, .irq, .feL, .feH, .feI, .grn, .phy, .ntb, .sch, .car, .hst, .twn, .free, .out]
  | .heartbeatRx _ => [.regs, .sys, .irq, .feL, .feH, .feI, .grn, .phy, .ntb, .sch, .car, .hst, .twn, .free]
  | .heartbeatMiss _ => [.regs, .sys, .irq, .grn, .twn]
  | .xlockReleaseSensed => [.regs, .twn]
  | .claimCheck _ => [.regs, .twn]
  | .takeover _ => [.regs, .sys, .irq, .ntb, .sch, .car, .hst, .twn, .free]
  | .mirrorCut => [.regs, .sys, .irq, .feL, .feH, .feI, .grn, .phy, .ntb, .sch, .car, .hst, .twn, .free, .out]
  | .mirrorCycleApply _ => [.regs, .sys, .irq, .feL, .feH, .feI, .grn, .phy, .ntb, .sch, .car, .hst, .twn, .free]
  | .syncDone => [.regs, .sys, .irq]
  | .twSwap => [.regs, .sys, .twn]
  | .twCancel => [.regs, .sys, .twn]
  | .swapArmTimeout => [.regs, .twn]
  | .relayRecord _ => [.regs, .sys, .irq, .car, .hst, .eth, .free, .out]
  | .eventLatch _ => [.regs, .irq, .out]
  | .srcEnWrite _ _ => [.regs, .sys, .irq, .out]
  | .pendClear _ => [.regs, .sys, .irq, .out]
  | .tgtWrite _ _ => [.regs, .sys, .irq, .out]
  | .replay => [.regs, .sys, .irq, .out]
  | .swi _ => [.regs, .sys, .irq]
  | .bistMemory _ _ => [.regs, .sys, .irq, .tst, .nvm]
  | .bistLogic _ _ => [.regs, .sys, .irq]
  | .bistPercPass => [.regs, .sys, .tst]
  | .fuse => [.regs, .sys, .otp]
  | .percSlice _ _ => [.regs, .sys, .irq, .phy, .ntb, .car, .tst, .nvm]
  | .percCutoff => [.regs, .sys, .irq, .tst]
  | .aonSwitchOver _ _ => [.regs]
  | .rcRead _ => [.regs, .captured, .hostData, .sys, .irq, .car]
  | .pcieLinkTrained _ _ => [.regs, .sys, .irq, .ntb, .out]
  | .reqRise _ => [.feL, .feH, .feI]

/-! ### OTP -/

/-- `b` is `a` with bits blown or fields burnt, and nothing taken back: the life-cycle words, the anti-rollback field, the
attestation segment, the repairs, the key-update counter and what is burnt once (R283, R285, R307, R321, R330, R332, R452). -/
def Otp.rose (a b : Otp) : Prop :=
  a.lc0 ||| b.lc0 = b.lc0 ∧ a.lc1 ||| b.lc1 = b.lc1 ∧ a.lc2 ||| b.lc2 = b.lc2 ∧ a.arb ≤ b.arb ∧ a.attSeg ≤ b.attSeg ∧ a.kuCtr ≤ b.kuCtr ∧
    a.repairs <+: b.repairs ∧ (∀ x, a.slot4 = some x → b.slot4 = some x) ∧
    (∀ x, a.attRoot = some x → b.attRoot = some x) ∧ (∀ x, a.ownerRoot = some x → b.ownerRoot = some x) ∧
    (∀ x, a.ownerPub = some x → b.ownerPub = some x) ∧ b.dieId = a.dieId ∧ b.devEui = a.devEui ∧ b.salt0 = a.salt0 ∧
    b.salt1 = a.salt1 ∧ b.provRoot = a.provRoot ∧ b.rmaRoot = a.rmaRoot ∧
    b.helper = a.helper ∧ (a.ownerSet ≠ 0 → b.ownerSet = a.ownerSet)

end Sys2Proof.Machine
end

