-- ==== Sys2Proof/Certificates/Slice0/Obligations.lean ====
section
/-!
DEFINITION. The statements for the provers, one definition each. A clause that concludes `exec c s = .next t`, or that there is
such a `t`, says that the command `c` completes in `s`; each docstring ends with the forms that its clauses conclude this of.
-/

open Sys2Proof Sys2Proof.Machine

/-! ### The whole block -/

/-- A step runs the command at the front of the queue on the state with the queue's rest. -/
def Obligations.StepRunsFront : Prop :=
  ∀ (c : Instr) (s : State) (l : List Instr), s.pending = c :: l → step s = exec c { s with pending := l }

/-- R55, R87: the state after reset: held by PORST_N, nothing waiting, no boot stage passed, not sealed, every island
running, no node, no queue, both canonical forms. (That OTP is blank and the NVM erased is the model's choice, log
entry 4.) -/
def Obligations.ResetState : Prop :=
  let s := State.reset
  s.sys.hold = .porst ∧ s.pending = [] ∧ s.out = [] ∧ s.rd Reg.SYS_BOOT_STAGE = 0 ∧ s.live = false ∧ s.allRun = true ∧
    s.ntb.slots = [] ∧ s.car.nodeQs = [] ∧ s.sch.wheel = [] ∧ s.grn.lanes = [] ∧ s.sys.uptime = 0 ∧ s.sys.timeNs = 0 ∧
    s.nvmOk = true ∧ s.regsOk = true

/-- Log entry 5: with no command waiting a step is one period of 8 ns. R339, R340: it counts UPTIME, and from stage 2
on adds 8 × (1 + RATE_ADJ × 2^-40) ns to the time base, whose fraction is kept; held in reset the device counts
nothing. -/
def Obligations.IdleTick : Prop :=
  ∀ s : State, s.pending = [] →
    (s.sys.hold ≠ .none → step s = .next s) ∧
    (s.sys.hold = .none → s.sys.meshRun = false →
      step s = .next { s with sys.uptime := s.sys.uptime + 1 }) ∧
    (s.sys.hold = .none → s.sys.meshRun = true → s.sys.timeFrac < 2 ^ 40 → s.sys.timeNs + 16 < 2 ^ 64 →
      -(2 ^ 31) ≤ s.rdS Reg.TIM_RATE_ADJ → s.rdS Reg.TIM_RATE_ADJ < 2 ^ 31 →
      ∃ t, step s = .next t ∧ t.sys.uptime = s.sys.uptime + 1 ∧ t.sys.timeFrac < 2 ^ 40 ∧
        (t.sys.timeNs : Int) * 2 ^ 40 + t.sys.timeFrac =
          s.sys.timeNs * 2 ^ 40 + s.sys.timeFrac + 8 * (2 ^ 40 + s.rdS Reg.TIM_RATE_ADJ))

/-- Every command has its effect: none ends in a fault or a refusal, in any state. -/
def Obligations.EveryCommandAnswers : Prop :=
  ∀ (c : Instr) (s : State), ∃ t, exec c s = .next t

/-- Frame: a command leaves the queue as it was, and every part of the state that `touches` does not name for it. -/
def Obligations.Frame : Prop :=
  ∀ (c : Instr) (s t : State), exec c s = .next t →
    t.pending = s.pending ∧ ∀ p : Part, p ∉ touches c → p.same s t

/-- R283, R285, R307, R321, R330, R332, R452: OTP is only ever blown: no step takes back a bit or a field that is
burnt. -/
def Obligations.OtpOnlyRises : Prop :=
  ∀ s t : State, step s = .next t → s.otp.rose t.otp

/-- R308, R311: from every state whose tamper latch is set, a step leaves it set, unless it completes a key-update
message, loses the always-on supply, or is the stage 1 that finds the loss. -/
def Obligations.LatchStays : Prop :=
  ∀ s t : State, s.aon.latch = true → step s = .next t →
    t.aon.latch = true ∨ s.pending.head? = some .aonRetentionLoss ∨
    (s.pending.head? = some .stage1TamperRead ∧ s.aon.lost = true) ∨
    (∃ r m l, s.key.msgQ = (r, m) :: l ∧ s.pending.head? ∈
      [some Instr.kuDeploy, some Instr.kuKeys, some Instr.kuRmaAuth, some Instr.kuScrap])

/-- R67, R68: every step keeps the canonical form of the NVM bytes: addresses strictly rising, no erased byte listed.
-/
def Obligations.NvmStaysCanonical : Prop :=
  ∀ s t : State, s.nvmOk = true → step s = .next t → t.nvmOk = true

/-- R283, R290, R307: the life-cycle words change only by a key-update message other than KEYS, by a tamper event, or
at a boot: by stage 6, where a transition was cut off, and by stage 7, where a latched event meets SCRAP_ON_TAMPER;
each ends in a reset with RST_CAUSE 6. -/
def Obligations.LifeCycleChanges : Prop :=
  ∀ (c : Instr) (s t : State), exec c s = .next t →
    (t.otp.lc0 ≠ s.otp.lc0 ∨ t.otp.lc1 ≠ s.otp.lc1 ∨ t.otp.lc2 ≠ s.otp.lc2) →
    (c = .kuDeploy ∨ c = .kuRmaAuth ∨ c = .kuScrap ∨ (∃ src kop, c = .tamperEvent src kop) ∨ (∃ v p k, c = .stage6FwVerify v p k) ∨
      ∃ v, c = .stage7ConfigApply v) ∧ t.rd Reg.SYS_RST_CAUSE = 6

/-! ### Radio front ends (R91 to R117) -/

/-- R92: a write of CAL_CMD makes a calibration pending, or forces it; one that is pending keeps the count it began.
R91, R92: a temperature update 10 °C or more from CAL_TEMP makes a calibration pending in CALIBRATING, SETTLING or
LOCKED; the 200 ms mark forces a pending one and sets CAL_FORCED. R93: a calibration that is forced, or meets a gap,
starts outside bursts: CALIBRATING, CAL_TEMP taken from GRP_TEMP, every lane the group feeds aborted. R93, R95:
SETTLING 400 µs into a calibration; LOCKED or FAILED at its lock check; FAILED on a loss of lock, with SYN_FAIL. Forms
that complete here: calCmdGap, calCmdNow, grpTempUpdate, calForceTimeout, calibrationStart, calSettling,
synthLockCheck, lossOfLock. -/
def Obligations.Calibration : Prop :=
  (∀ (s : State) (g : Grp), s.hostMay g.isl = true → s.usable g = true →
     exec (.calCmdGap g) s = .next ((s.numbered 1).setFe g { s.fe g with
       cal := some ((s.fe g).cal.getD { since := s.sys.uptime, forced := false }) }) ∧
     exec (.calCmdNow g) s = .next ((s.numbered 1).setFe g { s.fe g with
       cal := some { ((s.fe g).cal.getD { since := s.sys.uptime, forced := true }) with forced := true } })) ∧
  (∀ (s : State) (g : Grp),
     (∀ x : Byte, s.runs g.isl = true → s.usable g = true →
       (∃ t, exec (.grpTempUpdate g x) s = .next t ∧ (t.rd (Reg.FE_GRP_TEMP g) = x.toNat ∧
         ((t.fe g).cal.isSome ↔ ((s.fe g).cal.isSome = true ∨
           (10 ≤ (x.toInt - s.rdS (Reg.FE_CAL_TEMP g)).natAbs ∧ 1 ≤ s.rd (Reg.FE_SYN_STATE g) ∧
             s.rd (Reg.FE_SYN_STATE g) ≤ 3)))))) ∧
     (∀ c : CalPend, (s.fe g).cal = some c → c.forced = false →
       (∃ t, exec (.calForceTimeout g) s = .next t ∧ ((t.fe g).cal = some { c with forced := true } ∧
         (t.rd (Reg.FE_GRP_EVT g)).testBit 1 = true)))) ∧
  (∀ (s : State) (g : Grp) (c : CalPend), (s.fe g).cal = some c → (s.fe g).burst = none →
     (c.forced = true ∨ (s.fe g).gap = true) →
     (∃ t, exec (.calibrationStart g) s = .next t ∧ (t.rd (Reg.FE_SYN_STATE g) = 1 ∧
       t.rd (Reg.FE_CAL_TEMP g) = s.rd (Reg.FE_GRP_TEMP g) % 256 ∧ (t.fe g).cal = none ∧ (t.fe g).calAt = s.sys.uptime ∧
       t.grn.lanes = s.grn.lanes.filter (fun l => s.chanGrp l.2.ent ≠ g)))) ∧
  (∀ (s : State) (g : Grp), s.runs g.isl = true →
     (s.rd (Reg.FE_SYN_STATE g) = 1 →
       exec (.calSettling g) s = .next (s.wr (Reg.FE_SYN_STATE g) 2)) ∧
     (∀ lock : Bool, s.rd (Reg.FE_SYN_STATE g) = 2 →
       (∃ t, exec (.synthLockCheck g lock) s = .next t ∧ (t.rd (Reg.FE_SYN_STATE g) = (if lock then 3 else 4) ∧
         (lock = false → (t.rd (Reg.FE_GRP_EVT g)).testBit 0 = true)))) ∧
     (s.rd (Reg.FE_SYN_STATE g) = 3 → (s.fe g).burst = none →
       (∃ t, exec (.lossOfLock g) s = .next t ∧ (t.rd (Reg.FE_SYN_STATE g) = 4 ∧
         (t.rd (Reg.FE_GRP_EVT g)).testBit 0 = true ∧
         t.grn.lanes = s.grn.lanes.filter (fun l => s.chanGrp l.2.ent ≠ g)))))

/-- R96, R99, R100, R111: the waiting frame that is first past the tests of its due instant begins a burst on the port
that the group chooses; a frame of a burst joins it with E moved; a burst whose frames have all ended ends. R94: at its
due instant a frame of a group that is LOCKED with no forced calibration, and whose epoch is the one in force or that
is not secured, passes: the earliest that waits, or the earliest of a burst that has not been tested. Forms that
complete here: burstBegin, frameJoin, burstEnd, frameDue. -/
def Obligations.Bursts : Prop :=
  (∀ (s : State) (g : Grp),
     (∀ (f : TxItem) (p : Nat), (s.fe g).burst = none → earliest (s.fe g).wait (fun x => x.phase = .due) = some f →
       s.locked g = true → s.calForced g = false → s.choosePort g = some p →
       (∃ t, exec (.burstBegin g) s = .next t ∧ (∃ b, (t.fe g).burst = some b ∧ b.first = f.first ∧ b.port = some p ∧
         b.search = none ∧ f ∈ b.frames ∧ f.first + f.dur ≤ b.e ∧
         ((s.fe g).wait = [f] → b.frames = [f] ∧ b.e = f.first + f.dur ∧ (t.fe g).wait = [])))) ∧
     (∀ (b : Burst) (f : TxItem) (rest : List TxItem) (p : Nat), (s.fe g).burst = some b → (s.fe g).arrive = f :: rest →
       f.fence = false → f.kind ≠ .ack → b.search = none → b.port = some p →
       (s.rd (Reg.FE_PORT_MM g)).testBit p = false → f.first < b.e + 240000 →
       s.sys.timeNs ≤ f.first - b.ramp - 10000 → s.calForced g = false →
       (∃ t, exec (.frameJoin g) s = .next t ∧ ((t.fe g).arrive = rest ∧
         ∃ b', (t.fe g).burst = some b' ∧ b'.frames = b.frames ++ [{ f with phase := .joined }] ∧
           f.first + f.dur ≤ b'.e))) ∧
     (∀ b : Burst, (s.fe g).burst = some b → b.frames.all (fun f => f.phase = .ended) = true →
       exec (.burstEnd g) s = .next (s.setFe g { s.fe g with burst := none }))) ∧
  (∀ (s : State) (g : Grp) (f : TxItem), s.locked g = true → s.calForced g = false →
     (f.secured = false ∨ f.epoch = s.key.egress) →
     ((s.fe g).burst = none → earliest (s.fe g).wait (fun x => x.phase = .waiting) = some f →
       exec (.frameDue g) s = .next (s.setFe g { s.fe g with
         wait := (s.fe g).wait.map (fun x => if x = f then { f with phase := .due } else x) })) ∧
     (∀ b : Burst, (s.fe g).burst = some b → b.search = none → earliest b.frames (fun x => x.phase = .joined) = some f →
       (∃ t, exec (.frameDue g) s = .next t ∧ ((t.fe g).burst.map (fun b => b.frames) =
         some (b.frames.map (fun x => if x = f then { f with phase := .due } else x))))))

/-- R102, R103, R110, R116, R117: the earliest frame of a burst that is due passes its GRANT check with GRANT taken as
high, XLOCK held, the burst allowed and no other frame in its composite slot; its first symbol is its commit point
(R100); its last symbol ends it. R117: GRANT that falls before a frame's first symbol takes the frame off the burst,
with COEX_EN set; with a frame on the air every frame is ended early; with COEX_EN clear it is treated as high (R116).
R116: REQ rises for the burst under way, or, once it has risen for that, for the burst decided. Forms that complete
here: grantCheck, firstSymbol, lastSymbolEnd, grantLow, reqRise. -/
def Obligations.FramesOnTheAir : Prop :=
  (∀ (s : State) (g : Grp) (b : Burst) (f : TxItem), (s.fe g).burst = some b → b.search = none →
     let to_ := fun (p : Phase) => some (b.frames.map (fun x => if x = f then { x with phase := p } else x))
     (∀ grant : Bool, earliest b.frames (fun x => x.phase = .due) = some f → f.kind = .dl → s.holds = true →
       b.allow = true → (grant = true ∨ s.rd (Reg.FE_COEX_EN g) = 0) →
       holders b.frames b.ramp (f.first - b.ramp) (f.first + f.dur + b.ramp) = [] →
       (∃ t, exec (.grantCheck g grant) s = .next t ∧ ((t.fe g).grant = grant ∧
         (t.fe g).burst.map (fun b => b.frames) = to_ .checked))) ∧
     (earliest b.frames (fun x => x.phase = .checked) = some f →
       (∃ t, exec (.firstSymbol g) s = .next t ∧ ((t.fe g).burst.map (fun b => b.frames) = to_ .onAir ∧
         (f.kind = .dl → ∀ x ∈ t.sch.tries, x.kind = .dl → x.handle = f.copy.handle → x.seq = f.seq →
           x.committed = true)))) ∧
     (f ∈ b.frames → f.phase = .onAir → (∀ x ∈ b.frames, x.phase = .onAir → x = f) →
       (∃ t, exec (.lastSymbolEnd g) s = .next t ∧ ((t.fe g).burst.map (fun b => b.frames) = to_ .ended)))) ∧
  (∀ (s : State) (g : Grp),
     (s.rd (Reg.FE_COEX_EN g) = 0 →
       exec (.grantLow g) s = .next (s.setFe g { s.fe g with grant := false })) ∧
     (∀ (b : Burst) (f : TxItem), s.rd (Reg.FE_COEX_EN g) = 1 → (s.fe g).burst = some b → b.frames = [f] →
       f.phase = .checked →
       (∃ t, exec (.grantLow g) s = .next t ∧ ((t.fe g).grant = false ∧
         (t.fe g).burst.map (fun b => b.frames) = some []))) ∧
     (∀ b : Burst, s.rd (Reg.FE_COEX_EN g) = 1 → (s.fe g).burst = some b →
       b.frames.any (fun f => f.phase = .onAir) = true →
       (∃ t, exec (.grantLow g) s = .next t ∧ ((t.fe g).grant = false ∧
         ∃ b', (t.fe g).burst = some b' ∧ ∀ f ∈ b'.frames, f.phase = .ended))) ∧
     (s.rd (Reg.FE_COEX_EN g) = 1 →
       (∀ b : Burst, (s.fe g).burst = some b → b.req = false →
         exec (.reqRise g) s = .next (s.setFe g { s.fe g with burst := some { b with req := true } })) ∧
       (∀ f : TxItem, (∀ b, (s.fe g).burst = some b → b.req = true) → earliest (s.fe g).wait (fun _ => true) = some f →
         exec (.reqRise g) s = .next (s.setFe g { s.fe g with req := some f.first }))))

/-- R112, R113: a return-loss window below RL_THR marks the port in PORT_MM, is kept in RL_MEAS, and ends every frame
of the burst. R114: a tuner search is accepted, or REFUSED where the device may not transmit on that port; it starts on
its port; its end is NO_GRANT, or COMPLETED with the best codes of its 89 points stored and the port returned, or
NOT_MET. Forms that complete here: rlMismatch, tuneGo, tuneSearchStart, tuneSearchEnd. -/
def Obligations.MismatchAndTuner : Prop :=
  ∀ (s : State) (g : Grp),
    (∀ (b : Burst) (p rl : Nat), (s.fe g).burst = some b → b.port = some p → p < 4 → b.search = none →
      (b.frames.any (fun f => f.phase = .onAir)) = true → rl < 4 * s.rd (Reg.FE_RL_THR g) →
      (∃ t, exec (.rlMismatch g rl) s = .next t ∧ ((t.rd (Reg.FE_PORT_MM g)).testBit p = true ∧
        t.rdI (Reg.FE_RL_MEAS g) p = min 255 rl ∧
        ∃ b', (t.fe g).burst = some b' ∧ ∀ f ∈ b'.frames, f.phase = .ended))) ∧
    (∀ p : BitVec 2, s.hostMay g.isl = true →
      let may := s.holds = true ∧ s.locked g = true ∧ (s.fe g).tune = none ∧
        (s.rd (Reg.FE_PORT_FAULT g)).testBit p.toNat = false ∧ (s.fe g).txEn.getLsbD p.toNat = true
      (may → exec (.tuneGo g p) s = .next (((s.numbered 1).setFe g { s.fe g with
        tune := some { port := p.toNat, since := s.sys.uptime } }).wr (Reg.FE_TUNE_STAT g) 1)) ∧
      (¬ may → exec (.tuneGo g p) s = .next ((s.numbered 1).wr (Reg.FE_TUNE_STAT g) 4))) ∧
    (∀ q : TunePend, (s.fe g).tune = some q → (s.fe g).burst = none → (s.fe g).cal = none → s.locked g = true →
      ((s.fe g).gap = true ∨ 200 ≤ s.msSince q.since) →
      (∃ t, exec (.tuneSearchStart g) s = .next t ∧ (t.rd (Reg.FE_TUNE_LAST g) = q.port % 4 ∧ (t.fe g).gap = false ∧
        ∃ b, (t.fe g).burst = some b ∧ b.search = some q.port ∧ b.port = some q.port ∧ b.frames = [] ∧
          b.first = s.sys.timeNs + 120000 ∧ b.e = b.first + 712000))) ∧
    (∀ (b : Burst) (p : Nat) (grant : Bool) (coarse fine : List Nat) (low : Nat), (s.fe g).burst = some b →
      b.search = some p → p < 4 →
      let m := searchBest coarse fine
      let may := s.holds = true ∧ b.allow = true ∧ (grant = true ∨ s.rd (Reg.FE_COEX_EN g) = 0)
      (¬ may → (∃ t, exec (.tuneSearchEnd g grant coarse fine low) s = .next t ∧ ((t.fe g).tune = none ∧
        t.rd (Reg.FE_TUNE_STAT g) = 5))) ∧
      (may → (∃ t, exec (.tuneSearchEnd g grant coarse fine low) s = .next t ∧ ((t.fe g).tune = none ∧
        t.rdI (Reg.FE_RL_MEAS g) p = min 255 low ∧
        (4 * s.rd (Reg.FE_RL_THR g) ≤ m.2 → t.rd (Reg.FE_TUNE_STAT g) = 2 ∧
          t.rdI (Reg.FE_TUNE_SER g) p = m.1.1 % 32 ∧ t.rdI (Reg.FE_TUNE_SHT g) p = m.1.2 % 32 ∧
          (t.rd (Reg.FE_PORT_MM g)).testBit p = false) ∧
        (m.2 < 4 * s.rd (Reg.FE_RL_THR g) → t.rd (Reg.FE_TUNE_STAT g) = 3 ∧
          ∀ f, f ∈ [Reg.FE_TUNE_SER g, Reg.FE_TUNE_SHT g] → t.rdI f p = s.rdI f p)))))

/-! ### The Grinder and PHY (R122 to R168, R223) -/

/-- R123: the word that a written PLAN_ENT reads back at once, every field clamped: GROUP 0b11 as 0b10, FOFS within the
limit of that group, ED_THR within 0x04 to 0x3C, EN and OPT_MASK as written, PRIV only with EN, an option, and fewer
than eight other privileged entries. Forms that complete here: planEntWrite. -/
def Obligations.PlanClamps : Prop :=
  ∀ (s : State) (i w : Nat),
    let v := (s.planClamp i w).toNat
    let g := Grp.ofCode (bits w 14 2)
    let lim : Int := match g with
      | .L => 464
      | .H => 976
      | .I => 3312
    g.code = min 2 (bits w 14 2) ∧ bits v 14 2 = g.code ∧ planFofs v = max (-lim) (min lim (planFofs w)) ∧
    bits v 24 8 = max 4 (min 0x3C (bits w 24 8)) ∧ planEn v = planEn w ∧ planOpts v = planOpts w ∧
    (planPriv v = true ↔ planPriv w = true ∧ planEn w = true ∧ planOpts w ≠ 0 ∧
      (s.grn.plan.filter (fun p => p.1 ≠ i && planEn p.2.toNat && planPriv p.2.toNat)).length < 8) ∧
    (∀ x : Word, x.toNat = w → s.hostMay .GRN = true → i = s.rd Reg.GRN_PLAN_IDX →
      (∃ t, exec (.planEntWrite x) s = .next t ∧ (mget t.grn.plan i = some (s.planClamp i w))))

/-- R123, R124, R223: a write of PLAN_ENT reads back clamped at once and waits for the first slot boundary 100 µs or
more ahead, with the plan in effect as it was; a boundary puts a waiting word in effect, or waiting port enables
(R109), or the twin joins or leaves, and names itself in CAP_LAST. R217: the scan after a removal ends with SCAN_DONE.
Forms that complete here: planEntWrite, capBoundary, scanDone. -/
def Obligations.PlanWriteAndBoundary : Prop :=
  ∀ s : State,
    (∀ v : Word, s.hostMay .GRN = true →
      (∃ t, exec (.planEntWrite v) s = .next t ∧ (
        let i := s.rd Reg.GRN_PLAN_IDX
        (mget t.grn.plan i).getD 0 = s.planClamp i v.toNat ∧ t.grn.live = s.grn.live ∧
        ∃ m, s.sys.timeNs + 100000 ≤ m * 1000000 ∧ m * 1000000 < s.sys.timeNs + 1100000 ∧
          t.grn.cap = s.grn.cap ++ [(m, .plan (BitVec.ofNat 8 i) (s.planClamp i v.toNat))]))) ∧
    (∀ m : Nat, s.runs .SCH = true → m * 1000000 ≤ s.sys.timeNs →
      (∀ (e : Byte) (v : Word), s.grn.cap = [(m, .plan e v)] → s.runs .GRN = true →
        (∃ t, exec .capBoundary s = .next t ∧ ((mget t.grn.live e.toNat).getD 0 = v ∧ t.grn.cap = [] ∧
          t.rd Reg.SCH_CAP_LAST = m % 2 ^ 32 ∧ (t.rd Reg.GRN_GRN_EVT).testBit 1 = true))) ∧
      (∀ (g : Grp) (rx tx : BitVec 4), s.grn.cap = [(m, .ports g rx tx)] → s.runs g.isl = true →
        (∃ t, exec .capBoundary s = .next t ∧ ((t.fe g).rxEn = rx ∧ (t.fe g).txEn = tx ∧ t.grn.cap = [] ∧
          t.rd Reg.SCH_CAP_LAST = m % 2 ^ 32 ∧ t.grn.live = s.grn.live))) ∧
      (s.grn.cap = [(m, .twinJoin)] → s.runs .TWN = true →
        (∃ t, exec .capBoundary s = .next t ∧ (t.twn.joined = true ∧ t.twn.fullCopy = true ∧ t.grn.cap = []))) ∧
      (s.grn.cap = [(m, .twinLeave)] → s.runs .TWN = true →
        (∃ t, exec .capBoundary s = .next t ∧ (t.twn.joined = false ∧ t.grn.cap = [])))) ∧
    (∀ l : List Nat, s.sch.scan = some l → s.runs .SCH = true → s.runs .NTB = true →
      exec .scanDone s = .next ({ s with sch.scan := none }.ev Reg.SCH_SCH_EVT 4 80))

/-- R125, R127 to R129: a detection that is no alias takes a lane as ACQUIRING: the entry's own reserved lane while it
is IDLE, else the first shared lane that is IDLE; an alias takes none. R134: on a privileged entry with a noise floor,
a window above the floor of an enabled aerial by ED_THR starts the qualifier; at its end a metric below SRCH_THR counts
in ED_REJECT, one that reaches it is declared a detection. R139: a noise-floor window stores round(2 × (P + 140)) for
each aerial of PORT_RX_EN, held to 0 to 255, and 0 for the others, while the entry's streams run and it has no lane.
Forms that complete here: detection, edWindow, qualifierEnd, nfWindowDone. -/
def Obligations.Detections : Prop :=
  (∀ (s : State) (e : Byte) (opt : BitVec 2) (m : Byte), s.streams e = true → s.fastPath e = false →
     (planOpts (s.planAt e)).testBit opt.toNat = true → s.srchThr (s.chanGrp e) ≤ m.toNat →
     (s.aliased e opt = true → (∃ t, exec (.detection e opt m) s = .next t ∧ (t.grn = s.grn))) ∧
     (∀ n, s.aliased e opt = false →
       (s.rsvOf e.toNat = some n ∧ s.laneIdle n = true ∨
         s.rsvOf e.toNat = none ∧ (∀ p ∈ s.grn.lanes, p.2.ent ≠ e) ∧ n < 96 ∧ s.isRsv n = false ∧ s.laneIdle n = true ∧
           (∀ j < n, s.isRsv j = true ∨ s.laneIdle j = false)) →
       (∃ t, exec (.detection e opt m) s = .next t ∧ (∃ l, mget t.grn.lanes n = some l ∧ l.ent = e ∧ l.opt = opt ∧
         l.metric = m ∧ l.decoding = false ∧ l.since = s.sys.uptime ∧
         ∀ k, k ≠ n → mget t.grn.lanes k = mget s.grn.lanes k)))) ∧
  (∀ (s : State) (e : Byte),
     (∀ (pw : List Int) (i : Nat), s.streams e = true → s.fastPath e = true → s.grn.qual.contains e.toNat = false →
       i < 4 → (s.fe (s.chanGrp e)).rxEn.getLsbD i = true →
       -140000 + 500 * ((((mget s.grn.nf e.toNat).elim [] (fun n => n.vals)).getD i 0 : Nat) : Int) +
         500 * (bits (s.planAt e) 24 8 : Nat) ≤ pw.getD i (-200000) →
       exec (.edWindow e pw) s = .next ({ s with grn.qual := s.grn.qual ++ [e.toNat] })) ∧
     (∀ (opt : BitVec 2) (m : Byte), s.grn.qual.contains e.toNat = true → s.streams e = true →
       let s' := { s with grn.qual := s.grn.qual.erase e.toNat }
       (∃ t, exec (.qualifierEnd e opt m) s = .next t ∧ (
         t = if (planOpts (s.planAt e)).testBit opt.toNat = true ∧ s.srchThr (s.chanGrp e) ≤ m.toNat
           then s'.detect e opt m true else s'.bump Reg.GRN_ED_REJECT)))) ∧
  (∀ (s : State) (e : Byte) (pw : List Int), s.streams e = true → (∀ p ∈ s.grn.lanes, p.2.ent ≠ e) →
     (∃ t, exec (.nfWindowDone e pw) s = .next t ∧ (
       (∀ k, k ≠ e.toNat → mget t.grn.nf k = mget s.grn.nf k) ∧ t.grn.lanes = s.grn.lanes ∧
       ∃ v, mget t.grn.nf e.toNat = some v ∧ v.done = some s.sys.uptime ∧ v.vals.length = 4 ∧
         ∀ i < 4, v.vals.getD i 0 =
           if (s.fe (s.chanGrp e)).rxEn.getLsbD i then
             (max 0 (min 255 (roundDiv (pw.getD i (-140000) + 140000) 500))).toNat
           else 0)))

/-- R130, R145, R146: a header that passes its check, carries a rate of the option and a LENGTH above the FCS takes the
lane to DECODING; any other frees the lane, counted in PHR_BAD and under its one cause; a lane whose time runs out is
freed. R137: the report of a reception that was pre-empted is discarded. R132, R138, R147 to R149, R27: a DECODING lane
is IDLE when its reception ends. A failed FCS counts in FCS_BAD, a good one in RX_FRAMES; a frame of R228 stands in
PHY's release order, and one that asks for an acknowledgement has it declared (R235); an MPDU that is none ends there
(the model's choice, log entry 97). Forms that complete here: phrReport, acqTimeout, receptionEnd. -/
def Obligations.Receptions : Prop :=
  ((∀ (s : State) (n : Nat) (l : Lane), mget s.grn.lanes n = some l → l.decoding = false → s.runs .GRN = true →
     (∀ (first : List Int) (rest : List (List Int)), s.runs .PHY = true → s.grn.late.contains n = false →
       let phr := decodePhr (first :: rest)
       let rate := natOf (phr.take 5)
       let len := natOf ((phr.drop 6).take 11)
       (∃ t, exec (.phrReport n first rest) s = .next t ∧ (
         if phrOk phr = true ∧ minMcs l.opt ≤ rate ∧ rate ≤ maxMcs l.opt ∧ s.fcsLen < len then
           t = { s with grn.lanes := mput s.grn.lanes n { l with
             decoding := true, mcs := BitVec.ofNat 3 rate, len := len, scr := BitVec.ofNat 2 (natOf ((phr.drop 18).take 2)) } }
         else
           t = ((s.bump (if phrOk phr = false then Reg.PHY_PHR_HCS_BAD
             else if rate < minMcs l.opt ∨ maxMcs l.opt < rate then Reg.PHY_PHR_RATE_BAD
             else Reg.PHY_PHR_LEN_BAD)).bump Reg.GRN_PHR_BAD).freeLane n))) ∧
     exec (.acqTimeout n) s = .next ((s.bump Reg.GRN_ACQ_TIMEOUT).freeLane n)) ∧
   (∀ (s : State) (n : Nat) (first : List Int) (rest : List (List Int)), s.runs .GRN = true → s.runs .PHY = true →
     s.grn.late.contains n = true →
     exec (.phrReport n first rest) s = .next ({ s with grn.late := s.grn.late.erase n }))) ∧
  (∀ (s : State) (n : Nat) (l : Lane) (r : Reception), mget s.grn.lanes n = some l → l.decoding = true →
     s.runs .GRN = true → s.runs .PHY = true →
     (s.mpduOf l r = none → exec (.receptionEnd n r) s = .next ((s.freeLane n).bump Reg.PHY_FCS_BAD)) ∧
     (∀ b, s.mpduOf l r = some b →
       (readPsdu b r.mic r.plain = none →
         exec (.receptionEnd n r) s = .next ((s.freeLane n).wrap Reg.PHY_RX_FRAMES)) ∧
       (∀ p, readPsdu b r.mic r.plain = some p →
         (∃ t, exec (.receptionEnd n r) s = .next t ∧ (mget t.grn.lanes n = none ∧
           t.phy.ul.length = s.phy.ul.length + 1 ∧ t.grn.recvNo = s.grn.recvNo + 1 ∧
           (∃ u ∈ t.phy.ul, u.id = s.grn.recvNo ∧ u.psdu = p ∧ u.rx.chan = l.ent ∧ u.rx.opt = l.opt ∧ u.rx.mcs = l.mcs ∧
             u.rx.endTime = s.sys.timeNs ∧ u.rx.priv = l.priv ∧ u.copy = none ∧ ∀ x ∈ u.tones, x ≤ 127))) ∧
         (p.ackReq = false → (∃ t, exec (.receptionEnd n r) s = .next t ∧ (t.sch.acks = s.sch.acks ∧
           t.rd Reg.PHY_RX_FRAMES = (s.rd Reg.PHY_RX_FRAMES + 1) % 2 ^ 32))) ∧
         (∀ port, p.ackReq = true → s.runs .SCH = true → s.quiet = false →
           (s.fe (s.chanGrp l.ent)).wait = [] → s.choosePort (s.chanGrp l.ent) = some port →
           (∃ t, exec (.receptionEnd n r) s = .next t ∧ (
             ∃ a, t.sch.acks = s.sch.acks ++ [a] ∧ a.id = s.grn.recvNo ∧ a.endTime = s.sys.timeNs ∧ a.chan = l.ent ∧
               a.opt = l.opt ∧ a.mcs = l.mcs ∧ a.classified = false))))))

/-- R27: PHY releases the frame whose reception ended first to NTB, once mesh time has passed its end. R144, R150,
R163: the oldest item to modulate reaches its group with its waveform and its time on the air, counted in TX_FRAMES;
one that is not tone-loaded is modulated as a standard PPDU. Forms that complete here: ulRelease, phyModulate. -/
def Obligations.PhyPassesOn : Prop :=
  ∀ s : State, s.runs .PHY = true →
    (∀ (u : UlItem) (rest : List UlItem), s.phy.ul = u :: rest → s.runs .NTB = true → u.rx.endTime < s.sys.timeNs →
      exec .ulRelease s = .next ({ s with phy.ul := rest, ntb.ul := s.ntb.ul ++ [u] })) ∧
    (∀ (f : TxItem) (rest : List TxItem), s.phy.tx = f :: rest → s.runs f.grp.isl = true → f.fence = false →
      (∃ t, exec .phyModulate s = .next t ∧ (t.phy.tx = rest ∧
        t.rd Reg.PHY_TX_FRAMES = (s.rd Reg.PHY_TX_FRAMES + 1) % 2 ^ 32 ∧
        ∃ d p, (t.fe f.grp).arrive = (s.fe f.grp).arrive ++ [{ f with dur := d, ready := true, ppdu := some p }] ∧
          (f.kind ≠ .dl ∨ f.copy.tl = false →
            d = airNs (phrSyms f.copy.opt) (s.txLen f) (max 1 (nDbps f.copy.opt f.copy.mcs)) ∧
            ∃ scr, p = standardPpdu f.copy.opt f.copy.mcs scr (f.body ++ fcsOf (s.on Reg.PHY_FCS_TYPE) f.body)))))

/-- R160, R161: the tone-map commands on the record that TMAP_IDX names. READ fills TMAP_DATA with the record; WRITE
and FREE are REFUSED while the record is VALID and in use, else they store the record of the window, or a free one.
R166 to R168: PHY's change of a node's map is applied while the entry has the GEN of the proposal, and superseded
otherwise; the queue of changes moves on and its report is recorded either way. Forms that complete here: tmapRead,
tmapWrite, tmapFree, tonemapTableWrite. -/
def Obligations.ToneMaps : Prop :=
  (∀ s : State, s.hostMay .PHY = true →
     let i := s.rd Reg.PHY_TMAP_IDX
     let m := (mget s.phy.tmaps i).getD TMap.zero
     (∃ t, exec .tmapRead s = .next t ∧ (t.rd Reg.PHY_TMAP_STAT = 2 ∧ t.mapWindow = m.bytes ∧ t.phy = s.phy)) ∧
     (m.valid = true ∧ (1 ≤ m.users ∨ 1 ≤ m.inFlight) →
       exec .tmapWrite s = .next ((s.numbered 1).wr Reg.PHY_TMAP_STAT 3) ∧
       exec .tmapFree s = .next ((s.numbered 1).wr Reg.PHY_TMAP_STAT 3)) ∧
     (¬ (m.valid = true ∧ (1 ≤ m.users ∨ 1 ≤ m.inFlight)) →
       (∃ t, exec .tmapWrite s = .next t ∧ (t.rd Reg.PHY_TMAP_STAT = 2 ∧
         (mget t.phy.tmaps i).getD TMap.zero = { TMap.ofWrite s.mapWindow with users := m.users, inFlight := m.inFlight } ∧
         ∀ k, k ≠ i → mget t.phy.tmaps k = mget s.phy.tmaps k)) ∧
       (∃ t, exec .tmapFree s = .next t ∧ (t.rd Reg.PHY_TMAP_STAT = 2 ∧
         (mget t.phy.tmaps i).getD TMap.zero = { TMap.zero with users := m.users, inFlight := m.inFlight } ∧
         ∀ k, k ≠ i → mget t.phy.tmaps k = mget s.phy.tmaps k)))) ∧
  (∀ (s : State) (w : PropWrite) (rest : List PropWrite) (loc : Nat) (e : Entry), s.phy.propWrites = w :: rest →
     s.runs .NTB = true → s.hasEntry w.handle loc e →
     (e.gen = w.gen → (∃ t, exec .tonemapTableWrite s = .next t ∧ (t.phy.propWrites = rest ∧
       t.hasEntry w.handle loc { e with tmap := w.tmap } ∧ (t.rd Reg.PHY_PHY_EVT).testBit 0 = true))) ∧
     (e.gen ≠ w.gen → (∃ t, exec .tonemapTableWrite s = .next t ∧ (t.phy.propWrites = rest ∧
       t.hasEntry w.handle loc e ∧ t.rd Reg.PHY_PROP_SUPERSEDED = min (s.rd Reg.PHY_PROP_SUPERSEDED + 1) 65535 ∧
       (t.rd Reg.PHY_PHY_EVT).testBit 0 = true))))

/-! ### The node table (R172 to R199) -/

/-- R24, R178, R179: an uplink at NTB that no slot of its probe holds passes to KEY without a copy, counted in LOOKUPS
and LOOKUP_MISS; one that an entry holds passes with its copy, and the entry's HIT is set and its UL_SEQ has risen.
R397: on a standby the lookup only probes. Forms that complete here: ntbLookup. -/
def Obligations.LookupPassesOn : Prop :=
  ∀ (s : State) (u : UlItem) (rest : List UlItem), s.ntb.ul = u :: rest → s.runs .NTB = true → s.runs .KEY = true →
    (u.copy = none → s.probeFinds u.psdu.eui none →
      exec .ntbLookup s = .next ({ (({ s with ntb.ul := rest }.wrap Reg.NTB_LOOKUPS).bump Reg.NTB_LOOKUP_MISS) with
          key.ul := s.key.ul ++ [u] })) ∧
    (∀ (loc : Nat) (e : Entry), s.probeFinds u.psdu.eui (some loc) → s.hasEntry e.handle loc e →
      (s.quiet = false → (∃ t, exec .ntbLookup s = .next t ∧ (t.ntb.ul = rest ∧
        t.key.ul = s.key.ul ++ [{ u with copy := some (e.copy u.psdu.dsn u.psdu.fc), ulSeq := e.ulSeq + 1 }] ∧
        t.hasEntry e.handle loc { e with hit := true, ulSeq := e.ulSeq + 1 } ∧
        (∀ k, k ≠ loc → mget t.ntb.slots k = mget s.ntb.slots k) ∧ t.ntb.dir = s.ntb.dir))) ∧
      (s.quiet = true → (∃ t, exec .ntbLookup s = .next t ∧ (t.ntb = { s.ntb with ul := rest } ∧
        t.key.ul = s.key.ul ++ [{ u with copy := some (e.copy u.psdu.dsn u.psdu.fc), ulSeq := e.ulSeq }]))))

/-- R176, R177, R182: a host WRITE changes the class-H fields of the words it names, each clamped, and nothing else of
an entry. -/
def Obligations.WriteChangesClassH : Prop :=
  ∀ (e : Entry) (b : List Byte) (mask : BitVec 12),
    let x := e.writeH b mask
    ({ x with chan := e.chan, opt := e.opt, mcs := e.mcs, tl := e.tl, tmap := e.tmap, nlp := e.nlp, pin := e.pin,
              dNode := e.dNode, g0 := e.g0, wakeInt := e.wakeInt, repeatLim := e.repeatLim, wcls := e.wcls,
              wakePhase := e.wakePhase, mcGrp := e.mcGrp } : Entry) = e ∧
    (mask.getLsbD 3 = false → x.chan = e.chan ∧ x.opt = e.opt ∧ x.mcs = e.mcs ∧ x.tl = e.tl ∧ x.tmap = e.tmap ∧
      x.nlp = e.nlp ∧ x.pin = e.pin) ∧
    (mask.getLsbD 8 = false → x.dNode = e.dNode ∧ x.g0 = e.g0) ∧
    (mask.getLsbD 9 = false → x.wakeInt = e.wakeInt ∧ x.repeatLim = e.repeatLim ∧ x.wcls = e.wcls) ∧
    (mask.getLsbD 10 = false → x.wakePhase = e.wakePhase ∧ x.mcGrp = e.mcGrp) ∧
    (mask.getLsbD 3 = true → minMcs x.opt ≤ x.mcs.toNat ∧ x.mcs.toNat ≤ maxMcs x.opt ∧ 1 ≤ x.nlp.toNat ∧
      x.nlp.toNat ≤ 4) ∧
    (mask.getLsbD 9 = true → 1 ≤ x.repeatLim.toNat)

/-- R173, R181, R182, R186: an INSERT of an EUI-64 that the table does not hold, with a free handle and a free slot in
its first bucket, stores its entry there and in the directory and reports COMPLETED; an EUI-64 of all zeros or all ones
is REFUSED with BAD_EUI and changes no slot. Forms that complete here: tblInsert. -/
def Obligations.TableInsert : Prop :=
  ∀ (s : State) (c : TblCmd), s.ntb.cmdQ = [c] → c.op = 1 → c.aborted = false → s.runs .NTB = true →
    let eui : Word64 := BitVec.ofNat 64 (leAt c.entry 0 8)
    (∀ (h : BitVec 18) (l : Nat), eui ≠ 0 → eui ≠ BitVec.allOnes 64 → s.probeFinds eui none →
      (∀ p ∈ s.ntb.dir, p.2.perr = false) → (s.pickHandle c).1 = .ok h → s.freeIn 0 (s.bucket 0 eui) = some l →
      (∃ t, exec .tblInsert s = .next t ∧ (∃ (s1 : State) (d : TblDone), t = State.tblReport s1 d ∧ d.seq = c.seq ∧
        d.status = stCOMPLETED ∧ d.handle = h ∧ d.loc = BitVec.ofNat 19 l ∧ d.moves = 0 ∧ t.ntb.cmdQ = [] ∧
        mget t.ntb.slots l = some { entry := Entry.ofInsert c.entry h, bad := false, perr := 0 } ∧
        mget t.ntb.dir h.toNat = some ⟨BitVec.ofNat 19 l, false⟩ ∧
        (∀ k, k ≠ l → mget t.ntb.slots k = mget s.ntb.slots k)))) ∧
    (eui = 0 ∨ eui = BitVec.allOnes 64 →
      (∃ t, exec .tblInsert s = .next t ∧ (∃ d, t = State.tblReport { s with ntb.cmdQ := [] } d ∧ d.seq = c.seq ∧
        d.status = stREFUSED ∧ d.reason = 2)))

/-- R182, R183, R193, R195: READ, WRITE, REMOVE and LOCK of an entry that the table holds without error: READ reports
its bytes; WRITE of an entry that is JOINING leaves it as its words say, GEN one higher; REMOVE without queued frames
frees slot and handle; LOCK sets LOCK. Each answers COMPLETED and leaves every other slot as it was. Forms that
complete here: tblRead, tblWrite, tblRemove, tblLock. -/
def Obligations.TableCommands : Prop :=
  ∀ (s : State) (c : TblCmd) (loc : Nat) (e : Entry), s.ntb.cmdQ = [c] → c.aborted = false → s.runs .NTB = true →
    s.hasEntry c.handle loc e → c.genMiss e = false →
    let done := fun (t : State) (d : TblDone) => (∃ s1, t = State.tblReport s1 d) ∧ d.seq = c.seq ∧
      d.status = stCOMPLETED ∧ d.handle = c.handle ∧ t.ntb.cmdQ = [] ∧
      ∀ k, k ≠ loc → mget t.ntb.slots k = mget s.ntb.slots k
    (c.op = 3 → (∃ t, exec .tblRead s = .next t ∧ (∃ d, done t d ∧ d.entry = some e.bytes ∧ t.ntb.slots = s.ntb.slots))) ∧
    (c.op = 2 → e.state = .joining → (∃ t, exec .tblWrite s = .next t ∧ (∃ d, done t d ∧ d.gen = e.gen + 1 ∧
      t.hasEntry c.handle loc { e.writeH c.entry (BitVec.ofNat 12 (leAt c.bytes 2 2)) with
        gen := e.gen + 1, lock := e.lock && !(leAt c.bytes 1 1).testBit 1 }))) ∧
    (c.op = 4 → e.qne = false → (∃ t, exec .tblRemove s = .next t ∧ (∃ d, done t d ∧ mget t.ntb.slots loc = none ∧
      mget t.ntb.dir c.handle.toNat = none))) ∧
    (c.op = 5 → e.lock = false → (∃ t, exec .tblLock s = .next t ∧ (∃ d, done t d ∧
      d.entry = some { e with lock := true }.bytes ∧ t.hasEntry c.handle loc { e with lock := true } ∧
      (c.handle.toNat, s.sys.uptime) ∈ t.ntb.locks)))

/-- R183: table commands that fail: an unknown handle is REFUSED as NO_ENTRY; IF_GEN with another generation as
GEN_MISMATCH; REMOVE with queued frames as QUEUE_NOT_EMPTY; LOCK of a locked entry as LOCKED. None changes a slot.
R178, R179, R183: LOOKUP answers the entry that holds the EUI-64, or NO_ENTRY, and changes no slot. R185, R386, R375: a
result stays with NTB while HST cannot write it, and a tunnel command's result goes to the tunnel. Forms that complete
here: tblWrite, tblRead, tblRemove, tblLock, tblLookup. -/
def Obligations.TableRefusals : Prop :=
  (∀ (s : State) (c : TblCmd), s.ntb.cmdQ = [c] → c.aborted = false → s.runs .NTB = true →
     let no := fun (t : State) (r : Byte) => ∃ d, t = State.tblReport { s with ntb.cmdQ := [] } d ∧
       d.seq = c.seq ∧ d.status = stREFUSED ∧ d.reason = r
     (mget s.ntb.dir c.handle.toNat = none →
       (c.op = 2 → (∃ t, exec .tblWrite s = .next t ∧ (no t 4))) ∧ (c.op = 3 → (∃ t, exec .tblRead s = .next t ∧ (no t 4))) ∧
       (c.op = 4 → (∃ t, exec .tblRemove s = .next t ∧ (no t 4))) ∧ (c.op = 5 → (∃ t, exec .tblLock s = .next t ∧ (no t 4)))) ∧
     (∀ (loc : Nat) (e : Entry), s.hasEntry c.handle loc e →
       (c.genMiss e = true → (c.op = 2 → (∃ t, exec .tblWrite s = .next t ∧ (no t 5))) ∧
         (c.op = 4 → (∃ t, exec .tblRemove s = .next t ∧ (no t 5)))) ∧
       (c.op = 4 → c.genMiss e = false → e.qne = true → (∃ t, exec .tblRemove s = .next t ∧ (no t 6))) ∧
       (c.op = 5 → e.lock = true → (∃ t, exec .tblLock s = .next t ∧ (no t 7))))) ∧
  (∀ s : State,
     (∀ c : TblCmd, s.ntb.cmdQ = [c] → c.op = 6 → c.aborted = false → s.runs .NTB = true →
       let eui : Word64 := BitVec.ofNat 64 (leAt c.entry 0 8)
       (∀ (loc : Nat) (e : Entry), s.probeFinds eui (some loc) → s.hasEntry e.handle loc e →
         (∃ t, exec .tblLookup s = .next t ∧ (∃ d,
           t = State.tblReport ({ s with ntb.cmdQ := [] }.wrap Reg.NTB_LOOKUPS) d ∧ d.status = stCOMPLETED ∧
           d.handle = e.handle ∧ d.entry = some e.bytes))) ∧
       (s.probeFinds eui none →
         (∃ t, exec .tblLookup s = .next t ∧ (∃ d,
           t = State.tblReport (({ s with ntb.cmdQ := [] }.wrap Reg.NTB_LOOKUPS).bump Reg.NTB_LOOKUP_MISS) d ∧
           d.status = stREFUSED ∧ d.reason = 4)))) ∧
     (∀ d : TblDone,
       (d.tunnel = false → s.dma = false → s.tblReport d = { s with ntb.done := s.ntb.done ++ [d] }) ∧
       (d.tunnel = false → s.dma = true → (s.tblReport d).ntb = { s.ntb with done := [] } ∧
         Out.tblCompl d.seq (s.complAddr d.seq) d.bytes ∈ (s.tblReport d).out) ∧
       (d.tunnel = true → s.tblReport d = { s with eth.outQ := s.eth.outQ ++ [(0x93, d.bytes ++ d.entry.getD [])] })))

/-- R187, R190, R192: the drain moves the next stash entry, neither locked nor BAD, to a free slot of its bucket; the
sweeper moves on by one location and clears HIT and AMARK, or sets AMARK; the third case removes an entry that nobody
has hit. R193: a lock that is held for its time ends: LOCK is cleared and LOCK_EXP counts it. R265: a purge that ends
has withdrawn the frames of its entry that have not been offered, counted in PURGED, sets PURGE_DONE and gives way to
the next. Forms that complete here: stashDrainTick, sweepVisit, compareRemove, lockTimeout, purgeEnd. -/
def Obligations.DrainSweepAndLocks : Prop :=
  (∀ (s : State) (e : Entry),
     (∀ (i d : Nat), s.on Reg.NTB_STASH_DRAIN = true → s.runs .NTB = true → s.standby = false → i < 16 →
       (∀ j < 16, j ≠ i → mget s.ntb.slots (stashLoc j) = none) → e.lock = false →
       mget s.ntb.slots (stashLoc i) = some { entry := e, bad := false, perr := 0 } →
       s.freeIn 0 (s.bucket 0 e.eui) = some d →
       (∃ t, exec .stashDrainTick s = .next t ∧ (t.ntb.drainAt = i ∧ mget t.ntb.slots (stashLoc i) = none ∧
         mget t.ntb.slots d = some { entry := e, bad := false, perr := 0 } ∧
         mget t.ntb.dir e.handle.toNat = some ⟨BitVec.ofNat 19 d, false⟩))) ∧
     (∀ pos, pos = s.rd Reg.NTB_SWEEP_POS → s.rd Reg.NTB_SWEEP_PER ≠ 0 → s.runs .NTB = true → s.standby = false →
       mget s.ntb.slots pos = some { entry := e, bad := false, perr := 0 } → e.lock = false → e.pin = false →
       e.qne = false →
       (∃ t, exec .sweepVisit s = .next t ∧ (
         t.rd Reg.NTB_SWEEP_POS = (if pos = 0x4000F then 0 else pos + 1) % 2 ^ 19 ∧
         (e.hit = true → mget t.ntb.slots pos =
           some { entry := { e with hit := false, amark := false }, bad := false, perr := 0 }) ∧
         (e.hit = false → e.amark = false → mget t.ntb.slots pos =
           some { entry := { e with amark := true }, bad := false, perr := 0 }) ∧
         (e.hit = false → e.amark = true → t.ntb.slots = s.ntb.slots ∧ t.ntb.sweepCmp = some pos)))) ∧
     (∀ loc, s.ntb.sweepCmp = some loc → mget s.ntb.slots loc = some { entry := e, bad := false, perr := 0 } →
       (∃ t, exec .compareRemove s = .next t ∧ (t.ntb.sweepCmp = none ∧
         (e.hit = true → mget t.ntb.slots loc =
           some { entry := { e with hit := false, amark := false }, bad := false, perr := 0 }) ∧
         (e.hit = false → mget t.ntb.slots loc = none ∧ mget t.ntb.dir e.handle.toNat = none))))) ∧
  (∀ s : State,
     (∀ (h : BitVec 18) (loc : Nat) (e : Entry), s.runs .NTB = true → s.hasEntry h loc e →
       (s.ntb.locks.any (fun p => p.1 = h.toNat)) = true →
       (∃ t, exec (.lockTimeout h) s = .next t ∧ (t.hasEntry h loc { e with lock := false } ∧
         (∀ p ∈ t.ntb.locks, p.1 ≠ h.toNat) ∧ t.rd Reg.NTB_LOCK_EXP = min (s.rd Reg.NTB_LOCK_EXP + 1) 65535 ∧
         (t.rd Reg.NTB_NTB_EVT).testBit 4 = true))) ∧
     (∀ (h : BitVec 18) (rest : List (BitVec 18)), s.car.purge = h :: rest →
       (∃ t, exec .purgeEnd s = .next t ∧ (t.car.purge = rest ∧
         (∀ p ∈ t.car.orphans, p.1 = h → p.2.items.length ≤ p.2.read) ∧
         t.rd Reg.CAR_PURGED = min (s.rd Reg.CAR_PURGED +
           ((s.car.orphans.filter (fun p => p.1 = h)).map (fun p => p.2.items.length - p.2.read)).sum) 65535 ∧
         (t.rd Reg.CAR_CAR_EVT).testBit 6 = true))))

/-! ### The wake schedule and the air exchange (R200 to R251, R427) -/

/-- R209, R211, R212: a bucket whose instant has come is processed: it is the last processed, its events leave the
wheel, a stale one counts in STALE and nothing else follows; R215: a live one whose uncertainty exceeds the class makes
its node DRIFTED. R209: an overflow event within the wheel's reach goes to its bucket. Forms that complete here:
bucketProcess, overflowMove. -/
def Obligations.BucketsAndOverflow : Prop :=
  ∀ (s : State) (m : Nat), s.runs .SCH = true →
    (s.runs .NTB = true → s.on Reg.TIM_TIME_SET = true → s.sch.lastBucket = some m → m + 1 ≤ s.ms + 3 →
      s.standby = false → (∀ g, (s.fe g).cal = none ∧ (s.fe g).tune = none) →
      ((∀ v ∈ s.sch.wheel, m + 1 < WEvent.ms v) →
        exec .bucketProcess s = .next ({ s with sch := { s.sch with lastBucket := some (m + 1), liveGrps := [] } })) ∧
      (∀ v, s.sch.wheel = [v] → WEvent.ms v = m + 1 →
        (s.liveEvent v (m + 1) = none →
          (∃ t, exec .bucketProcess s = .next t ∧ (
            t.sch = { s.sch with wheel := [], lastBucket := some (m + 1), liveGrps := [] } ∧
            t.rd Reg.SCH_STALE = min (s.rd Reg.SCH_STALE + 1) 0xFFFF))) ∧
        (∀ (loc : Nat) (e : Entry) (w : Int), s.liveEvent v (m + 1) = some (e, w) → s.hasEntry v.handle loc e →
          s.twn.swapStop = false → s.dlOpen = true → e.state = .active → s.chanLive e.chan = true →
          wmaxUs e.wcls < uncertainty e (wakeDelta e w) →
          (∃ t, exec .bucketProcess s = .next t ∧ (t.sch.wheel = [] ∧ t.sch.lastBucket = some (m + 1) ∧
            t.hasEntry v.handle loc { e with state := .drifted, wheeled := false } ∧
            (t.rd Reg.SCH_SCH_EVT).testBit 0 = true))))) ∧
    (∀ (v : WEvent) (rest : List WEvent), s.sch.ovf = v :: rest → WEvent.ms v < s.bucketNow + 65536 →
      exec .overflowMove s = .next ({ s with sch.ovf := rest, sch.wheel := s.sch.wheel ++ [v] }))

/-- R206: the hourly clamp takes the LAST_CONTACT of an entry more than 2^30 ms back to 2^30 ms back. R227: the probe
computes the next wake of a handle, its uncertainty and whether it fits the class, and moves nothing; it waits while
NTB is stopped (R16). R201, R207: the wakes of a node stand one interval apart, each at its phase within its interval;
the next wake is the least whose P lies 3 ms or more ahead. Forms that complete here: hourlyContactClamp, predCmd. -/
def Obligations.PredictionAndClamp : Prop :=
  (∀ (s : State) (h : BitVec 18) (loc : Nat) (e : Entry), s.hasEntry h loc e →
     (s.ntb.slots = [(loc, { entry := e, bad := false, perr := 0 })] → s.runs .SCH = true → s.runs .NTB = true →
       s.standby = false →
       let now := BitVec.ofNat 32 s.ms
       (∃ t, exec .hourlyContactClamp s = .next t ∧ (t.hasEntry h loc (if 2 ^ 30 < (now - e.lastContact).toNat
         then { e with lastContact := now - BitVec.ofNat 32 (2 ^ 30) } else e)))) ∧
     (s.hostMay .SCH = true → s.rd Reg.SCH_PRED_HANDLE = h.toNat → s.rd Reg.SCH_PRED_STAT ≠ 1 →
       (s.runs .NTB = true → e.wakeInt ≠ 0 →
         let w := wakeMs e (nextWake e s.us)
         let u := uncertainty e (wakeDelta e w)
         (∃ t, exec .predCmd s = .next t ∧ (t.rd Reg.SCH_PRED_STAT = 2 ∧ t.rd Reg.SCH_PRED_U = min u 0xFFFFFFFF ∧
           t.rd Reg.SCH_PRED_FIT = (if u ≤ wmaxUs e.wcls then 1 else 0) ∧
           (t.rd Reg.SCH_PRED_TIME : Int) = (wakeP e w * 1000) % 2 ^ 64 ∧ t.sch = { s.sch with pred := none } ∧
           t.ntb = s.ntb))) ∧
       (s.runs .NTB = true → e.wakeInt = 0 →
         exec .predCmd s = .next ({ (s.numbered 1).wr Reg.SCH_PRED_STAT 3 with sch.pred := none })) ∧
       (s.runs .NTB = false →
         exec .predCmd s = .next ({ (s.numbered 1).wr Reg.SCH_PRED_STAT 1 with sch.pred := some h })))) ∧
  (∀ e : Entry, e.wakeInt ≠ 0 →
     (∀ k : Int, wakeMs e k % e.wakeInt.toNat = e.wakePhase.toNat % e.wakeInt.toNat ∧
       wakeMs e (k + 1) = wakeMs e k + e.wakeInt.toNat) ∧
     (∀ now : Nat, now + 3000 ≤ wakeP e (wakeMs e (nextWake e now)) ∧
       ∀ k, k < nextWake e now → wakeP e (wakeMs e k) < now + 3000))

/-- R230: accept(): a higher frame counter is FRESH and moves FCNT_UL and DSN_UL; the DSN last accepted is a DUPLICATE;
any other frame is a REPLAY; neither of these moves anything. R230, R231, R233, R397: SCH classifies the uplink at its
front. On a standby it counts in STBY_RX alone; a REPLAY counts in REPLAY and its acknowledgement is withdrawn; a FRESH
frame moves its entry's counters, has its effects on entry, try and acknowledgement, is counted and delivered; a
DUPLICATE has these effects and counts in DUP_UL; an UNKNOWN frame counts in UNKNOWN and, undelivered, in UNK_DROP;
with JOIN_AUTO its join request waits for the table write; a frame whose entry is gone is delivered under its copy (the
model's reading of R25 and R192, log entry 31). R233, R181, R186: a join request whose EUI-64 the table does not hold
inserts a JOINING entry under the next free handle, on the plan entry and option of its uplink. Forms that complete
here: ulClassify, joinInsert. -/
def Obligations.UplinkClasses : Prop :=
  (∀ (e : Entry) (fc : Word) (dsn : Byte),
     (e.fcntUl.toNat < fc.toNat → accept e fc dsn = (.fresh, { e with fcntUl := fc, dsnUl := dsn })) ∧
     (¬ e.fcntUl.toNat < fc.toNat → dsn = e.dsnUl → accept e fc dsn = (.duplicate, e)) ∧
     (¬ e.fcntUl.toNat < fc.toNat → dsn ≠ e.dsnUl → accept e fc dsn = (.replay, e)) ∧
     (accept (accept e fc dsn).2 fc dsn).1 ≠ .fresh) ∧
  (∀ (s : State) (u : UlItem) (rest : List UlItem), s.sch.ul = u :: rest → s.runs .SCH = true → s.runs .NTB = true →
     let s' := { s with sch.ul := rest }
     let acts := fun (h : BitVec 18) (e : Entry) =>
       let a := ((State.updEntry s' h (fun _ => e)).contactFrame u h).nodeAck u h
       a.buildAck u (a.entry h)
     (s.quiet = true → exec .ulClassify s = .next (s'.bump Reg.TWN_STBY_RX)) ∧
     (∀ (c : EntryCopy) (e : Entry), s.quiet = false → u.copy = some c → s.entry c.handle = some e →
       ((accept e u.psdu.fc u.psdu.dsn).1 = .replay →
         exec .ulClassify s = .next (((s'.bump Reg.SCH_REPLAY).ev Reg.SCH_AX_EVT 2 88).withdrawAck u.id)) ∧
       ((accept e u.psdu.fc u.psdu.dsn).1 = .fresh →
         exec .ulClassify s = .next (((acts c.handle
            { e with fcntUl := u.psdu.fc, dsnUl := u.psdu.dsn }).wrap Reg.SCH_UL_ACCEPTED).deliver u c.handle)) ∧
       ((accept e u.psdu.fc u.psdu.dsn).1 = .duplicate →
         exec .ulClassify s = .next ((acts c.handle e).bump Reg.SCH_DUP_UL))) ∧
     (∀ c, s.quiet = false → u.copy = some c → s.entry c.handle = none →
       exec .ulClassify s = .next (((s'.wrap Reg.SCH_UL_ACCEPTED).buildAck u none).deliver u c.handle)) ∧
     (s.quiet = false → u.copy = none → s.on Reg.SCH_UNK_DELIVER = false →
       (s.on Reg.SCH_JOIN_AUTO = false ∨ s.joinIe u.psdu = none →
         exec .ulClassify s = .next (((s'.bump Reg.SCH_UNKNOWN).buildAck u none).bump Reg.SCH_UNK_DROP)) ∧
       (s.on Reg.SCH_JOIN_AUTO = true → (s.joinIe u.psdu).isSome = true →
         (∃ t, exec .ulClassify s = .next t ∧ (t.sch.joinQ = s.sch.joinQ ++ [u] ∧ t.sch.ul = rest))))) ∧
  (∀ (s : State) (u : UlItem) (rest : List UlItem) (j : List Byte) (h : BitVec 18) (l : Nat), s.sch.joinQ = u :: rest →
     s.runs .SCH = true → s.runs .NTB = true → s.joinIe u.psdu = some j → u.psdu.eui ≠ 0 →
     u.psdu.eui ≠ BitVec.allOnes 64 → s.probeFinds u.psdu.eui none → (∀ p ∈ s.ntb.dir, p.2.perr = false) →
     s.nextHandle.1 = some h → s.freeIn 0 (s.bucket 0 u.psdu.eui) = some l →
     (∃ t, exec .joinInsert s = .next t ∧ (t.sch.joinQ = rest ∧ t.rd Reg.NTB_LAST_ALLOC = h.toNat ∧
       mget t.ntb.dir h.toNat = some ⟨BitVec.ofNat 19 l, false⟩ ∧
       ∃ e : Entry, mget t.ntb.slots l = some { entry := e, bad := false, perr := 0 } ∧ e.eui = u.psdu.eui ∧ e.handle = h ∧
         e.state = .joining ∧ e.chan = u.rx.chan ∧ e.opt = u.rx.opt ∧ e.fcntUl = u.psdu.fc ∧
         e.lastContact = BitVec.ofNat 32 (u.rx.endTime / 1000000))))

/-- R241, R242: how a try ends for its frame. Acknowledged: COMPLETED, and the frame leaves its queue. Without one, the
frame is offered again until its tries less its NAKs reach REPEAT as SCH read it at dispatch (R25), or its tries reach
15, and is then discarded and counted in DL_REPEAT. -/
def Obligations.TryOutcomes : Prop :=
  ∀ (s : State) (h : BitVec 18) (loc : Nat) (e : Entry) (it : QItem) (hd : Hdr) (rep : Nat), s.hasEntry h loc e →
    mget s.car.nodeQs h.toNat = some { items := [it], read := 1, mark := 0, enqs := (s.nodeQ h).enqs } →
    it.hdr = some hd → hd.wd = false →
    ((s.frameOutcome h hd.seq rep .acked).nodeQ h = emptyQueue ∧
      s.frameOutcome h hd.seq rep .acked = s.releaseNode h 0 (fun _ => stCOMPLETED) 0) ∧
    (hd.tries < 15 → hd.tries - hd.naks < rep →
      (s.frameOutcome h hd.seq rep .noAck).nodeQ h = { items := [it], read := 0, mark := 0, enqs := (s.nodeQ h).enqs }) ∧
    (hd.tries = 15 ∨ rep ≤ hd.tries - hd.naks →
      s.frameOutcome h hd.seq rep .noAck = (s.releaseNode h 0 (fun _ => stCOMPLETED) 1).bump Reg.SCH_DL_REPEAT)

/-- R240: a committed try whose window closes ends without acknowledgement. R220, R221: a beacon slot in service
dispatches its start beacon while that is due, else its next beacon, 2 ms or more ahead, on its plan entry. R249: a
session in service dispatches its head block. Forms that complete here: ackWindowClose, beaconDispatch,
mcBlockDispatch. -/
def Obligations.Dispatches : Prop :=
  ∀ s : State,
    (∀ (h : BitVec 18) (x : Try), s.sch.tries.find? (fun t => t.kind = .dl && t.handle = h && t.committed) = some x →
      s.runs .SCH = true → exec (.ackWindowClose h) s = .next (s.tryEnd x .noAck)) ∧
    (∀ i : Fin 8, s.beaconsRun = true → s.beaconOn i.val = true →
      let first := (s.startAt i.val).getD (s.beaconFrom i.val (s.sys.timeNs + 2000000))
      (∀ t, mget s.sch.bcnLast i.val = some t → t < first) →
      (∃ t, exec (.beaconDispatch i) s = .next t ∧ (∃ x f, t.sch.tries = s.sch.tries ++ [x] ∧
        t.key.tx = txInsert f s.key.tx ∧ mget t.sch.bcnLast i.val = some first ∧
        x.kind = .beacon ∧ x.idx = i.val ∧ x.first = first ∧ x.start = s.sys.startLeft.contains i.val ∧
        x.chan = BitVec.ofNat 8 (s.rdI Reg.SCH_BCN_ENT i.val) ∧ f.first = first ∧ f.kind = .beacon ∧ f.prio = 12))) ∧
    (∀ (i : Fin 8) (it : QItem) (l : List QItem), s.runs .SCH = true → s.quiet = false →
      s.on Reg.TIM_TIME_SET = true → s.serves i.val = true → (s.sysQ (0x18 + i.val)).read = 0 →
      (s.sysQ (0x18 + i.val)).items = it :: l → s.chanLive (BitVec.ofNat 8 (s.rdI Reg.SCH_MC_ENT i.val)) = true →
      let first := s.blockFrom i.val (s.sys.timeNs + 2000000)
      (∀ t, mget s.sch.mcLast i.val = some t → t < first) →
      (∃ t, exec (.mcBlockDispatch i) s = .next t ∧ (∃ x f, t.sch.tries = s.sch.tries ++ [x] ∧
        t.key.tx = txInsert f s.key.tx ∧ x.kind = .mc ∧ x.idx = i.val ∧ x.first = first ∧ f.first = first ∧
        f.body = it.body ∧ mget t.sch.mcLast i.val = some first ∧
        (t.sysQ (0x18 + i.val)).items = it :: l ∧ (t.sysQ (0x18 + i.val)).read = 1)))

/-- R251, R427: an abort command is REFUSED where the handle has no entry, waits while an island on its path is
stopped, and else is COMPLETED at once: a frame that has not been dispatched leaves its queue, counted in ABT_HITS; a
table command that waits is marked ABORTED. While one is pending or in headless mode a write has no effect beyond its
number. Forms that complete here: abtFrame, abtNode, abtTable. -/
def Obligations.Aborts : Prop :=
  ∀ s : State, s.hostMay .SYS = true →
    let h := BitVec.ofNat 18 (s.rd Reg.SYS_ABT_HANDLE)
    (s.rd Reg.SYS_ABT_STAT = 1 ∨ s.headless = true → exec .abtFrame s = .next (s.numbered 1) ∧
      exec .abtNode s = .next (s.numbered 1) ∧ exec .abtTable s = .next (s.numbered 1)) ∧
    (s.rd Reg.SYS_ABT_STAT ≠ 1 → s.headless = false →
      (s.slotOf h = none →
        exec .abtFrame s = .next ((s.numbered 1).wr Reg.SYS_ABT_STAT 3) ∧
        exec .abtNode s = .next ((s.numbered 1).wr Reg.SYS_ABT_STAT 3)) ∧
      (s.slotOf h ≠ none → s.abortPath 1 = false →
        (∃ t, exec .abtFrame s = .next t ∧ (t.sys.abt = some 1 ∧ t.rd Reg.SYS_ABT_STAT = 1)) ∧
        (∃ t, exec .abtNode s = .next t ∧ (t.sys.abt = some 2 ∧ t.rd Reg.SYS_ABT_STAT = 1))) ∧
      (s.slotOf h ≠ none → s.abortPath 1 = true →
        (∃ t, exec .abtFrame s = .next t ∧ (t.rd Reg.SYS_ABT_STAT = 2)) ∧
        (∃ t, exec .abtNode s = .next t ∧ (t.rd Reg.SYS_ABT_STAT = 2)) ∧
        (∀ (it : QItem) (hd : Hdr) (n : BitVec 16), it.hdr = some hd → hd.seq = BitVec.ofNat 16 (s.rd Reg.SYS_ABT_SEQ) →
          mget s.car.nodeQs h.toNat = some { items := [it], read := 0, mark := 0, enqs := n } →
          (∃ t, exec .abtFrame s = .next t ∧ (t.nodeQ h = emptyQueue ∧ t.rd Reg.SYS_ABT_HITS = 1)) ∧
          (∃ t, exec .abtNode s = .next t ∧ (t.nodeQ h = emptyQueue ∧ t.rd Reg.SYS_ABT_HITS = 1)))) ∧
      (s.runs .NTB = true → (∃ t, exec .abtTable s = .next t ∧ (t.rd Reg.SYS_ABT_STAT = 2 ∧
        ∀ c ∈ t.ntb.cmdQ, c.seq = BitVec.ofNat 16 (s.rd Reg.SYS_ABT_SEQ) → c.tunnel = false → c.aborted = true))) ∧
      (s.runs .NTB = false → (∃ t, exec .abtTable s = .next t ∧ (t.sys.abt = some 3 ∧ t.rd Reg.SYS_ABT_STAT = 1))))

/-! ### Queues and rings (R258 to R277, R382 to R384) -/

/-- R272, R273, R258: a transmit descriptor is fetched: FETCH moves on, the descriptor stands on its ring unsettled,
and its frame meets admission with its fields clamped. R16, R258: a frame that is not admitted waits, with POOL_LOW
where the pool lacks room, and is enqueued once CAR admits it. R262, R263: a node frame is enqueued behind the frames
of its node when its host sequence is later than theirs, with QNE set; one that is not is refused as SEQ_ORDER; one
whose handle has no entry as NO_ENTRY. Forms that complete here: txDescFetch, admitRetry. -/
def Obligations.TransmitPath : Prop :=
  (∀ s : State,
     (∀ (r : Fin 16) (desc buf : List Byte), s.ringReady r.val = true → s.headless = false →
       (∀ w ∈ s.car.admitQ, w.hdr.ring ≠ r.val) →
       (∃ t, exec (.txDescFetch r desc buf) s = .next t ∧ (∃ (w : WaitItem) (x : TxSlot),
         t = ({ s.wrB Reg.HST_RING_FETCH 0 r.val (s.rdB Reg.HST_RING_FETCH 0 r.val + 1) with
           hst.txSlots := s.hst.txSlots ++ [(r.val, x)] } : State).postItem w ∧
         x.idx = BitVec.ofNat 16 (s.rdB Reg.HST_RING_FETCH 0 r.val) ∧ x.done = none ∧ w.hdr.ring = r.val ∧
         w.hdr.desc = x.idx ∧ x.tunSeq = none ∧ w.hdr.tries = 0 ∧ w.hdr.prio ≤ 11 ∧ 1 ≤ w.body.length ∧
         w.body.length ≤ max 1 (2047 - s.fcsLen) ∧ (∀ i < w.body.length, w.body.getD i 0 = buf.getD i 0)))) ∧
     (∀ w : WaitItem, s.admits w = false →
       (s.runs .CAR = true → s.roomFor w = false →
         s.offerItem w = ({ s with car.admitQ := s.car.admitQ ++ [w] } : State).ev Reg.CAR_CAR_EVT 0 104) ∧
       (s.runs .CAR = false ∨ s.roomFor w = true →
         s.offerItem w = ({ s with car.admitQ := s.car.admitQ ++ [w] } : State))) ∧
     (∀ (l : List WaitItem) (w : WaitItem) (l' : List WaitItem), s.car.admitQ = l ++ w :: l' →
       (∀ v ∈ l, s.admits v = false) → s.admits w = true →
       exec .admitRetry s = .next (({ s with car.admitQ := l ++ l' } : State).enqueueItem w))) ∧
  (∀ (s : State) (h : BitVec 18) (hd : Hdr) (b : List Byte), s.sys.fences = [] →
     (mget s.ntb.dir h.toNat = none → s.enqueueNode h hd b = (s.settle hd stABORTED 7).bump Reg.CAR_NO_ENTRY_TX) ∧
     (∀ (loc : Nat) (e : Entry), s.hasEntry h loc e → s.runs .NTB = true →
       ((s.nodeQ h).items = [] → ∃ cells e', ((s.enqueueNode h hd b).nodeQ h).items =
         [{ hdr := some hd, body := b, cells := cells, enq := (s.nodeQ h).enqs, note := .plain }] ∧
         (s.enqueueNode h hd b).hasEntry h loc e' ∧ e'.qne = true) ∧
       (∀ (l : List QItem) (x : QItem) (y : Hdr), (s.nodeQ h).items = l ++ [x] → x.hdr = some y →
         (later hd.seq y.seq = false → s.enqueueNode h hd b = (s.settle hd stABORTED 6).bump Reg.CAR_SEQ_ORDER) ∧
         (later hd.seq y.seq = true → ∃ cells, ((s.enqueueNode h hd b).nodeQ h).items =
           (s.nodeQ h).items ++
             [{ hdr := some hd, body := b, cells := cells, enq := (s.nodeQ h).enqs, note := .plain }] ∧
           ∃ a z, (s.enqueueNode h hd b).hasEntry h loc { e with qne := true, qHead := a, qTail := z }))))

/-- R272, R274, R277, R30: the oldest descriptor of a ring, once settled, gets its completion in host memory, or as a
TX_DONE record of the tunnel; an unsettled one holds the ring's completions back. R267, R276: an item of a receive
queue goes to the buffer at FETCH, with its completion, and leaves its queue. R270: a read of a pop window takes the
oldest record of its queue; on an empty queue it sets UNDERRUN and shows the bytes last read. R34: while CAR is stopped
the read completes with 0x00 and takes nothing. Forms that complete here: txCompletionWrite, rxDeliver, tevPop, sevPop.
-/
def Obligations.RingDeliveries : Prop :=
  (∀ (s : State) (r : Fin 16) (x : TxSlot), s.hst.txSlots.find? (fun p => p.1 = r.val) = some (r.val, x) →
     (x.done = none → exec (.txCompletionWrite r) s = .next s) ∧
     (∀ c, x.done = some c →
       let s' := { s with hst.txSlots := s.hst.txSlots.eraseP (fun p => p.1 = r.val) }
       (x.tunSeq = none → s.dma = true →
         (∃ t, exec (.txCompletionWrite r) s = .next t ∧ (t = State.ringDone (s'.emit (.txCompl r.val x.idx (s.slotAddr r.val x.idx + 24) c)) r.val ∧
           t.rdB Reg.HST_RING_COMPL 0 r.val = (s.rdB Reg.HST_RING_COMPL 0 r.val + 1) % 65536))) ∧
       (∀ q, x.tunSeq = some q → exec (.txCompletionWrite r) s = .next ({ s' with eth.outQ := s.eth.outQ ++ [(0x92, leBytes 4 q.toNat ++ c.bytes)] })))) ∧
  (∀ (s : State) (r : Fin 16) (buf : Word64) (q : Nat) (it : QItem) (l : List QItem),
     s.ringReady (16 + r.val) = true → s.runs .CAR = true → s.headless = false → s.rxPick r.val = some q →
     (s.sysQ q).items = it :: l →
     (∃ t, exec (.rxDeliver r buf) s = .next t ∧ ((t.sysQ q).items = l ∧ mget t.hst.rot r.val = some q ∧
       t.rdB Reg.HST_RING_FETCH 0 (16 + r.val) = (s.rdB Reg.HST_RING_FETCH 0 (16 + r.val) + 1) % 65536 ∧
       t.rdB Reg.HST_RING_COMPL 0 (16 + r.val) = (s.rdB Reg.HST_RING_COMPL 0 (16 + r.val) + 1) % 65536 ∧
       Out.rxCompl (16 + r.val) (BitVec.ofNat 16 (s.rdB Reg.HST_RING_FETCH 0 (16 + r.val)))
         (s.slotAddr (16 + r.val) (BitVec.ofNat 16 (s.rdB Reg.HST_RING_FETCH 0 (16 + r.val))) + 8)
         (rxCompletion it (s.rd Reg.SYS_HIF_SEL)) ∈ t.out ∧
       (∀ h, it.hdr = some h → Out.rxData (16 + r.val) (BitVec.ofNat 16 (s.rdB Reg.HST_RING_FETCH 0 (16 + r.val))) buf
         it.body ∈ t.out)))) ∧
  (∀ s : State,
     (s.hostReads .CAR = true →
       (∀ (it : QItem) (l : List QItem), (s.sysQ 0x12).items = it :: l → (∃ t, exec .tevPop s = .next t ∧ (
         (t.sysQ 0x12).items = l ∧ t.hostData = it.body.getD 0 0 ∧
         t.car.tevLast = (List.range 16).map (fun i => it.body.getD i 0) ∧ (s.car.upsets = [] → t.regs = s.regs)))) ∧
       (∀ (it : QItem) (l : List QItem), (s.sysQ 0x13).items = it :: l → (∃ t, exec .sevPop s = .next t ∧ (
         (t.sysQ 0x13).items = l ∧ t.hostData = it.body.getD 0 0 ∧
         t.car.sevLast = (List.range 16).map (fun i => it.body.getD i 0) ∧ (s.car.upsets = [] → t.regs = s.regs)))) ∧
       ((s.sysQ 0x12).items = [] → (∃ t, exec .tevPop s = .next t ∧ (t.rd Reg.CAR_TEV_UNDERRUN = 1 ∧
         t.car.tevLast = s.car.tevLast ∧ t.hostData = s.car.tevLast.headD 0))) ∧
       ((s.sysQ 0x13).items = [] → (∃ t, exec .sevPop s = .next t ∧ (t.rd Reg.CAR_SEV_UNDERRUN = 1 ∧
         t.car.sevLast = s.car.sevLast ∧ t.hostData = s.car.sevLast.headD 0)))) ∧
     (s.hostReads .CAR = false → s.sys.linkUp = true →
       exec .tevPop s = .next ({ s with hostData := 0 }) ∧
       exec .sevPop s = .next ({ s with hostData := 0 })))

/-- R382, R383, R384: a doorbell sets PROD, held to one less than the ring's slots past COMPL, a clamp counted;
enabling a ring starts it at zero; a DMA error disables it, marks it and is counted; a table descriptor goes to NTB
with its index as its sequence. Forms that complete here: doorbell, ringEnWrite, dmaError, tblDescFetch. -/
def Obligations.RingControl : Prop :=
  ∀ s : State,
    (∀ (ring : BitVec 5) (tbl : Bool) (prod : BitVec 16), s.hostMay .HST = true →
      let r := if tbl then 0x20 else ring.toNat
      let c := s.rdB Reg.HST_RING_COMPL 0 r
      let n := s.ringSize r - 1
      let past := n < (prod.toNat + 65536 - c) % 65536
      (∃ t, exec (.doorbell ring tbl prod) s = .next t ∧ (
        t.rdB Reg.HST_RING_PROD 0 r = (if past then (c + n) % 65536 else prod.toNat) ∧
        t.rd Reg.HST_DB_CLAMP = (if past then min (s.rd Reg.HST_DB_CLAMP + 1) 65535 else s.rd Reg.HST_DB_CLAMP)))) ∧
    (∀ en : Bool, s.hostMay .HST = true →
      let r := s.rd Reg.HST_RING_SEL
      (en = false → exec (.ringEnWrite en) s = .next ((s.numbered 1).wrB Reg.HST_RING_EN 0 r 0)) ∧
      (en = true → s.rdB Reg.HST_RING_EN 0 r ≠ 1 → (∃ t, exec (.ringEnWrite en) s = .next t ∧ (
        t.rdB Reg.HST_RING_EN 0 r = 1 ∧ t.rdB Reg.HST_RING_FETCH 0 r = 0 ∧ t.rdB Reg.HST_RING_COMPL 0 r = 0 ∧
        t.rdB Reg.HST_RING_PROD 0 r = 0)))) ∧
    (∀ ring : BitVec 6, ring.toNat ≤ 32 → s.dma = true → (∃ t, exec (.dmaError ring) s = .next t ∧ (
      t.rdB Reg.HST_RING_EN 0 ring.toNat = 0 ∧ t.rdB Reg.HST_RING_ERR 0 ring.toNat = 1 ∧
      t.rd Reg.HST_DMA_ERR = min (s.rd Reg.HST_DMA_ERR + 1) 65535 ∧
      (t.rd Reg.HST_HST_EVT).testBit 1 = true))) ∧
    (∀ rec : List Byte, s.ringReady tblRing = true → s.headless = false → s.ntb.cmdQ = [] →
      1 ≤ leAt rec 0 1 → leAt rec 0 1 ≤ 6 → (∃ t, exec (.tblDescFetch rec) s = .next t ∧ (
        t.ntb.cmdQ = [{ seq := BitVec.ofNat 16 (s.rdB Reg.HST_RING_FETCH 0 tblRing), bytes := rec, tunnel := false,
                        aborted := false }])))

/-! ### Keys, sessions and attestation (R286 to R334) -/

/-- R296, R299: an uplink at KEY goes on to SCH, with the epoch that secured it, only with a network secret, at a level
that UL_SEC_MIN admits, and with a MIC under the link key of the epoch or of the epoch in grace; any other is counted
and its acknowledgement withdrawn. Forms that complete here: keyUlCheck. -/
def Obligations.UplinkChecks : Prop :=
  ∀ (s : State) (u : UlItem) (rest : List UlItem), s.key.ul = u :: rest → s.runs .KEY = true → s.runs .SCH = true →
    let s' := { s with key.ul := rest }
    let fits := ¬ (u.psdu.level < s.rd Reg.KEY_UL_SEC_MIN) ∧ u.psdu.level ≠ 4
    (s.rd Reg.KEY_KSTATE ≠ 1 → exec .keyUlCheck s = .next (State.withdrawAck (s'.bump Reg.KEY_AUTH_NOKEY) u.id)) ∧
    (s.rd Reg.KEY_KSTATE = 1 → ¬ fits →
      exec .keyUlCheck s = .next (State.withdrawAck (s'.bump Reg.KEY_AUTH_LEVEL) u.id)) ∧
    (s.rd Reg.KEY_KSTATE = 1 → fits → u.psdu.mic = some (.link s.aon.store.net s.aon.store.epoch u.psdu.eui) →
      exec .keyUlCheck s = .next ({ s' with
        sch.ul := s.sch.ul ++ [{ u with epoch := s.aon.store.epoch, auth := .ok }] })) ∧
    (∀ net e, s.rd Reg.KEY_KSTATE = 1 → fits → u.psdu.mic ≠ some (.link s.aon.store.net s.aon.store.epoch u.psdu.eui) →
      s.key.prevEpoch = some (net, e) → u.psdu.mic = some (.link net e u.psdu.eui) →
      exec .keyUlCheck s = .next ({ s'.bump Reg.KEY_GRACE_UL with
        sch.ul := s.sch.ul ++ [{ u with epoch := e, auth := .ok }] })) ∧
    (s.rd Reg.KEY_KSTATE = 1 → fits → u.psdu.mic = none →
      exec .keyUlCheck s = .next (State.withdrawAck (s'.bump Reg.KEY_AUTH_FAIL) u.id))

/-- R298, R300, R303: an item at KEY of the epoch in force, for which a key is held, goes on to PHY secured under the
next frame counter, which moves on; without a key, of an earlier epoch, or with the counter exhausted, it is not sent,
and an acknowledgement leaves its group's burst too (R237); a beacon whose group identifier is 0xFF goes on unsecured.
R292, R298: the key is the node's link key or the group's, the level DL_SEC, of an acknowledgement 5. Forms that
complete here: keySecure. -/
def Obligations.Securing : Prop :=
  ∀ (s : State) (f : TxItem) (rest : List TxItem), s.key.tx = f :: rest → s.runs .KEY = true → s.runs .PHY = true →
    let s' := { s with key.tx := rest }
    let open_ := f.kind = .beacon ∧ f.gid = 0xFF
    (f.fence = true → exec .keySecure s = .next ((s'.undeclare f).notSent f false)) ∧
    (f.fence = false → open_ →
      exec .keySecure s = .next (State.mapEnter { s' with phy.tx := txInsert f s.phy.tx } f)) ∧
    (f.fence = false → ¬ open_ → s.hasKey f = true → f.epoch = s.aon.store.epoch → s.rd Reg.KEY_FC_NEXT < 0xFFFFFFFF →
      (∃ t, exec .keySecure s = .next t ∧ (t.key.tx = rest ∧ t.rd Reg.KEY_FC_NEXT = s.rd Reg.KEY_FC_NEXT + 1 ∧
        ∃ g, t.phy.tx = txInsert g s.phy.tx ∧ g.secured = true ∧ g.kind = f.kind ∧ g.grp = f.grp ∧ g.first = f.first ∧
          g.copy = { f.copy with fcnt := BitVec.ofNat 32 (s.rd Reg.KEY_FC_NEXT) } ∧ g.key = s.keyOf f ∧
          (f.kind = .ack → g.level = 5) ∧ (f.kind ≠ .ack → g.level = s.rd Reg.KEY_DL_SEC) ∧
          (f.kind = .dl ∨ f.kind = .ack → g.key = some (.link s.aon.store.net s.aon.store.epoch f.eui))))) ∧
    (f.fence = false → ¬ open_ → s.hasKey f = false →
      exec .keySecure s = .next (((s'.bump Reg.KEY_NOKEY_TX).undeclare f).notSent f false)) ∧
    (f.fence = false → ¬ open_ → s.hasKey f = true → f.epoch ≠ s.aon.store.epoch →
      exec .keySecure s = .next ((s'.undeclare f).epochDrop f)) ∧
    (f.fence = false → ¬ open_ → s.hasKey f = true → f.epoch = s.aon.store.epoch →
      s.rd Reg.KEY_FC_NEXT = 0xFFFFFFFF →
      exec .keySecure s = .next (((s'.bump Reg.KEY_FC_EXHAUST).undeclare f).notSent f false))

/-- R294, R296: CHANGE is refused without a network secret, without changes left, or while a change or a message is
under way; else the epoch steps over 0, FC_NEXT starts at 0 and the store is written. When every egress point has
acknowledged, the change is COMPLETED and the old epoch is in grace; a group acknowledges once no frame of the old
epoch that has passed its test is still to begin (R31); the grace period ends the old epoch. Forms that complete here:
epochCmd, epochComplete, graceExpire. -/
def Obligations.EpochChange : Prop :=
  ∀ s : State,
    (s.hostMay .KEY = true →
      (s.rd Reg.KEY_KSTATE ≠ 1 ∨ s.aon.store.left = 0 ∨ s.key.epochPend = true ∨ s.key.msgQ ≠ [] →
        exec .epochCmd s = .next ((s.numbered 1).wr Reg.KEY_EPOCH_STAT 3)) ∧
      (s.rd Reg.KEY_KSTATE = 1 → s.aon.store.left ≠ 0 → s.key.epochPend = false → s.key.msgQ = [] →
        (∃ t, exec .epochCmd s = .next t ∧ (t.rd Reg.KEY_EPOCH_STAT = 1 ∧ t.rd Reg.KEY_FC_NEXT = 0 ∧
          t.aon.store.epoch = nextEpoch s.aon.store.epoch ∧ t.aon.store.epoch ≠ 0 ∧
          t.aon.store.left = s.aon.store.left - 1 ∧ t.aon.store.net = s.aon.store.net ∧ t.key.epochPend = true ∧
          t.key.egress = t.aon.store.epoch ∧ t.aon.store.good = true ∧
          ∃ c ∈ t.nvm.copies, c.store = t.aon.store ∧ some c.slot = t.nvm.lastCopy ∧ c.key = s.nvmKey s.key.lc)))) ∧
    (∀ g : Grp, s.oldAhead g = true → exec .epochComplete s = .next s) ∧
    (s.key.epochPend = true → (∀ g : Grp, s.oldAhead g = false) → s.runs .FEL = true → s.runs .FEH = true → s.runs .FEI = true → s.runs .ETH = true →
      (∃ t, exec .epochComplete s = .next t ∧ (t.rd Reg.KEY_EPOCH_STAT = 2 ∧ t.key.epochPend = false ∧
        (t.rd Reg.KEY_KEY_EVT).testBit 1 = true ∧
        t.key.prevEpoch = (if s.rd Reg.KEY_GRACE_S = 0 then none else s.key.epochOld)))) ∧
    exec .graceExpire s = .next ({ s with key.prevEpoch := none })

/-- R306: a key-update message that fails a check is refused with the reason of the first that it fails, and changes
neither store nor OTP. Forms that complete here: kuDeploy, kuKeys, kuRmaAuth, kuScrap. -/
def Obligations.KeyUpdateRefusals : Prop :=
  ∀ (s : State) (r : ReplyTo) (m : KuMsg) (rest : List (ReplyTo × KuMsg)) (why : Byte),
    s.key.msgQ = (r, m) :: rest → s.runs .KEY = true →
    let s' := { s with key.msgQ := rest }
    let refused := fun t : State => t = State.kuRefuse s' r why ∧ t.aon = s.aon ∧ t.otp = s.otp ∧ t.nvm = s.nvm
    (m.kind = 1 → s.kuCheck m KeyStore.empty = some why → (∃ t, exec .kuDeploy s = .next t ∧ refused t)) ∧
    (m.kind = 2 → s.kuCheck m s.aon.store = some why → (∃ t, exec .kuKeys s = .next t ∧ refused t)) ∧
    (m.kind = 3 → s.kuCheck m s.aon.store = some why → (∃ t, exec .kuRmaAuth s = .next t ∧ refused t)) ∧
    (m.kind = 4 → s.kuCheck m s.aon.store = some why → (∃ t, exec .kuScrap s = .next t ∧ refused t))

/-- R283, R305, R307, R308: a message that passes every check takes effect. KEYS: its store is in place with a copy in
the NVM, the latch is cleared. DEPLOY: the owner's root and key are in OTP, the state bits of DEPLOYED are blown, the
store is the message's, and the device resets with RST_CAUSE 6. RMA_AUTH and SCRAP: their bits are blown, store and
copies are gone, and the device resets. Outside TEST the counter of OTP is the message's. Forms that complete here:
kuKeys, kuDeploy, kuRmaAuth, kuScrap. -/
def Obligations.KeyUpdateEffects : Prop :=
  ∀ (s : State) (r : ReplyTo) (m : KuMsg) (rest : List (ReplyTo × KuMsg)),
    s.key.msgQ = (r, m) :: rest → s.runs .KEY = true →
    let ctr := if s.key.lc = 1 then s.otp.kuCtr else m.ctr
    let moved := fun (bits : BitVec 5) (t : State) =>
      t.otp = { s.otp with kuCtr := ctr, lc0 := s.otp.lc0 ||| bits, lc1 := s.otp.lc1 ||| bits, lc2 := s.otp.lc2 ||| bits } ∧
      t.aon.store = KeyStore.empty ∧ t.nvm.copies = [] ∧ t.nvm.kuMove = none ∧ t.rd Reg.SYS_RST_CAUSE = 6 ∧
      t.sys.hold = .none
    (m.kind = 2 → s.kuCheck m s.aon.store = none → (∃ t, exec .kuKeys s = .next t ∧ (
      t.aon.latch = false ∧ t.aon.src = 0 ∧ t.otp = { s.otp with kuCtr := ctr } ∧ t.aon.store.good = true ∧
      t.aon.store.kuCtr = m.ctr ∧ t.aon.store.groups = (kuGroups m s.aon.store).getD [] ∧
      (∀ n, m.net = some n → t.aon.store.net = n ∧ t.aon.store.sgen = s.aon.store.sgen + 1 ∧ t.aon.store.left = 254) ∧
      (m.net = none → t.aon.store.net = s.aon.store.net ∧ t.aon.store.epoch = s.aon.store.epoch) ∧
      ∃ c ∈ t.nvm.copies, c.store = t.aon.store ∧ c.key = s.nvmKey s.key.lc))) ∧
    (m.kind = 1 → s.kuCheck m KeyStore.empty = none → (∃ t, exec .kuDeploy s = .next t ∧ (
      t.otp.ownerRoot = s.ownerSlot m ∧ t.otp.ownerPub = some m.ownerPub ∧ t.otp.ownerSet = m.ownerSet ∧
      t.otp.kuCtr = ctr ∧ t.otp.lc0 = s.otp.lc0 ||| 4 ∧ t.otp.lc1 = s.otp.lc1 ||| 4 ∧ t.otp.lc2 = s.otp.lc2 ||| 4 ∧
      t.rd Reg.SYS_RST_CAUSE = 6 ∧ t.aon.store.good = true ∧ t.aon.store.kuCtr = m.ctr ∧
      ∃ c, t.nvm.copies = [c] ∧ c.store = t.aon.store ∧ c.key = s.nvmKey 3))) ∧
    (m.kind = 3 → s.kuCheck m s.aon.store = none → (∃ t, exec .kuRmaAuth s = .next t ∧ (moved 0b01100) t)) ∧
    (m.kind = 4 → s.kuCheck m s.aon.store = none → (∃ t, exec .kuScrap s = .next t ∧ (moved 0b10000) t))

/-- R310, R312, R314: an enabled tamper event latches its sources and counts; in a running device that does not scrap
on tamper the store, the raw root, the PUF key and the copies in the NVM are gone, KSTATE reads 3 and the event is
raised; with SCRAP_ON_TAMPER the SCRAP bit is blown. The key operation under way never releases its result: an uplink
counts AUTH_NOKEY, a message is gone, a signature is abandoned. At stages 1 to 6 the boot halts; in the halted state
the store goes. Held in reset, the always-on domain alone acts. Forms that complete here: tamperEvent. -/
def Obligations.TamperDestroys : Prop :=
  ∀ (s : State) (src : BitVec 6) (kop : Bool),
    let m := src &&& BitVec.ofNat 6 (s.rd Reg.KEY_TAMPER_EN)
    (s.sys.hold = .none → s.halted = false → 7 ≤ s.rd Reg.SYS_BOOT_STAGE → m ≠ 0 →
      (∃ t, exec (.tamperEvent src kop) s = .next t ∧ (t.aon.latch = true ∧ t.aon.src = s.aon.src ||| m ∧
        t.aon.cnt.toNat = min 255 (s.aon.cnt.toNat + 1) ∧ t.aon.when_ = 3 ∧
        t.aon.kop = (kop || s.key.attest.isSome) ∧ t.aon.store = KeyStore.empty ∧ t.key.rawRoot = none ∧
        t.key.pufKey = none ∧ t.nvm.copies = []))) ∧
    (s.sys.hold = .none → s.halted = false → 7 ≤ s.rd Reg.SYS_BOOT_STAGE → m ≠ 0 →
      (s.on Reg.KEY_SCRAP_ON_TAMPER = false → (∃ t, exec (.tamperEvent src kop) s = .next t ∧ (
        t.rd Reg.KEY_KSTATE = 3 ∧ (t.rd Reg.KEY_KEY_EVT).testBit 0 = true ∧ t.otp = s.otp ∧ t.key.attest = none ∧
        (∀ u l, kop = true → s.key.tx = [] → s.key.ul = u :: l → t.key.ul = l ∧
          t.rd Reg.KEY_AUTH_NOKEY = (s.bump Reg.KEY_AUTH_NOKEY).rd Reg.KEY_AUTH_NOKEY) ∧
        (∀ p l, kop = true → s.key.tx = [] → s.key.ul = [] → s.key.msgQ = p :: l → t.key.msgQ = l ∧
          t.rd Reg.KEY_KU_STAT = 0)))) ∧
      (s.on Reg.KEY_SCRAP_ON_TAMPER = true → (∃ t, exec (.tamperEvent src kop) s = .next t ∧ (
        t.otp.lc0 = s.otp.lc0 ||| 16 ∧ t.rd Reg.SYS_RST_CAUSE = 6)))) ∧
    (s.sys.hold = .none → s.halted = false → s.rd Reg.SYS_BOOT_STAGE < 7 → m ≠ 0 →
      (∃ t, exec (.tamperEvent src kop) s = .next t ∧ (t.aon.latch = true ∧ t.aon.src = s.aon.src ||| m ∧
        t.aon.store = KeyStore.empty ∧ t.rd Reg.SYS_BOOT_STAGE = 0xF ∧ t.rd Reg.SYS_BOOT_ERR = 9 ∧
        (4 ≤ s.rd Reg.SYS_BOOT_STAGE → t.nvm.copies = []) ∧ (s.rd Reg.SYS_BOOT_STAGE < 4 → t.nvm = s.nvm)))) ∧
    (s.sys.hold = .none → s.halted = true → m ≠ 0 →
      (∃ t, exec (.tamperEvent src kop) s = .next t ∧ (t.aon.latch = true ∧ t.aon.src = s.aon.src ||| m ∧
        t.aon.store = KeyStore.empty ∧ t.key.rawRoot = none ∧ t.nvm = s.nvm ∧
        t.rd Reg.SYS_BOOT_STAGE = s.rd Reg.SYS_BOOT_STAGE))) ∧
    (s.sys.hold ≠ .none →
      let m' := m &&& (if s.sys.hold = .porst then 3 else 0x3F)
      m' ≠ 0 → exec (.tamperEvent src kop) s = .next ({ s with
        aon := { s.aon with latch := true, src := s.aon.src ||| m', cnt := BitVec.ofNat 8 (min 255 (s.aon.cnt.toNat + 1)),
                            when_ := 2, kop := false, store := KeyStore.empty } }))

/-- R322 to R328: the record at the front of SYS's queue. OPEN with no session open, a legal KIND and LEN, after SEAL,
opens one at block 0 under the next number; with one open it is answered BUSY with the session's number, NEXT and
owner, and counted. A record of no session, or under another source, is refused as R328 says. R324, R325, R326: on the
open session. DATA of the next block, of the right length and checksum, stands in the staging area and moves NEXT;
COMMIT of a complete image whose staged header agrees programs COMMITTED and ends the session as COMPLETED; ABORT ends
it as ABORTED. R326, R329: an idle session ends as ABORTED; UPD_KILL ends the open session and reads ABORTED; with none
it reads ALREADY_SENT within the page time of a COMMITTED program (the model's choice, log entry 35), else NONE. Forms
that complete here: sessionOpen, sessionData, sessionCommit, sessionAbort, sessionIdleExpire, updKill. -/
def Obligations.UpdateSessions : Prop :=
  (∀ (s : State) (r : ReplyTo) (rec : SessRec), s.sys.sessQ = [(r, rec)] →
     (rec.op = 1 → s.sys.sess = none → s.live = true → (s.rd Reg.SYS_BOOT_STAGE ≠ 0xE ∨ r.src = .mailbox) →
       rec.kind.toNat = 1 ∨ rec.kind.toNat = 2 → lenOk rec.kind.toNat rec.value.toNat = true →
       (∃ t, exec .sessionOpen s = .next t ∧ (t.sys.sessQ = [] ∧ t.stgByte = 0x7F ∧
         t.sys.sessNo = (s.sys.sessNo + 1) % 4096 ∧
         ∃ x, t.sys.sess = some x ∧ x.src = r.src ∧ x.num = s.sys.sessNo ∧ x.kind = rec.kind.toNat ∧
           x.len = rec.value.toNat ∧ x.next = 0))) ∧
     (∀ x, rec.op = 1 → s.sys.sess = some x → (∃ t, exec .sessionOpen s = .next t ∧ (t.sys.sess = some x ∧
       t = State.respond ((({ s with sys.sessQ := [] } : State).bump Reg.SYS_UPD_BUSY_CNT).ev Reg.SYS_UPD_EVT 1 18) r
         (respBytes 1 stBUSY x.num x.next 0 (BitVec.ofNat 8 (srcCode x.src)) (s.idleLeft x) [])))) ∧
     (∀ why, s.sessFor r rec = .error why →
       (rec.op = 2 → ∀ ok, exec (.sessionData ok) s = .next (({ s with sys.sessQ := [] } : State).sessRefuse r rec why)) ∧
       (rec.op = 3 → exec .sessionCommit s = .next (({ s with sys.sessQ := [] } : State).sessRefuse r rec why)))) ∧
  (∀ (s : State) (r : ReplyTo) (rec : SessRec) (x : Sess), s.sys.sessQ = [(r, rec)] → s.sessFor r rec = .ok x →
     s.sys.sess = some x →
     (rec.op = 2 → rec.block % 2048 = x.next → 4096 * x.next < x.len → rec.blen = min 4096 (x.len - 4096 * x.next) →
       rec.data.length = rec.blen → crc32 rec.data = rec.value →
       (∃ t, exec (.sessionData true) s = .next t ∧ (
         (∃ y, t.sys.sess = some y ∧ y.next = x.next + 1 ∧ y.num = x.num ∧ y.lastCrc = rec.value) ∧
         t.nvm.bytes = nvmProgs (if x.next % 16 = 0 then
           nvmErase s.nvm.bytes (0x810000 + 4096 * x.next) 0x10000 else s.nvm.bytes) (0x810000 + 4096 * x.next) rec.data))) ∧
     (rec.op = 2 → rec.block % 2048 = x.next → 4096 * x.next < x.len → rec.blen = min 4096 (x.len - 4096 * x.next) →
       rec.data.length = rec.blen → crc32 rec.data = rec.value →
       (∃ t, exec (.sessionData false) s = .next t ∧ (t.sys.sess = none ∧ t.sys.sessPast = some (x.num, false)))) ∧
     (rec.op = 3 → x.len ≤ x.next * 4096 → s.stagedAgrees x = true → (∃ t, exec .sessionCommit s = .next t ∧ (
       t.sys.sess = none ∧ t.sys.sessPast = some (x.num, true) ∧ t.nvm.bytes = nvmProg s.nvm.bytes 0x100 0x3F ∧
       t.sys.commitAt = some s.sys.uptime))) ∧
     (rec.op = 3 → x.next * 4096 < x.len → exec .sessionCommit s = .next (({ s with sys.sessQ := [] } : State).sessRefuse r rec 6)) ∧
     (rec.op = 4 → (∃ t, exec .sessionAbort s = .next t ∧ (
       t.sys.sess = none ∧ t.sys.sessPast = some (x.num, false) ∧ t.nvm.bytes = s.nvm.bytes)))) ∧
  (∀ s : State,
     (∀ x, s.sys.sess = some x → s.sys.sessQ = [] → (∃ t, exec .sessionIdleExpire s = .next t ∧ (t = s.endSess x false ∧
       t.sys.sess = none ∧ t.sys.sessPast = some (x.num, false) ∧ t.rd Reg.SYS_UPD_LAST = 2 ∧
       t.rd Reg.SYS_UPD_OWNER = 0 ∧ (t.rd Reg.SYS_UPD_EVT).testBit 0 = true))) ∧
     (s.hostMay .SYS = true →
       (∀ x, s.sys.sess = some x → (∃ t, exec .updKill s = .next t ∧ (t.sys.sess = none ∧ t.rd Reg.SYS_UPD_KILL_ST = 1))) ∧
       (s.sys.sess = none → s.sys.commitAt = none → exec .updKill s = .next ((s.numbered 1).wr Reg.SYS_UPD_KILL_ST 0)) ∧
       (∀ c, s.sys.sess = none → s.sys.commitAt = some c → exec .updKill s = .next ((s.numbered 1).wr Reg.SYS_UPD_KILL_ST (if s.sys.uptime < c + 43750 then 2 else 0)))))

/-- R333, R334: an ATTEST that nothing refuses takes a token and the next leaf, and a signature is under way; a refused
one is answered with its reason. R334: the end of a signature counts it and answers. R333: a tick adds a token, up to
16. R330: after stage 6 a device in PROVISION without slot 4 draws its seeds, stores them in slot 4 and burns ATT_ROOT;
a device whose ATT_ROOT is burnt keeps it. A rebuilt cache makes ATT_READY. Forms that complete here: attest,
attSignDone, attTokenTick, attKeygen, attCacheRebuildDone. -/
def Obligations.Attestation : Prop :=
  (∀ s : State,
     (∀ (r : ReplyTo) (rec : SessRec), s.sys.sessQ = [(r, rec)] → rec.op = 0x10 →
       (s.attRefusal r = none → (∃ t, exec .attest s = .next t ∧ (t.rd Reg.KEY_ATT_STAT = 1 ∧
         t.rd Reg.KEY_ATT_TOKENS = (s.rd Reg.KEY_ATT_TOKENS - 1) % 32 ∧
         t.rd Reg.KEY_ATT_NEXT = (s.rd Reg.KEY_ATT_NEXT + 1) % 2 ^ 21 ∧
         t.key.attest = some { reply := r, nonce := rec.nonce, leaf := s.rd Reg.KEY_ATT_NEXT } ∧
         (s.rd Reg.KEY_ATT_NEXT % 65536 = 0 → t.otp.attSeg = s.otp.attSeg + 1)))) ∧
       (∀ why, s.attRefusal r = some why → exec .attest s = .next (({ s with sys.sessQ := [] } : State).attFail r 3 stREFUSED why))) ∧
     (∀ a, s.key.attest = some a → (∃ t, exec .attSignDone s = .next t ∧ (t.key.attest = none ∧ t.otp = s.otp ∧
       t.nvm = s.nvm ∧ t.rd Reg.KEY_ATT_STAT = 2 ∧
       t.rd Reg.KEY_ATT_SIGNED = (s.bump Reg.KEY_ATT_SIGNED).rd Reg.KEY_ATT_SIGNED ∧
       (∀ k, s.otp.slot4 = some k → a.reply.src = .mailbox → s.hst.mbx = true →
         Out.mbxRsp (BitVec.ofNat 64 (s.rd Reg.HST_MBX_RSP)) (respBytes 0x10 stCOMPLETED 0 0 0 0 0
           (s.report a ++ attSig k a.leaf (s.report a) ++ s.attPub)) ∈ t.out)))) ∧
     (s.sys.hold = .none → s.halted = false → (∃ t, exec .attTokenTick s = .next t ∧ (
       t.rd Reg.KEY_ATT_TOKENS = min 16 (s.rd Reg.KEY_ATT_TOKENS + 1))))) ∧
  (∀ s : State,
     (s.rd Reg.SYS_BOOT_STAGE = 6 → s.sys.hold = .none → s.needsKeygen = true → (∃ t, exec .attKeygen s = .next t ∧ (
       t.otp.slot4.isSome = true ∧ t.otp.attRoot.isSome = true ∧ t.nvm.cache = true ∧
       (∀ x, s.otp.slot4 = some x → t.otp.slot4 = some x ∧ t.free = s.free) ∧
       (∀ x, s.otp.attRoot = some x → t.otp.attRoot = some x) ∧
       { t.otp with slot4 := s.otp.slot4, attRoot := s.otp.attRoot } = s.otp))) ∧
     (7 ≤ s.rd Reg.SYS_BOOT_STAGE → s.halted = false → s.key.slot4Ok = true → s.otp.attRoot.isSome = true →
       s.nvm.cache = false → exec .attCacheRebuildDone s = .next (({ s with nvm.cache := true } : State).wr Reg.KEY_ATT_READY 1)))

/-! ### Interrupts (R432 to R443) -/

/-- R15, R433, R434, R435: the oldest EVENT item of an island's channel is latched: the edge of an assigned source sets
PEND, once; with EN set it is delivered: to a vector as a message or a pending bit, to a core as a wake. A source that
no table row assigns never sets PEND. An item waits behind an earlier one of its channel. R433, R434, R436, R441: a
source's control byte. Setting EN on a pending source delivers it; clearing PEND forgets the edge; TGT above 0x13 reads
0x13. A core's firmware clears the latch that its oldest delivery stands for: the latch goes, unless it has been
cleared since. Forms that complete here: eventLatch, srcEnWrite, pendClear, tgtWrite. -/
def Obligations.Interrupts : Prop :=
  (∀ (s : State) (src : Byte) (e : EventItem), s.runs .IRQ = true → s.nextEvent (srcIsl src.toNat) = some e →
     let n := src.toNat
     let s' := { s with irq.events := s.irq.events.erase e }
     (e.src ≠ n → exec (.eventLatch src) s = .next s) ∧
     (e.src = n → assigned n = false ∨ s.pendOf n = true → exec (.eventLatch src) s = .next s') ∧
     (e.src = n → assigned n = true → s.pendOf n = false → s.enOf n = false →
       exec (.eventLatch src) s = .next (s'.wrI Reg.IRQ_SRC_CTL_PEND n 1)) ∧
     (e.src = n → assigned n = true → s.pendOf n = false → s.enOf n = true →
       let v := s.rdI Reg.IRQ_SRC_CTL_TGT n
       (v < 16 → s.runs .HST = true → s.irq.msixEn = true → s.irq.msixMask = false → s.irq.vecMask.getLsbD v = false →
         (∃ t, exec (.eventLatch src) s = .next t ∧ (t.out = s.out ++ [.msix v (s.irq.table.getD v (0, 0))] ∧
           t.pendOf n = true ∧ t.rd Reg.IRQ_LAST_SRC = n))) ∧
       (v < 16 → s.runs .HST = true → (s.irq.msixEn = false ∨ s.irq.msixMask = true ∨ s.irq.vecMask.getLsbD v = true) →
         (∃ t, exec (.eventLatch src) s = .next t ∧ (t.out = s.out ∧ t.irq.pba.getLsbD v = true ∧ t.pendOf n = true))) ∧
       (16 ≤ v → v < 20 → (∃ t, exec (.eventLatch src) s = .next t ∧ (t.out = s.out ++ [.core (v - 16)] ∧
         t.irq.atCore = s.irq.atCore ++ [(n, true)] ∧ (t.rd Reg.IRQ_CORE_SLEEP).testBit (v - 16) = false))) ∧
       (v < 16 → s.runs .HST = false → s.irq.held.contains n = false →
         (∃ t, exec (.eventLatch src) s = .next t ∧ (t.out = s.out ∧ t.irq.held = s.irq.held ++ [n]))))) ∧
  (∀ (s : State) (src : Byte), src.toNat < 192 →
     let n := src.toNat
     (s.hostMay .IRQ = true → s.headless = false → s.irq.held.contains n = false →
       (∀ en : Bool, s.enOf n = false → s.pendOf n = false → (∃ t, exec (.srcEnWrite src en) s = .next t ∧ (
         t.enOf n = en ∧ t.pendOf n = false ∧ t.out = s.out))) ∧
       (∀ v, s.enOf n = false → s.pendOf n = true → v = s.rdI Reg.IRQ_SRC_CTL_TGT n → 16 ≤ v →
         (∃ t, exec (.srcEnWrite src true) s = .next t ∧ (t.enOf n = true ∧ t.out = s.out ++ [.core (v - 16)]))) ∧
       (∃ t, exec (.pendClear ⟨src, false⟩) s = .next t ∧ (t.pendOf n = false ∧ t.enOf n = s.enOf n ∧ t.out = s.out))) ∧
     (∀ (b : Bool) (l l' : List (Nat × Bool)), s.sys.hold = .none → s.halted = false → s.runs .IRQ = true →
       s.irq.atCore = l ++ (n, b) :: l' → (∀ p ∈ l, p.1 ≠ n) →
       (∃ t, exec (.pendClear ⟨src, true⟩) s = .next t ∧ ((b = true → t.pendOf n = false ∧ t.enOf n = s.enOf n) ∧
         (b = false → t = { s with irq.atCore := l ++ l' }) ∧ t.out = s.out))) ∧
     (∀ tgt : BitVec 5, s.hostMay .IRQ = true → s.irq.held.contains n = false → exec (.tgtWrite src tgt) s = .next ((s.numbered 1).wrI Reg.IRQ_SRC_CTL_TGT n (min 19 tgt.toNat))))

/-- R442: SWI raises one edge for each bit written. REPLAY delivers every pending and enabled source again, in
ascending order, and leaves PEND as it is. Forms that complete here: swi, replay. -/
def Obligations.SwiAndReplay : Prop :=
  ∀ s : State, s.hostMay .IRQ = true →
    (∀ bits : Byte, (∃ t, exec (.swi bits) s = .next t ∧ (
      t = ((List.range 8).filter (fun b => bits.getLsbD b)).foldl (fun (u : State) b => u.event (24 + b)) (s.numbered 1) ∧
      t.irq.events.map (fun e => e.src) = s.irq.events.map (fun e => e.src) ++
        ((List.range 8).filter (fun b => bits.getLsbD b)).map (fun b => 24 + b)))) ∧
    exec .replay s = .next ((List.range 192).foldl State.deliverIf (s.numbered 1)) ∧
    ((∀ n < 192, ¬ (s.pendOf n = true ∧ s.enOf n = true)) → exec .replay s = .next (s.numbered 1))

/-! ### Resets, boot and host access (R5 to R9, R49 to R91, R421, R462) -/

/-- R54, R58, R63, R64, R282, R315: what resets the device, and with which RST_CAUSE: a lost reference clock 1, a
life-cycle inconsistency 2, a SYS fault 3, a KEY fault 4, 135 °C 5; an update of DIE_TEMP at TEMP_WARN or above sets
THERM_WARN. An internal reset empties everything in flight and keeps the always-on domain, OTP and NVM. Forms that
complete here: deviceFaultReset, clockLoss, dieTempUpdate. -/
def Obligations.InternalResets : Prop :=
  ∀ s : State, s.sys.hold = .none → s.halted = false →
    let restarted := fun (cause : Nat) (hold : Hold) (t : State) =>
      t.rd Reg.SYS_RST_CAUSE = cause ∧ t.sys.hold = hold ∧ t.rd Reg.SYS_BOOT_STAGE = 0 ∧ t.on Reg.SYS_SEAL = false ∧
      t.aon = s.aon ∧ t.otp = s.otp ∧ t.nvm = s.nvm ∧ t.pending = s.pending ∧ t.car.nodeQs = [] ∧ t.ntb.slots = [] ∧
      t.sys.linkUp = false ∧ t.key.rawRoot = none
    (∃ t, exec (.deviceFaultReset .sysFault) s = .next t ∧ (restarted 3 .none) t) ∧
    (∃ t, exec (.deviceFaultReset .keyFault) s = .next t ∧ (restarted 4 .none) t) ∧
    (2 ≤ s.rd Reg.SYS_BOOT_STAGE → s.otp.lc0 ≠ s.otp.lc1 ∨ s.otp.lc1 ≠ s.otp.lc2 →
      (∃ t, exec (.deviceFaultReset .lifeCycle) s = .next t ∧ (restarted 2 .none) t)) ∧
    (∃ t, exec (.clockLoss .xo40) s = .next t ∧ (restarted 1 .clock) t) ∧ (∃ t, exec (.clockLoss .sdref) s = .next t ∧ (restarted 1 .clock) t) ∧
    (∀ x : Int, 135 ≤ x → (∃ t, exec (.dieTempUpdate x) s = .next t ∧ (restarted 5 .thermal) t)) ∧
    (∀ x : Byte, x.toInt < s.rdS Reg.SYS_TEMP_WARN → exec (.dieTempUpdate x.toInt) s = .next (({ s with sys.temp := x.toInt, sys.hotClear := false } : State).wr Reg.SYS_DIE_TEMP x.toNat)) ∧
    (∀ x : Int, x < 135 → s.rdS Reg.SYS_TEMP_WARN ≤ x →
      (∃ t, exec (.dieTempUpdate x) s = .next t ∧ ((t.rd Reg.SYS_THERM_WARN).testBit 0 = true ∧
        t.irq = (if (s.rd Reg.SYS_THERM_WARN).testBit 0 then s.irq else (s.event 17).irq) ∧
        (∀ b : Byte, b.toInt = x → t.rd Reg.SYS_DIE_TEMP = b.toNat))))

/-- R54, R55, R57, R59, R63: PORST_N low resets everything but the always-on domain, OTP and NVM; its rise latches the
straps; a thermal hold ends at 115 °C; a clock hold when both references are back; a reference lost in a thermal hold
is shown as the later cause (log entry 103); PERST_N's rise lets the link train again. R49, R50, R64: the always-on
domain's supply. A fall below retention loses the store and the latch and is recorded; a switch-over shows its source
and VBAT's level. R59, R435: PERST_N low takes the link down and resets the PCIe configuration, the MSI-X table and the
PBA; after SEAL a running HST discards its work as under a fault of its own. In headless mode the device ignores the
pin. R462, R381: the PCIe link comes up from stage 2 on, in host mode, with PERST_N high, at a speed and a width of one
or two lanes; PCIE_STAT shows them. R449: with BOOT_MODE 0b10 in TEST or RMA it does not train. Forms that complete
here: porstAssert, porstRise, dieTempUpdate, clockLoss, clockReturnRestart, perstRelease, aonRetentionLoss,
aonSwitchOver, perstAssert, pcieLinkTrained. -/
def Obligations.HoldsAndPins : Prop :=
  (∀ s : State,
     (∃ t, exec .porstAssert s = .next t ∧ (t.sys.hold = .porst ∧ t.aon = s.aon ∧ t.otp = s.otp ∧ t.nvm = s.nvm ∧
       t.pending = s.pending ∧ t.rd Reg.SYS_BOOT_STAGE = 0 ∧ t.rd Reg.SYS_RST_CAUSE = 0 ∧ t.ntb.slots = [] ∧
       t.car.nodeQs = [])) ∧
     (∀ (m : BitVec 2) (tw : Bool), s.sys.hold = .porst → (∃ t, exec (.porstRise m tw) s = .next t ∧ (
       t.sys.hold = .none ∧ t.rd Reg.SYS_BOOT_MODE = m.toNat ∧ t.rd Reg.SYS_TWIN_ID = (if tw then 1 else 0)))) ∧
     (∀ x : Int, s.sys.hold = .thermal → s.sys.xoOk = true → s.sys.sdOk = true →
       exec (.dieTempUpdate x) s = .next (if x ≤ 115 then { s with sys.hold := .none } else s)) ∧
     (s.sys.hold = .thermal → (∃ t, exec (.clockLoss .xo40) s = .next t ∧ (t.sys.hold = .thermal ∧ t.sys.xoOk = false ∧
       t.rd Reg.SYS_RST_CAUSE = 1))) ∧
     (s.sys.hold = .clock → (∃ t, exec .clockReturnRestart s = .next t ∧ (t.sys.hold = .none ∧ t.sys.xoOk = true ∧
       t.sys.sdOk = true))) ∧
     exec .perstRelease s = .next ({ s with sys.perst := false })) ∧
  (∀ s : State,
     exec .aonRetentionLoss s = .next ({ s with aon := { Aon.blank with lost := true } }) ∧
     (∀ a b : Bool, exec (.aonSwitchOver a b) s = .next ((s.wr Reg.SYS_AON_SRC (if a then 1 else 0)).wr Reg.SYS_VBAT_OK (if b then 1 else 0)))) ∧
  (∀ s : State,
     let down : State := ({ s with
       sys.perst := true, hst.pcie := PcieCfg.empty, irq.table := IrqSt.noTable, sys.linkUp := false, irq.msixEn := false,
       irq.msixMask := false, irq.vecMask := 0xFFFF, irq.pba := 0 } : State).wr Reg.HST_PCIE_STAT 0
     (s.headless = true → exec .perstAssert s = .next ({ s with sys.perst := true })) ∧
     (s.headless = false → s.live = false ∨ s.runs .HST = false → exec .perstAssert s = .next down) ∧
     (s.headless = false → s.live = true → s.sys.hold = .none → s.runs .HST = true → s.rd Reg.SYS_REC_STATE = 0 →
       (∃ t, exec .perstAssert s = .next t ∧ (∃ u : State, t = u.stopHst ∧ u.sys.linkUp = false ∧ u.irq = down.irq ∧
         u.rd Reg.SYS_REC_STATE = 1 ∧ u.rd Reg.SYS_REC_ISL = 13 ∧ u.hst = { s.hst with pcie := PcieCfg.empty } ∧
         u.rd Reg.SYS_ISL_FLT_H = s.rd Reg.SYS_ISL_FLT_H)))) ∧
  (∀ (s : State) (sp w : BitVec 2),
     (s.sys.hold = .none → s.sys.perst = false → s.headless = false → s.testMode = false →
       2 ≤ s.rd Reg.SYS_BOOT_STAGE → sp ≠ 0 → w = 1 ∨ w = 2 →
       (∃ t, exec (.pcieLinkTrained sp w) s = .next t ∧ (t.sys.linkUp = true ∧ t.ntb.slots = s.ntb.slots ∧
         (s.ntb.done = [] → t.rd Reg.HST_PCIE_STAT = sp.toNat + 4 * w.toNat + 16)))) ∧
     (s.testMode = true → exec (.pcieLinkTrained sp w) s = .next s))

/-- R50, R77, R79, R282, R446, R449, R66, R68: stages 1 to 4. The retention flag and the tamper latch are read; the
life-cycle state is decided, or the device resets, or halts with 0xA; start-up BIST shows its results, or halts with 8,
or enters the test halt; the NVM probe and header are met, or the boot halts with 1 or 2. Forms that complete here:
stage1TamperRead, stage2OtpRead, stage3Bist, stage4NvmProbe. -/
def Obligations.BootFirst : Prop :=
  ∀ s : State, s.sys.hold = .none → s.halted = false →
    let halts := fun (err : Nat) (t : State) => t.rd Reg.SYS_BOOT_STAGE = 0xF ∧ t.rd Reg.SYS_BOOT_ERR = err
    (s.rd Reg.SYS_BOOT_STAGE = 0 →
      (s.aon.lost = false → (∃ t, exec .stage1TamperRead s = .next t ∧ (t.rd Reg.SYS_BOOT_STAGE = 1 ∧ t.aon = s.aon ∧
        t.rd Reg.SYS_TAMPER_SEEN = (if s.aon.latch then 1 else 0)))) ∧
      (s.aon.lost = true → (∃ t, exec .stage1TamperRead s = .next t ∧ (t.rd Reg.SYS_BOOT_STAGE = 1 ∧
        t.aon.store = KeyStore.empty ∧ t.aon.lost = false ∧ t.on Reg.SYS_VBAT_LOST = true)))) ∧
    (s.rd Reg.SYS_BOOT_STAGE = 1 →
      (∀ lc, s.rd Reg.SYS_RST_CAUSE ≠ 2 → s.lcRead = some lc → 1 ≤ lc → lc ≤ 4 →
        (∃ t, exec .stage2OtpRead s = .next t ∧ (t.rd Reg.SYS_BOOT_STAGE = 2 ∧ t.rd Reg.SYS_LC_STATE = lc ∧
          t.key.lc.toNat = lc ∧ t.key.captured = true ∧ t.sys.meshRun = true ∧
          t.tst.repairs = s.tst.repairs ++ s.otp.repairs))) ∧
      (s.rd Reg.SYS_RST_CAUSE ≠ 2 → s.lcRead = none → (∃ t, exec .stage2OtpRead s = .next t ∧ (
        t.rd Reg.SYS_BOOT_STAGE = 0 ∧ t.rd Reg.SYS_RST_CAUSE = 2))) ∧
      (s.rd Reg.SYS_RST_CAUSE = 2 ∨ s.lcRead = some 0 ∨ s.lcRead = some 5 → (∃ t, exec .stage2OtpRead s = .next t ∧ (halts 0xA) t))) ∧
    (s.rd Reg.SYS_BOOT_STAGE = 2 →
      (∀ dur, s.tst.newRep = [] → (∃ t, exec (.stage3Bist [] 0 dur) s = .next t ∧ (t.rd Reg.SYS_BOOT_STAGE = 3 ∧
        t.rd Reg.TST_SB_STAT = 1 ∧ t.rd Reg.TST_SB_MEM_OK = 0xF ∧ t.rd Reg.TST_SB_LOG_OK = 0xF ∧
        t.rd Reg.TST_SB_TIME = min dur 65535))) ∧
      (∀ (f : MacroFault) (dur : Nat), f.mac < 640 → s.mends f = false →
        (s.testMode = false → (∃ t, exec (.stage3Bist [f] 0 dur) s = .next t ∧ (halts 8) t)) ∧
        (s.testMode = true → (∃ t, exec (.stage3Bist [f] 0 dur) s = .next t ∧ (t.rd Reg.SYS_BOOT_STAGE = 3 ∧
          t.rd Reg.SYS_BOOT_ERR = 8))))) ∧
    (s.rd Reg.SYS_BOOT_STAGE = 3 →
      (∃ t, exec (.stage4NvmProbe false) s = .next t ∧ (halts 1) t) ∧
      (nvmReads s.nvm.bytes 0 4 ≠ nvmMagic ∨ nvmRead s.nvm.bytes 4 ≠ 1 → (∃ t, exec (.stage4NvmProbe true) s = .next t ∧ (halts 2) t)) ∧
      (nvmReads s.nvm.bytes 0 4 = nvmMagic → nvmRead s.nvm.bytes 4 = 1 → s.nvm.repLog = [] → s.tst.newRep = [] →
        exec (.stage4NvmProbe true) s = .next (s.wr Reg.SYS_BOOT_STAGE 4)))

/-- R71, R84, R320, R321, R286, R307: stages 5 and 6. A staged image that is not committed is left alone; one that
fails a check is marked rejected, with the check; one that passes is copied, sector by sector, and marked once every
check of the copy has passed; firmware that fails a check halts the boot with 3, firmware older than the anti-rollback
field with 4; good firmware advances the field, and the root is unwrapped, or KSTATE reads PUF_FAIL; a transition that
was cut off is made. Forms that complete here: stage5StagingCopy, stage6FwVerify. -/
def Obligations.BootImages : Prop :=
  ∀ (s : State) (v : Verdict), s.sys.hold = .none → s.halted = false →
    (s.rd Reg.SYS_BOOT_STAGE = 4 →
      (s.stgByte ≠ 0x3F → s.stgByte ≠ 0x1F →
        exec (.stage5StagingCopy v) s = .next (s.wr Reg.SYS_BOOT_STAGE 5)) ∧
      (∀ why, s.stgByte = 0x3F ∨ s.stgByte = 0x1F → s.stgCheck v = some why →
        (∃ t, exec (.stage5StagingCopy v) s = .next t ∧ (t.rd Reg.SYS_BOOT_STAGE = 5 ∧ t.stgByte = 0x07 ∧
          t.on Reg.SYS_STG_REJ = true ∧ t.rd Reg.SYS_STG_REJ_WHY = why))) ∧
      (s.stgByte = 0x3F ∨ s.stgByte = 0x1F → s.stgCheck v = none →
        let m := (s.setStg 0x1F).nvm.bytes
        let fmt := s.imgByte stagingBase 4
        let len := s.imgNum stagingBase 0xC 4
        let dst := if s.imgKind stagingBase = 1 then fwBase else cfgBase
        (∃ t, exec (.stage5StagingCopy v) s = .next t ∧ (t.rd Reg.SYS_BOOT_STAGE = 5 ∧
          ∀ m', copySectors fmt dst len m (sectorsLeft m (ceilDiv len 0x10000)) = (true, m') →
            fmt = 2 ∨ readsBack dst m' 0 len = true →
            t.on Reg.SYS_STG_COPIED = true ∧ t.nvm.bytes = nvmProg m' 0x100 0x0F)))) ∧
    (∀ puf slot4 : Bool, s.rd Reg.SYS_BOOT_STAGE = 5 →
      let arb := s.imgByte fwBase 6
      let good := s.imgFormat fwBase = true ∧ s.imgKind fwBase = 1 ∧ v.digestOk = true ∧ s.imgSigned fwBase v = true
      (¬ good → (∃ t, exec (.stage6FwVerify v puf slot4) s = .next t ∧ (t.rd Reg.SYS_BOOT_STAGE = 0xF ∧
        t.rd Reg.SYS_BOOT_ERR = 3))) ∧
      (good → arb < s.otp.arb → (∃ t, exec (.stage6FwVerify v puf slot4) s = .next t ∧ (t.rd Reg.SYS_BOOT_STAGE = 0xF ∧
        t.rd Reg.SYS_BOOT_ERR = 4))) ∧
      (good → s.otp.arb ≤ arb → s.nvm.kuMove = none → (∃ t, exec (.stage6FwVerify v puf slot4) s = .next t ∧ (
        t.rd Reg.SYS_BOOT_STAGE = 6 ∧ t.otp = { s.otp with arb := arb } ∧ t.rd Reg.SYS_FW_ARB = arb ∧
        (∀ p, puf = true → s.key.captured = true → s.otp.helper = some p →
          ({ s with key.pufKey := some p } : State).rootOf.isSome = true →
          t.key.pufKey = some p ∧ t.key.rawRoot = ({ s with key.pufKey := some p } : State).rootOf) ∧
        (puf = false → t.rd Reg.KEY_KSTATE = 4)))) ∧
      (∀ b, good → s.otp.arb ≤ arb → s.nvm.kuMove = some b → (∃ t, exec (.stage6FwVerify v puf slot4) s = .next t ∧ (
        t.rd Reg.SYS_RST_CAUSE = 6 ∧ t.otp.lc0 = s.otp.lc0 ||| b ∧ t.nvm.kuMove = none ∧ t.nvm.copies = []))))

/-- R76, R80, R85, R91, R290, R311: stages 7 to 9. A configuration that fails a check is not applied and BOOT_ERR names
the check; the keys come from the store, and with the latch set there are none, and the copies in the NVM go; with
SCRAP_ON_TAMPER a set latch scraps the device. SEAL is set, and service mode begins where it is due. Each group enabled
is LOCKED or FAILED as its lock check says. R82, R221, R357, R390: stage 10 follows stage 9; once the time base is set
the device waits in HOLD with START_HOLD, else its start beacons begin; MESH_GO begins them from HOLD. With no beacon
slot and no twin the device is RUNNING at once; one of a pair enters WAIT. Forms that complete here: stage7ConfigApply,
stage8Seal, stage9SynthCal, stage10TimeAcq, stage11StartBeacons, meshGo. -/
def Obligations.BootLast : Prop :=
  (∀ s : State, s.sys.hold = .none → s.halted = false →
     (∀ (v : Verdict) (e : Nat), s.rd Reg.SYS_BOOT_STAGE = 6 → s.needsKeygen = false → s.cfgError v = some e →
       s.rd Reg.KEY_KSTATE ≠ 4 → s.on Reg.SYS_VBAT_LOST = false →
       (s.aon.latch = false → s.aon.store.good = true → s.ctrFits s.aon.store = true → s.aon.store.epoch ≠ 0 →
         (∃ t, exec (.stage7ConfigApply v) s = .next t ∧ (t.rd Reg.SYS_BOOT_STAGE = 7 ∧ t.rd Reg.SYS_BOOT_ERR = e ∧
           t.rd Reg.KEY_KSTATE = 1 ∧ t.key.egress = s.aon.store.epoch ∧ t.aon = s.aon))) ∧
       (s.aon.latch = true → s.on Reg.KEY_SCRAP_ON_TAMPER = false → (∃ t, exec (.stage7ConfigApply v) s = .next t ∧ (
         t.rd Reg.SYS_BOOT_STAGE = 7 ∧ t.rd Reg.SYS_BOOT_ERR = e ∧ t.rd Reg.KEY_KSTATE = 2 ∧
         t.on Reg.KEY_KEYS_LOST = true ∧ t.nvm.copies = []))) ∧
       (s.aon.latch = true → s.on Reg.KEY_SCRAP_ON_TAMPER = true → s.key.lc ≠ 0 → s.key.lc ≠ 5 →
         (∃ t, exec (.stage7ConfigApply v) s = .next t ∧ (t.rd Reg.SYS_RST_CAUSE = 6 ∧ t.otp.lc0 = s.otp.lc0 ||| 16 ∧
           t.nvm.copies = [])))) ∧
     (s.rd Reg.SYS_BOOT_STAGE = 7 → (∃ t, exec .stage8Seal s = .next t ∧ (t.live = true ∧
       t.rd Reg.SYS_BOOT_STAGE = (if s.toService then 0xE else 8) ∧ ∀ p ∈ t.staged, rsGroup p.1 = false))) ∧
     (∀ (lock : BitVec 3) (pf : BitVec 12), s.rd Reg.SYS_BOOT_STAGE = 8 → (∃ t, exec (.stage9SynthCal lock pf) s = .next t ∧ (
       t.rd Reg.SYS_BOOT_STAGE = 9 ∧ ∀ g, s.on (Reg.FE_GRP_EN g) = true → s.runs g.isl = true →
         t.rd (Reg.FE_SYN_STATE g) = if lock.getLsbD g.code then 3 else 4)))) ∧
  (∀ s : State, s.sys.hold = .none →
     let began := fun (t : State) => t.sys.bootAt = s.sys.timeNs ∧ t.sys.startLeft = s.bcnSlots ∧
       (s.on Reg.TWN_TW_EN = true → t.rd Reg.TWN_TW_STATE = 1 ∧ t.rd Reg.SYS_BOOT_STAGE = 0xB) ∧
       (s.on Reg.TWN_TW_EN = false → t.rd Reg.SYS_BOOT_STAGE = if s.bcnSlots = [] then 0xD else 0xB)
     (s.rd Reg.SYS_BOOT_STAGE = 9 → exec .stage10TimeAcq s = .next (s.wr Reg.SYS_BOOT_STAGE 0xA)) ∧
     (s.rd Reg.SYS_BOOT_STAGE = 0xA → s.on Reg.TIM_TIME_SET = true → s.on Reg.SYS_START_HOLD = true →
       exec .stage11StartBeacons s = .next (s.wr Reg.SYS_BOOT_STAGE 0xC)) ∧
     (s.rd Reg.SYS_BOOT_STAGE = 0xA → s.on Reg.TIM_TIME_SET = true → s.on Reg.SYS_START_HOLD = false →
       (∃ t, exec .stage11StartBeacons s = .next t ∧ began t)) ∧
     (s.hostMay .SYS = true → s.rd Reg.SYS_BOOT_STAGE = 0xC → (∃ t, exec .meshGo s = .next t ∧ began t)))

/-- R34, R85, R421, R422, R462: a host write that may not take effect changes nothing but what its rule counts. With
the link down no access completes; before SEAL it is dropped and counted in HOSTWR_DROP; under a register fence it is
discarded and counted, but for REC_ACK, which acts; to a stopped island it is discarded and fences the register-write
stream at its number. R5, R7 to R9: a host write of a byte that takes effect. A byte that no register holds changes
nothing; a lower byte of a writable group is staged and nothing else changes; TL_MARGIN, a byte of its own, holds the
value written, clamped; 0b01 in TMAP_CMD acts as the command TMAP_READ. R6, R34, R79, R462: a host read. With the link
down it does not complete; of a stopped island it reads 0x00; the lowest byte of a group captures the group's bytes; a
higher byte reads what was captured. Forms that complete here: regWrite, tmapRead, groupCapture, rcRead. -/
def Obligations.HostAccess : Prop :=
  (∀ (s : State) (a : BitVec 16) (v : Byte),
     (s.sys.linkUp = false → exec (.regWrite a v) s = .next s) ∧
     (s.sys.linkUp = true → s.live = false →
       exec (.regWrite a v) s = .next (s.bump Reg.SYS_HOSTWR_DROP)) ∧
     (s.sys.linkUp = true → s.live = true → s.on Reg.SYS_REGW_FENCED = true →
       (¬ (a = 0x78 ∧ s.runs .HST = true) → exec (.regWrite a v) s = .next (s.bump Reg.SYS_FENCED_OTHER)) ∧
       (a = 0x78 → s.runs .HST = true → exec (.regWrite a v) s = .next (if v.getLsbD 0 then s.recAck else s))) ∧
     (s.sys.linkUp = true → s.live = true → s.on Reg.SYS_REGW_FENCED = false →
       (s.runs (islOf a.toNat) = false ∨ s.runs .HST = false) →
       exec (.regWrite a v) s = .next (((s.wr Reg.SYS_REGW_FENCED 1).wr Reg.SYS_REGW_RESUME
         s.sys.regW.toNat).bump Reg.SYS_FENCED_OTHER))) ∧
  (∀ (s : State) (a : BitVec 16) (v : Byte), s.hostMay (islOf a.toNat) = true →
     (fieldsAt a.toNat = [] → exec (.regWrite a v) s = .next (s.numbered 1)) ∧
     (1 < (groupAt a.toNat).2 → a.toNat + 1 ≠ (groupAt a.toNat).1 + (groupAt a.toNat).2 →
       ((fieldsAt a.toNat).any (fun p => p.1.acc = .rw || p.1.acc = .wo)) = true →
       ((fieldsAt a.toNat).all (fun p => p.1.acc ≠ .rs)) = true →
       exec (.regWrite a v) s = .next ({ s.numbered 1 with staged := mput s.staged a.toNat v })) ∧
     (a.toNat = 0x6002 → exec (.regWrite a v) s = .next ((s.numbered 1).wr Reg.PHY_TL_MARGIN (min 30 (v.toNat % 32)))) ∧
     (a.toNat = 0x6012 → v.toNat % 4 = 1 → (∃ t, exec (.regWrite a v) s = .next t ∧ (
       (∃ u, exec .tmapRead s = .next u ∧ (t = u)))))) ∧
  (∀ (s : State) (a : BitVec 16),
     let n := (groupAt a.toNat).2
     let lowest := fun t : State => t.hostData = (s.liveBytes a.toNat n).headD 0 ∧
       ∀ k < n, mget t.captured (a.toNat + k) = some (s.liveByte (a.toNat + k))
     let alone := fun t : State => t.hostData = s.liveByte a.toNat ∧
       (((fieldsAt a.toNat).all (fun p => p.1.acc ≠ .rc)) = true → t.regs = s.regs)
     (s.sys.linkUp = false → exec (.groupCapture a) s = .next s ∧ exec (.rcRead a) s = .next s) ∧
     (s.sys.linkUp = true → s.hostReads (islOf a.toNat) = false →
       exec (.groupCapture a) s = .next ({ s with hostData := 0 }) ∧
       exec (.rcRead a) s = .next ({ s with hostData := 0 })) ∧
     (s.hostReads (islOf a.toNat) = true → a ≠ 0x18 → inWindow a.toNat = false → 1 < n →
       (a.toNat = (groupAt a.toNat).1 → (∃ t, exec (.groupCapture a) s = .next t ∧ lowest t) ∧ (∃ t, exec (.rcRead a) s = .next t ∧ lowest t)) ∧
       (a.toNat ≠ (groupAt a.toNat).1 →
         exec (.groupCapture a) s = .next ({ s with hostData := (mget s.captured a.toNat).getD (s.liveByte a.toNat) }) ∧
         exec (.rcRead a) s = .next ({ s with hostData := (mget s.captured a.toNat).getD (s.liveByte a.toNat) }))) ∧
     (s.hostReads (islOf a.toNat) = true → a ≠ 0x18 → inWindow a.toNat = false → n = 1 →
       (∃ t, exec (.groupCapture a) s = .next t ∧ alone t) ∧ (∃ t, exec (.rcRead a) s = .next t ∧ alone t)))

/-! ### Time, backhaul and twins (R339 to R411) -/

/-- R354, R355, R357, R358, R41: the update of the 125 ms. Once the time base is set it steers by the selected domain,
its rate within 1 ppm, or, with nothing selected, enters holdover at the last rate. Before, it steps to the selected
domain; when the budget ends with nothing selected and TIME_POLICY set, the time base starts free. PPS_OUT rises. Forms
that complete here: steerUpdate, timeAcqExpire, ppsEdge. -/
def Obligations.TimeBase : Prop :=
  ∀ s : State, s.byTwin = none →
    (s.steering = true → s.on Reg.TIM_TIME_SET = true →
      (∀ d, s.select = some d → (∃ t, exec .steerUpdate s = .next t ∧ (t.tim.sel = some d ∧ t.tim.holdover = false ∧
        t.tim.holdF = s.rdS (Reg.TIM_DOM_FREQ d) ∧ t.rd Reg.TIM_SRC = srcOf (some d) ∧
        -1099511 ≤ t.rdS Reg.TIM_RATE_ADJ ∧ t.rdS Reg.TIM_RATE_ADJ ≤ 1099511 ∧
        t.sys.timeNs = s.sys.timeNs))) ∧
      (s.select = none → s.rd Reg.TIM_SRC ≠ 3 → s.tim.holdover = false → (∃ t, exec .steerUpdate s = .next t ∧ (
        t.tim.sel = none ∧ t.tim.holdover = true ∧ t.rd Reg.TIM_SRC = 0 ∧ t.rdS Reg.TIM_RATE_ADJ = clampRate s.tim.holdF ∧
        (t.rd Reg.TIM_TIM_EVT).testBit 1 = true)))) ∧
    (s.steering = true → s.on Reg.TIM_TIME_SET = false → (∀ p ∈ s.ntb.slots, p.2.entry.qne = false) →
      (∀ d, s.select = some d → (∃ t, exec .steerUpdate s = .next t ∧ (
        t.sys.timeNs = ((s.sys.timeNs + s.domOfs d) % 2 ^ 64).toNat ∧ t.on Reg.TIM_TIME_SET = true ∧
        t.on Reg.TIM_STEPPED = true ∧ t.rd Reg.TIM_SRC = srcOf (some d) ∧
        (t.rd Reg.TIM_TIM_EVT).testBit 5 = true))) ∧
      (s.select = none → s.on Reg.SYS_TIME_POLICY = true → (∃ t, exec .timeAcqExpire s = .next t ∧ (
        t.rd Reg.TIM_SRC = 3 ∧ t.on Reg.SYS_TIME_FREE = true ∧ t.on Reg.TIM_TIME_SET = true ∧
        t.sys.timeNs = s.sys.timeNs))) ∧
      (s.select = none → s.on Reg.SYS_TIME_POLICY = false → exec .timeAcqExpire s = .next s)) ∧
    (s.sys.hold = .none → s.on Reg.TIM_TIME_SET = true →
      exec .ppsEdge s = .next (s.emit (.pps s.sys.timeNs)))

/-- R349, R350: an Announce of another domain number is rejected and counted; the first of a master is recorded and
selects nothing; the second within its four intervals selects it: TRACK, with its port and class shown. The port on
which announcements stop gives way to the other that still hears the master. A Sync that fails to come is a loss. (That
two Announce messages within four intervals qualify a foreign master is the model's reading, log entry 57.) R348: one
exchange with the selected master. A Sync is stamped; its Follow_Up of the same sequenceId brings t1; a Follow_Up that
does not come leaves the Sync incomplete; a Delay_Req leaves by MASTER_PORT and is stamped; its Delay_Resp completes
the exchange: the mean path delay, DOM_FREQ, one more exchange. A message of another master is rejected. (How the mean
path delay rounds is the model's, log entry 58.) Forms that complete here: ptpAnnounceRx, syncTimeout, announceTimeout,
ptpSyncRx, ptpFollowUpRx, ptpDelayRespRx, followUpTimeout, delayReqSend. -/
def Obligations.PtpClocks : Prop :=
  (∀ (s : State) (d : Dom),
     (∀ (h : PtpHdr) (a : PtpAnn), s.ptpHeard d h = true →
       (h.domain.toNat ≠ s.rd (Reg.TIM_DOM_NUM d) → exec (.ptpAnnounceRx d h a) s = .next s.ptpBad) ∧
       (h.domain.toNat = s.rd (Reg.TIM_DOM_NUM d) → (s.dom d).master = none →
         ((s.dom d).foreign = [] → exec (.ptpAnnounceRx d h a) s = .next (s.setDom d { s.dom d with
           foreign := [{ id := h.master, port := h.port, ann := a, last := s.sys.uptime, prev := none }] })) ∧
         (∀ f : Foreign, (s.dom d).foreign = [f] → f.id = h.master → f.port = h.port → a.stepsRemoved < 255 →
           s.sys.uptime ≤ f.last + 4 * logTicks a.logInterval →
           (∃ t, exec (.ptpAnnounceRx d h a) s = .next t ∧ ((t.dom d).master = some h.master ∧
             t.rd (Reg.TIM_DOM_STATE d) = 2 ∧ t.rd (Reg.TIM_MASTER_PORT d) = portCode h.port ∧
             t.rd (Reg.TIM_DOM_CLASS d) = a.clockClass % 256))))) ∧
     (s.runs .TIM = true → s.tracks d = true →
       (∃ t, exec (.syncTimeout d) s = .next t ∧ (t.rd (Reg.TIM_DOM_STATE d) = 1 ∧ t.rd (Reg.TIM_MASTER_PORT d) = 0 ∧
         (t.dom d).master = none ∧ (t.dom d).run = 0)) ∧
       (∀ (p : EPort) (f g : Foreign), (s.dom d).foreign = [f, g] → (s.dom d).master = some f.id → g.id = f.id →
         f.port = p → g.port ≠ p → s.rd (Reg.TIM_MASTER_PORT d) = portCode p →
         exec (.announceTimeout d p) s = .next ((s.setDom d { s.dom d with foreign := [g] }).wr (Reg.TIM_MASTER_PORT d) (portCode g.port))))) ∧
  (∀ (s : State) (d : Dom),
     (∀ (h : PtpHdr) (two : Bool) (t1 t4 f : Int) (span : Nat), s.ptpHeard d h = true → s.fromMaster d h = false →
       exec (.ptpSyncRx d h two t1) s = .next s.ptpBad ∧
       exec (.ptpFollowUpRx d h t1) s = .next s.ptpBad ∧
       exec (.ptpDelayRespRx d h t4 f span) s = .next s.ptpBad) ∧
     (∀ h : PtpHdr, s.ptpHeard d h = true → s.fromMaster d h = true → s.onMasterPort d h = true →
       (∀ (two : Bool) (t1 : Int), exec (.ptpSyncRx d h two t1) s = .next (s.setDom d { s.dom d with
         sync := some { seqId := h.seqId, t2 := s.sys.timeNs, t1 := if two then none else some t1, corr := h.corr } })) ∧
       (∀ (y : SyncSt) (t1 : Int), (s.dom d).sync = some y → y.seqId = h.seqId → y.t1 = none →
         exec (.ptpFollowUpRx d h t1) s = .next (s.setDom d { s.dom d with
           sync := some { y with t1 := some t1, corr := y.corr + h.corr } })) ∧
       (∀ (y : SyncSt) (t1 t3 t4 f : Int) (span : Nat), (s.dom d).sync = some y → y.t1 = some t1 →
         (s.dom d).req = some (h.seqId, t3) →
         (∃ t, exec (.ptpDelayRespRx d h t4 f span) s = .next t ∧ ((t.dom d).req = none ∧
           (t.dom d).run = (s.dom d).run + 1 ∧
           t.rd (Reg.TIM_DOM_MPD d) = min ((((y.t2 - t1) + (t4 - t3) - y.corr - h.corr) / 2).toNat) 0xFFFFFFFF ∧
           t.rdS (Reg.TIM_DOM_FREQ d) = max (-2147483648) (min 2147483647 f))))) ∧
     (∀ y : SyncSt, (s.dom d).sync = some y → y.t1 = none → s.runs .TIM = true →
       exec (.followUpTimeout d) s = .next (s.setDom d { s.dom d with sync := none, run := 0 })) ∧
     (s.epActive = true → s.runs .TIM = true → s.tracks d = true → s.rd (Reg.TIM_MASTER_PORT d) ≠ 0 →
       (∃ t, exec (.delayReqSend d) s = .next t ∧ ((t.dom d).req = some ((s.dom d).reqSeq, (s.sys.timeNs : Int)) ∧
         (t.dom d).reqSeq = (s.dom d).reqSeq + 1 ∧
         t.out = s.out ++ [.delayReq d (if s.rd (Reg.TIM_MASTER_PORT d) = 1 then .A else .B)
           (s.on (Reg.TIM_DOM_TRANSPORT d)) (BitVec.ofNat 8 (s.rd (Reg.TIM_DOM_NUM d))) s.otp.devEui (s.dom d).reqSeq]))))

/-- R351, R362 to R365, R368: a port is up while its bring-up is complete, LOS low and its mode not disabled. A frame
of 64 to 9216 bytes on a port that is up, with no active endpoint, leaves by the other port; with the transparent clock
on, an event message of PTP version 2 leaves with its residence time added and its UDP checksum made good (R352). A
reassembly that times out is dropped. Forms that complete here: linkChange, bridgeRx, reassemblyTimeout. -/
def Obligations.BridgeForwards : Prop :=
  ∀ s : State,
    (∀ (p : EPort) (up los : Bool), s.ethOn = true → (∃ t, exec (.linkChange p up los) s = .next t ∧ (
      t.portUp p = (up && !los && s.portMode p ≠ 0) ∧ t.portUp (otherPort p) = s.portUp (otherPort p)))) ∧
    (∀ (p : EPort) (f : EthFrame), s.ethOn = true → s.portUp p = true → f.payload ≠ .macControl →
      (f.len < 64 ∨ 9216 < f.len → exec (.bridgeRx p f) s = .next (s.bump Reg.ETH_BR_DROP)) ∧
      (64 ≤ f.len → f.len ≤ 9216 → s.epActive = false → f.fcsOk = true → f.fits = true →
        s.portUp (otherPort p) = true →
        (∃ t, exec (.bridgeRx p f) s = .next t ∧ (∃ c u, t.out = s.out ++ [.ethFrame (otherPort p) f c u true] ∧
          ∀ x, f.payload = .ptp x → s.on Reg.TIM_TC_EN = true → x.version = 2 → x.event = true → f.vlans.length ≤ 2 →
            (x.transport = 2 → x.extHdr = false ∧ x.udpSumZero = false ∧ x.msgLen + 2 ≤ x.udpLen) →
            c = min (x.corr + x.residence) 0x7FFFFFFFFFFFFFFF ∧
            u = (if x.transport = 1 then .zeroed else if x.transport = 2 then .padded else .kept))))) ∧
    (∀ id : Word, s.runs .ETH = true → (s.eth.reasm.any (fun r => r.id = id)) = true →
      exec (.reassemblyTimeout id) s = .next (State.bump { s with eth.reasm := s.eth.reasm.filter (fun r => r.id ≠ id) } Reg.ETH_FRAG_DROP))

/-- R371 to R373: the checks of a datagram in their order: malformed, another version or boot (an INFO reply), no key,
authentication, replay, TYPE. A management request that passes all of them moves the SEQ last accepted and goes to
queue 0x20; a data datagram of the tunnel waits for its record to be taken. Forms that complete here: datagramRx. -/
def Obligations.DatagramChecks : Prop :=
  ∀ (s : State) (d : Dgram), s.epActive = true →
    (d.udpLen < 48 ∨ d.magicOk = false ∨ d.lenOk = false ∨ (d.chan ≠ 1 ∧ d.chan ≠ 2) →
      exec (.datagramRx d) s = .next (s.bump Reg.ETH_DG_BAD)) ∧
    (48 ≤ d.udpLen → d.magicOk = true → d.lenOk = true → d.chan = 1 → d.port = s.rd Reg.ETH_MGT_PORT →
      (¬ (d.ver = 1 ∨ d.ver = 2) ∨ d.bootId.toNat ≠ s.rd Reg.ETH_BOOT_ID ∨ d.type = 0 →
        exec (.datagramRx d) s = .next (s.infoReply d)) ∧
      (d.ver = 1 ∨ d.ver = 2 → d.bootId.toNat = s.rd Reg.ETH_BOOT_ID → d.type ≠ 0 →
        (s.key.zeroised = true ∨ s.mgmtKey = none → exec (.datagramRx d) s = .next ((s.bump Reg.ETH_DG_NOKEY).ev Reg.ETH_ETH_EVT 2 128)) ∧
        (∀ k, s.key.zeroised = false → s.mgmtKey = some k →
          (d.tag ≠ some k → exec (.datagramRx d) s = .next ((s.bump Reg.ETH_DG_AUTH).ev Reg.ETH_ETH_EVT 2 128)) ∧
          (d.tag = some k → d.seq.toNat ≤ s.eth.mgtRx.toNat → exec (.datagramRx d) s = .next ((s.bump Reg.ETH_DG_REPLAY).ev Reg.ETH_ETH_EVT 2 128)) ∧
          (d.tag = some k → s.eth.mgtRx.toNat < d.seq.toNat → typeOk d = false → exec (.datagramRx d) s = .next (s.bump Reg.ETH_DG_BAD)) ∧
          (d.tag = some k → s.eth.mgtRx.toNat < d.seq.toNat → typeOk d = true → exec (.datagramRx d) s = .next (State.deviceItem { s with eth.mgtRx := d.seq, eth.mgtVer := d.ver } 0x20 (some (devHdr 6 0 0 0 none))
              d.payload (.request d)))))) ∧
    (∀ k, 48 ≤ d.udpLen → d.magicOk = true → d.lenOk = true → d.chan = 2 → d.port = s.rd Reg.ETH_TUN_PORT →
      s.tunRuns = true → d.ver = 1 ∨ d.ver = 2 → d.bootId.toNat = s.rd Reg.ETH_BOOT_ID → d.type ≠ 0 → d.dir = 0 →
      s.dgKey d = some k → d.tag = some k → typeOk d = true → s.eth.dgrams = [] →
      exec (.datagramRx d) s = .next ({ s with eth.dgrams := [(true, d)] }))

/-- R373, R374, R385: a request that has been accepted goes to its island from queue 0x20, its record handed on with
the address of its response; a STATUS request is answered with the snapshot. A record of the mailbox makes it PENDING;
a command while PENDING sets MBX_OVR alone. Forms that complete here: mgtSession, mgtKeyUpdate, mgtStatus, mbxSession,
mbxKeyUpdate. -/
def Obligations.RequestsHandedOn : Prop :=
  ∀ s : State,
    (∀ (d : Dgram) (it : QItem) (l : List QItem), (s.sysQ 0x20).items = it :: l → it.note = .request d →
      s.runs .CAR = true →
      let s' := s.releaseSys 0x20
      let dst : ReplyTo := { src := .management, ip := d.srcIp, port := d.srcPort, ver := d.ver }
      (d.type = 1 → (∃ t, exec .mgtSession s = .next t ∧ (t = State.sessPost s' dst { bytes := d.payload } ∧
        (s'.sysQ 0x20).items = l))) ∧
      (d.type = 2 → exec .mgtKeyUpdate s = .next (State.kuPost s' dst { bytes := d.payload, terms := d.ku })) ∧
      (d.type = 3 → exec .mgtStatus s = .next (State.mgtReply s' dst 0x83 s.statusBytes))) ∧
    (s.hostMay .HST = true →
      let s' := { (s.numbered 1).wr Reg.HST_MBX_STAT 1 with hst.mbx := true }
      let dst : ReplyTo := { src := .mailbox, ip := 0, port := 0, ver := BitVec.ofNat 8 (s.rd Reg.SYS_HIF_SEL) }
      (s.rd Reg.HST_MBX_STAT = 1 → ∀ (r : SessRec) (m : KuMsg),
        exec (.mbxSession r) s = .next ((s.numbered 1).wr Reg.HST_MBX_OVR 1) ∧
        exec (.mbxKeyUpdate m) s = .next ((s.numbered 1).wr Reg.HST_MBX_OVR 1)) ∧
      (s.rd Reg.HST_MBX_STAT ≠ 1 → ∀ (r : SessRec) (m : KuMsg),
        exec (.mbxSession r) s = .next (State.sessPost s' dst { bytes := r.bytes.take (s.rd Reg.HST_MBX_LEN) }) ∧
        exec (.mbxKeyUpdate m) s = .next (State.kuPost s' dst { m with bytes := m.bytes.take (s.rd Reg.HST_MBX_LEN) })))

/-- R375 to R378: the headless tunnel. A DOWN or TABLE record of the next SEQ is taken, and TUN_RX_NEXT moves on; one
of a SEQ already taken counts in TUN_DUP and changes nothing else but that an ACK is due. An ACK releases what it
covers from queue 0x22; one that is due is sent; a drained item goes to queue 0x22 and leaves as the next data
datagram; a timeout sends every unacknowledged one again. Forms that complete here: tunDown, tunTable, tunAckRx,
tunAckSend, tunDrain, tunRtoExpire. -/
def Obligations.TunnelMoves : Prop :=
  ∀ (s : State) (k : Key), s.tunRuns = true → s.tunKey = some k →
    (∀ d : Dgram, s.eth.dgrams = [(true, d)] → d.chan = 2 →
      (d.seq.toNat < s.rd Reg.ETH_TUN_RX_NEXT →
        (d.type = 0x10 → exec .tunDown s = .next (State.bump { s with eth.dgrams := [], eth.ackDue := true } Reg.ETH_TUN_DUP)) ∧
        (d.type = 0x11 → exec .tunTable s = .next (State.bump { s with eth.dgrams := [], eth.ackDue := true } Reg.ETH_TUN_DUP))) ∧
      (d.seq.toNat = s.rd Reg.ETH_TUN_RX_NEXT → s.tunWaits = false →
        (d.type = 0x10 → s.rdB Reg.HST_RING_FENCED 0 0 = 0 → (∃ t, exec .tunDown s = .next t ∧ (
          t.rd Reg.ETH_TUN_RX_NEXT = (d.seq.toNat + 1) % 2 ^ 32 ∧
          ∃ p ∈ t.hst.txSlots, p.1 = 0 ∧ p.2.tunSeq = some d.seq ∧ p.2.idx = d.seq.setWidth 16))) ∧
        (d.type = 0x11 → s.rdB Reg.HST_RING_FENCED 0 tblRing = 0 → s.ntb.cmdQ = [] → 1 ≤ leAt d.payload 0 1 →
          leAt d.payload 0 1 ≤ 6 → (∃ t, exec .tunTable s = .next t ∧ (
          t.rd Reg.ETH_TUN_RX_NEXT = (d.seq.toNat + 1) % 2 ^ 32 ∧ t.ntb.tblSeq = s.ntb.tblSeq + 1 ∧
          t.ntb.cmdQ = [{ seq := s.ntb.tblSeq, bytes := d.payload, tunnel := true, aborted := false }])))) ∧
      (d.type = 0x1F → s.runs .CAR = true → s.rd Reg.ETH_TUN_TX_ACKED < d.ack.toNat →
        d.ack.toNat ≤ s.rd Reg.ETH_TUN_TX_NEXT → (∃ t, exec .tunAckRx s = .next t ∧ (
          (t.sysQ 0x22).items = (s.sysQ 0x22).items.dropWhile (fun x =>
            (QItem.tunnel x).any (fun p => p.1.toNat < d.ack.toNat)) ∧
          t.rd Reg.ETH_TUN_TX_ACKED = d.ack.toNat ∧ t.eth.rtoCnt = 0 ∧ t.eth.dgrams = [])))) ∧
    (s.eth.ackDue = true → (∃ t, exec .tunAckSend s = .next t ∧ (t.eth.ackDue = false ∧
      t.eth.ctlTx = s.eth.ctlTx + 1 ∧ ∃ o, t.out = s.out ++ [.datagram o] ∧ o.dst = s.heIp6 ∧
        o.dstPort = s.rd Reg.ETH_HE_PORT ∧ o.key = some k ∧ o.payload = [] ∧
        o.head = dgHeader s.eth.tunVer 2 0x9F 3 (s.rd Reg.ETH_BOOT_ID) s.eth.ctlTx
          (BitVec.ofNat 32 (s.rd Reg.ETH_TUN_RX_NEXT)) 0 s.aon.store.epoch))) ∧
    (∀ (q : Nat) (it : QItem) (l : List QItem), s.runs .CAR = true → 40 ≤ s.freeCells →
      (s.sysQ 0x22).items.length < s.rd Reg.ETH_TUN_WIN → s.drainPick = some q → q ≠ 0x14 → (s.sysQ q).items = it :: l →
      (∃ t, exec .tunDrain s = .next t ∧ ((t.sysQ q).items = l ∧
        t.rd Reg.ETH_TUN_TX_NEXT = (s.rd Reg.ETH_TUN_TX_NEXT + 1) % 2 ^ 32 ∧ t.eth.ackDue = false ∧
        ∃ x o, (t.sysQ 0x22).items = (s.sysQ 0x22).items ++ [x] ∧ x.body = (tunPayload q it).2 ∧
          QItem.tunnel x = some (BitVec.ofNat 32 (s.rd Reg.ETH_TUN_TX_NEXT), if q < 0x12 then 0x90 else 0x91) ∧
          t.out = s.out ++ [.datagram o] ∧ o.key = some k ∧ o.payload = x.body))) ∧
    (s.runs .CAR = true → (s.sysQ 0x22).items ≠ [] → (∃ t, exec .tunRtoExpire s = .next t ∧ (
      t.sysQ 0x22 = s.sysQ 0x22 ∧ t.eth.rtoCnt = s.eth.rtoCnt + 1 ∧ t.eth.ackDue = false ∧
      (∀ (x : QItem) (n : Word) (ty : Byte), (s.sysQ 0x22).items = [x] → QItem.tunnel x = some (n, ty) →
        ∃ o, t.out = s.out ++ [.datagram o] ∧ o.key = some k ∧ o.payload = x.body ∧ o.dst = s.heIp6) ∧
      (s.eth.rtoCnt = 2 → (t.rd Reg.ETH_ETH_EVT).testBit 1 = true))))

/-- R393, R404, R406: heartbeats. One is sent with the next HB_SEQ and its stamp kept, after the records that the link
has taken of the cycles (R403; a cycle has gone with its end record); a good one records the partner and the second in
a row brings the link up; the eighth missed one takes it down, and a STANDBY then claims if the line is released, or
reads SPLIT if it is held. R390, R391, R394, R396, R407: the interlock. A release sensed by a unit that waits, stands
by or is split begins a claim; a claim whose check finds the line low is lost, and the unit goes back to the state it
came from; one whose check passes holds XLOCK, and a unit that came from WAIT is ACTIVE. A takeover ends ACTIVE, and is
counted with its time. Forms that complete here: heartbeatSend, heartbeatRx, heartbeatMiss, xlockReleaseSensed,
claimCheck, takeover. -/
def Obligations.TwinLink : Prop :=
  (∀ s : State, s.twnOn = true →
     (∃ t, exec .heartbeatSend s = .next t ∧ (
       t.out = s.sendMirror.out ++ [.heartbeat s.sendMirror.heartbeat] ∧ t.twn.txSeq = s.twn.txSeq + 1 ∧
       (s.twn.txSeq, s.sys.timeNs) ∈ t.twn.sent ∧
       (s.rd Reg.TWN_TW_STATE ≠ 2 → t.out = s.out ++ [.heartbeat s.heartbeat]))) ∧
     (∀ (it : QItem) (l : List QItem) (c : MirCycle) (r : List MirCycle), (s.sysQ 0x28).items = it :: l →
       it.note = .mirror c.n → it.body.take 1 = [3] → s.twn.sending = c :: r →
       let t := s.sendRecord
       Out.mirror c ∈ t.out ∧ t.rd Reg.TWN_TW_CYCLE = c.n.toNat ∧ t.twn.sending = r.filter (fun x => x.n ≠ c.n)) ∧
     (∀ hb : Heartbeat, hb.good = false → exec (.heartbeatRx hb) s = .next s) ∧
     (∀ hb : Heartbeat, hb.good = true → (∃ t, exec (.heartbeatRx hb) s = .next t ∧ (t.twn.partner = hb.state ∧
       t.twn.miss = 0 ∧ t.twn.rxSeq = hb.seq ∧ t.twn.rxTime = s.sys.timeNs ∧
       (1 ≤ s.twn.good → s.rd Reg.TWN_TW_STATE = 1 → hb.state = 1 → t.on Reg.TWN_TW_LINK = true) ∧
       (s.rd Reg.TWN_TW_STATE = 1 → hb.state = 2 → t.rd Reg.TWN_TW_STATE = 3)))) ∧
     (∀ held : Bool, s.twn.miss < 7 → exec (.heartbeatMiss held) s = .next ({ s.bump Reg.TWN_HB_MISS with twn.miss := s.twn.miss + 1, twn.good := 0 })) ∧
     (∀ held : Bool, s.twn.miss = 7 → s.rd Reg.TWN_TW_STATE = 4 → (∃ t, exec (.heartbeatMiss held) s = .next t ∧ (
       t.on Reg.TWN_TW_LINK = false ∧ t.rd Reg.TWN_TW_VER = 0 ∧ t.rd Reg.TWN_TW_STATE = (if held then 5 else 6) ∧
       (held = true → (t.rd Reg.TWN_TW_EVT).testBit 2 = true) ∧ (held = false → t.twn.from_ = 4))))) ∧
  (∀ s : State,
     (s.sys.hold = .none → s.rd Reg.SYS_BOOT_STAGE = 0xB ∨ s.rd Reg.SYS_BOOT_STAGE = 0xD → s.holds = false →
       s.runs .TWN = true →
       (s.on Reg.TWN_TW_EN = false → exec .xlockReleaseSensed s = .next ({ s with twn.claiming := true, twn.claimAt := s.sys.uptime })) ∧
       (∀ n : BitVec 3, s.on Reg.TWN_TW_EN = true → s.rd Reg.TWN_TW_STATE = n.toNat → (n = 1 ∨ n = 4 ∨ n = 5) →
         (∃ t, exec .xlockReleaseSensed s = .next t ∧ (t.rd Reg.TWN_TW_STATE = 6 ∧ t.twn.from_ = n ∧
           t.twn.claimAt = s.sys.uptime)))) ∧
     (s.twn.claiming = true →
       exec (.claimCheck false) s = .next (({ s with twn.claiming := false } : State).wr Reg.TWN_TW_HOLD 1) ∧
       exec (.claimCheck true) s = .next (({ s with twn.claiming := false } : State).bump Reg.TWN_CLAIM_LOST)) ∧
     (s.twn.claiming = false → s.rd Reg.TWN_TW_STATE = 6 → s.holds = false →
       (∃ t, exec (.claimCheck true) s = .next t ∧ (t.rd Reg.TWN_TW_STATE = s.twn.from_.toNat ∧ t.holds = false)) ∧
       (s.twn.from_ = 1 → (∃ t, exec (.claimCheck false) s = .next t ∧ (t.holds = true ∧ t.rd Reg.TWN_TW_STATE = 2))) ∧
       (s.twn.from_ ≠ 1 → exec (.claimCheck false) s = .next (s.wr Reg.TWN_TW_HOLD 1))) ∧
     (∀ us : Nat, s.twnOn = true → s.rd Reg.TWN_TW_STATE = 6 → s.holds = true → s.twn.from_ ≠ 1 →
       (∃ t, exec (.takeover us) s = .next t ∧ (t.rd Reg.TWN_TW_STATE = 2 ∧ t.twn.joined = false ∧
         (s.twn.held = none → s.car.nodeQs = [] → s.car.sysQs = [] → s.rd Reg.TWN_SWAP_ST ≠ 1 →
           t.rd Reg.TWN_TKO_TIME = min us 65535)))))

/-- R398 to R403, R409, R410: the active cuts a cycle, whole or of what changed, whose records go to queue 0x28 or wait
for cells; a standby applies a whole cycle at once, holds one received in part, and drops one that fails its checks, a
selective one with what it has applied; the full copy applied, a SYNCING unit stands by. SWAP arms the unit, CANCEL
disarms it, a second without the swap ends it as TIMED_OUT. A relayed record reaches SYS as the twin source. Forms that
complete here: mirrorCut, mirrorCycleApply, syncDone, relayRecord, twSwap, twCancel, swapArmTimeout. -/
def Obligations.MirroringAndSwap : Prop :=
  ∀ s : State,
    (s.twnOn = true →
      (s.rd Reg.TWN_TW_STATE = 2 → s.twn.joined = true → s.on Reg.TWN_TW_LINK = true → s.twn.sending = [] →
        s.twn.toLink = [] → (s.sysQ 0x28).items = [] → (∃ t, exec .mirrorCut s = .next t ∧ (
          t.twn.base = some s.mirBase ∧ t.twn.cutMs = s.ms / 2 * 2 ∧ t.ntb = s.ntb ∧ t.car.nodeQs = s.car.nodeQs ∧
          t.phy = s.phy ∧ ∃ c, t.twn.sending = [c] ∧ c.n = BitVec.ofNat 16 (s.ms / 2) ∧ c.cutMs = s.ms / 2 * 2 ∧
            c.full = s.regimeFull ∧
            (c.full = true → c.slots = s.ntb.slots ∧ c.dir = s.ntb.dir ∧ c.nodeQs = s.car.nodeQs ∧ c.tmaps = s.phy.tmaps ∧
              (t.sysQ 0x28).items.map (fun x => x.body) ++ t.twn.toLink.map (fun r => r.2) =
                (cycleFrames c (cycleRecords c [])).map (fun r => r.2)) ∧
            (c.full = false → s.twn.fullCopy = false → s.twn.copy = none → ∀ b, s.twn.base = some b →
              c.slots = s.ntb.slots.filter (fun p => mget b.slots p.1 ≠ some p.2) ∧
              c.goneSlots = freed s.ntb.slots b.slots)))) ∧
      (∀ c : MirCycle, s.on Reg.TWN_TW_LINK = true → s.rd Reg.TWN_TW_STATE = 4 → s.runs .CAR = true →
        s.twn.copied = true → c.n = BitVec.ofNat 16 (s.rd Reg.TWN_TW_CYCLE) + 1 →
        let s' := s.dropReceived
        (c.endSeen = false →
          1024 + ((cycleFrames c (cycleRecords c [])).dropLast.map (fun r => cellsOf r.2.length)).sum ≤ s'.freeCells →
          (∃ t, exec (.mirrorCycleApply c) s = .next t ∧ (t.twn.held = some c ∧ t.ntb = s.ntb ∧ t.car.nodeQs = s.car.nodeQs ∧
            t.rd Reg.TWN_TW_STATE = 4))) ∧
        (c.endSeen = true → c.full = true → c.declared ≠ c.received ∨ c.badCrc ≠ 0 →
          exec (.mirrorCycleApply c) s = .next (((s'.bumpN Reg.TWN_CYC_DROP 1).bumpN Reg.TWN_MIR_CRC c.badCrc).dropReceived)) ∧
        (c.endSeen = true → c.full = false → c.declared ≠ c.received ∨ c.badCrc ≠ 0 →
          (∃ t, exec (.mirrorCycleApply c) s = .next t ∧ (t.rd Reg.TWN_TW_STATE = 3 ∧ t.twn.copied = false ∧
            t.ntb.slots = [] ∧ t.car.nodeQs = []))) ∧
        (c.endSeen = true → c.declared = c.received → c.badCrc = 0 → 1024 ≤ (s'.applyCycle c).freeCells →
          (∃ t, exec (.mirrorCycleApply c) s = .next t ∧ (t.twn.cutMs = c.cutMs ∧ t.rd Reg.TWN_TW_CYCLE = c.n.toNat ∧
            t.rd Reg.TWN_TW_STATE = 4 ∧ t.car.nodeQs = (s'.applyCycle c).car.nodeQs ∧
            t.phy.tmaps = (applyTable c.full s.phy.tmaps c.tmaps []).filter (fun p => p.2 ≠ TMap.zero) ∧
            (c.full = true → c.slots = [] → c.dir = [] → c.nodeQs = [] →
              t.ntb.slots = [] ∧ t.ntb.dir = [] ∧ t.car.nodeQs = [] ∧ t.twn.copied = true))))) ∧
      (s.rd Reg.TWN_TW_STATE = 3 → s.twn.copied = true → (∃ t, exec .syncDone s = .next t ∧ (t.rd Reg.TWN_TW_STATE = 4 ∧
        (t.rd Reg.TWN_TW_EVT).testBit 4 = true))) ∧
      (∀ r : SessRec, s.standby = true → s.on Reg.TWN_TW_LINK = true → s.rd Reg.TWN_TW_VER = 2 →
        (∃ t, exec (.relayRecord r) s = .next t ∧ (∃ dst, dst.src = SessSrc.twin ∧ t = State.sessPost s dst r)))) ∧
    (s.hostMay .TWN = true →
      exec .twSwap s = .next ((s.numbered 1).wr Reg.TWN_SWAP_ST 1) ∧
      (s.rd Reg.TWN_SWAP_ST = 1 → exec .twCancel s = .next ({ (s.numbered 1).wr Reg.TWN_SWAP_ST 0 with
        twn.swapStop := false, twn.final := none })) ∧
      (s.rd Reg.TWN_SWAP_ST ≠ 1 → exec .twCancel s = .next (s.numbered 1))) ∧
    (s.rd Reg.TWN_SWAP_ST = 1 → s.runs .TWN = true → exec .swapArmTimeout s = .next ({ s.wr Reg.TWN_SWAP_ST 3 with twn.swapStop := false, twn.final := none }))

/-! ### Self-test, faults and recovery (R413 to R460) -/

/-- R449, R452, R459: demand tests. Memory and logic tests run in the test halt alone and end DONE with what they
found; a host's command for one elsewhere is REFUSED. PERC_PASS runs in TEST and RMA alone, FUSE too, where the repairs
in effect become repairs of OTP if they fit. R453, R455 to R457: the Percolator. A slice without a fault moves PERC_POS
on, and after the last one back to 0 with one more pass; one with a fault sets its event and PERC_LAST_FAIL, and is
repaired where spares cover it, else counted as unrepaired; one that is cut off is counted, and the position moves on.
Forms that complete here: bistMemory, bistLogic, bistPercPass, fuse, percSlice, percCutoff. -/
def Obligations.TestsAndPercolator : Prop :=
  (∀ s : State,
     (s.sys.hold = .none → s.testHalt = true → s.rd Reg.TST_BIST_STAT ≠ 1 →
       (∀ (g : BitVec 4) (l : List MacroFault), (∃ t, exec (.bistMemory g l) s = .next t ∧ (t.rd Reg.TST_BIST_STAT = 2 ∧
         t.rd Reg.TST_BIST_FOUND = (if faultsIn (bistGrps g) l = [] then 0 else 1) ∧
         (t.rd Reg.TST_TST_EVT).testBit 5 = true))) ∧
       (∀ (g : BitVec 4) (x : BitVec 16), (∃ t, exec (.bistLogic g x) s = .next t ∧ (t.rd Reg.TST_BIST_STAT = 2 ∧
         t.rd Reg.TST_BIST_FOUND = (if lbistIn (bistGrps g) x = 0 then 0 else 1) ∧
         (t.rd Reg.TST_TST_EVT).testBit 5 = true)))) ∧
     (s.hostMay .TST = true → s.testHalt = false →
       (s.rd Reg.TST_BIST_STAT ≠ 1 →
         (∀ g l, exec (.bistMemory g l) s = .next ((s.numbered 1).wr Reg.TST_BIST_STAT 3)) ∧
         (∀ g x, exec (.bistLogic g x) s = .next ((s.numbered 1).wr Reg.TST_BIST_STAT 3)) ∧
         (s.labState = true → s.percRuns = true → (∃ t, exec .bistPercPass s = .next t ∧ (t.rd Reg.TST_BIST_STAT = 1 ∧
           t.rd Reg.TST_BIST_FOUND = 0 ∧ t.tst = { s.tst with demand := 0x2001 }))) ∧
         (s.labState = false → exec .bistPercPass s = .next ((s.numbered 1).wr Reg.TST_BIST_STAT 3))) ∧
       (s.labState = false → exec .fuse s = .next ((s.numbered 1).wr Reg.TST_REP_STAT 3)) ∧
       (∀ l, s.labState = true → l = s.tst.repairs.filter (fun r => !covered s.otp.repairs r.mac r.col r.index) →
         (∃ t, exec .fuse s = .next t ∧ (if s.otp.repairs.length + l.length ≤ 1024 then
             t.rd Reg.TST_REP_STAT = 2 ∧ t.otp = { s.otp with repairs := s.otp.repairs ++ l }
           else t = (s.numbered 1).wr Reg.TST_REP_STAT 3))))) ∧
  (∀ s : State, s.sliceMay = true →
     let pos := s.rd Reg.TST_PERC_POS
     let next := fun (t : State) => t.rd Reg.TST_PERC_POS = (if pos = 0x2000 then 0 else pos + 1) % 2 ^ 14
     (∀ hurt, (∃ t, exec (.percSlice [] hurt) s = .next t ∧ (next t ∧ t.tst.repairs = s.tst.repairs ∧ t.nvm = s.nvm ∧
       (pos = 0x2000 → (t.rd Reg.TST_TST_EVT).testBit 4 = true)))) ∧
     (∀ (l : List MacroFault) (hurt : List Upset), sliceFaults l ≠ [] → (∃ t, exec (.percSlice l hurt) s = .next t ∧ (next t ∧
       t.rd Reg.TST_PERC_LAST_FAIL = (0x8000 + pos) % 65536 ∧ (t.rd Reg.TST_TST_EVT).testBit 0 = true ∧
       ((sliceFaults l).all s.mends = true → (t.rd Reg.TST_TST_EVT).testBit 1 = true ∧ t.ntb = s.ntb ∧
         t.tst.repairs = s.tst.repairs ++ (sliceFaults l).flatMap (fun f => s.needs f 2)) ∧
       ((sliceFaults l).all s.mends = false → (t.rd Reg.TST_TST_EVT).testBit 2 = true ∧ t.tst.repairs = s.tst.repairs)))) ∧
     (∃ t, exec .percCutoff s = .next t ∧ (next t ∧ t.nvm = s.nvm ∧ t.tst.repairs = s.tst.repairs)))

/-- R16, R18, R278, R344, R413, R419, R423: an error of an island other than SYS and KEY opens a recovery generation:
the island's run bit is cleared, its fault event set, REC_STATE reads RECOVERING, REC_ISL and REC_CAUSE name it; then
it stops as its own rule says. An item whose tag check fails is lost with what follows for its stream. An error of SYS
or KEY resets the device. (FAB_LAST_CAUSE of a reserved stream class and of two causes at once is the model's choice,
log entry 72.) R417, R419, R422, R424: a stopped island that has not faulted three times runs again and does what its
rule says at its restart; with every island running the resume points are published; REC_ACK ends the generation and
lifts every fence; a read of the fence list takes its head, or shows VALID clear. Forms that complete here:
islandStateParity, spineTapError, handshakeTimeout, carafeDoubleError, fabTagCheckFail, islandRestart, resumePublish,
recAck, fncPop. -/
def Obligations.FaultsAndRecovery : Prop :=
  (∀ s : State, s.sys.hold = .none → s.halted = false →
     let opened := fun (isl : Isl) (cause : Nat) (u : State) => u.runs isl = false ∧ u.rd Reg.SYS_REC_STATE = 1 ∧
       u.rd Reg.SYS_REC_ISL = isl.num ∧ u.rd Reg.SYS_REC_CAUSE = cause ∧ u.sys.fltCount = [isl.num] ∧
       (if isl.num < 8 then (u.rd Reg.SYS_ISL_FLT_L).testBit isl.num else
         (u.rd Reg.SYS_ISL_FLT_H).testBit (isl.num - 8)) = true
     let stopped := fun (isl : Isl) (cause : Nat) (t : State) => ∃ u, opened isl cause u ∧ t = State.stopIsland u isl
     (∀ isl : Isl, isl ≠ .SYS → isl ≠ .KEY → s.rd Reg.SYS_REC_STATE = 0 → s.runs isl = true →
       (∃ t, exec (.islandStateParity isl) s = .next t ∧ (stopped isl 1) t) ∧ (∃ t, exec (.spineTapError isl) s = .next t ∧ (stopped isl 1) t) ∧
       (∃ t, exec (.handshakeTimeout isl) s = .next t ∧ (stopped isl 2) t)) ∧
     (∀ (cell : BitVec 16) (mem : CarMem), s.rd Reg.SYS_REC_STATE = 0 → s.runs .CAR = true →
       (∃ t, exec (.carafeDoubleError cell mem) s = .next t ∧ (stopped .CAR 3 t ∧ t.rd Reg.CAR_DE_LOC = cell.toNat ∧
         t.car.deCells = s.car.deCells ++ [cell.toNat]))) ∧
     (∀ (rcv snd : Isl) (tag : Word64), snd ≠ .SYS → snd ≠ .KEY → s.rd Reg.SYS_REC_STATE = 0 → s.runs rcv = true →
       s.runs snd = true → tagEven tag = false ∨ tagFits rcv tag = false →
       (∃ t, exec (.fabTagCheckFail rcv snd tag) s = .next t ∧ (∃ u, opened snd 4 u ∧
         u.rd Reg.SYS_FAB_LAST_SRC = snd.num ∧ u.rd Reg.SYS_FAB_LAST_CAUSE = (if tagEven tag then 2 else 1) ∧
         (s.tagged rcv tag (!tagEven tag) = none → t = State.stopIsland u snd) ∧
         (∀ x, s.tagged rcv tag (!tagEven tag) = some x → t = State.itemLost (State.stopIsland u snd) x)))) ∧
     exec (.islandStateParity .SYS) s = .next (s.internalReset 3 .none) ∧
     exec (.islandStateParity .KEY) s = .next (s.internalReset 4 .none)) ∧
  (∀ s : State,
     (∀ isl : Isl, s.sys.hold = .none → s.halted = false → s.runs isl = false →
       (s.faults isl < 3 → (s.setRun isl true).runs isl = true ∧
         exec (.islandRestart isl) s = .next (((s.setRun isl true).restartIsland isl).abortRun)) ∧
       (3 ≤ s.faults isl → exec (.islandRestart isl) s = .next s)) ∧
     (s.sys.hold = .none → s.rd Reg.SYS_REC_STATE = 1 → s.allRun = true → (∃ t, exec .resumePublish s = .next t ∧ (
       t.rd Reg.SYS_REC_STATE = 2 ∧ (t.rd Reg.SYS_REC_EVT).testBit 0 = true ∧ t.sys.fences = s.sys.fences ∧ t.ntb = s.ntb))) ∧
     (s.rd Reg.SYS_REC_STATE = 2 →
       (s.headless = false ∧ s.hostMay .SYS = true ∨
        s.headless = false ∧ s.sys.linkUp = true ∧ s.live = true ∧ s.runs .HST = true ∧ s.on Reg.SYS_REGW_FENCED = true ∨
        s.headless = true ∧ s.sys.hold = .none ∧ s.live = true) →
       (∃ t, exec .recAck s = .next t ∧ (t.rd Reg.SYS_REC_STATE = 0 ∧ t.sys.fences = [] ∧ t.sys.fltCount = [] ∧
         t.on Reg.SYS_REGW_FENCED = false ∧ t.on Reg.SYS_TBL_FENCED = false ∧
         ∀ r < 33, t.rdB Reg.HST_RING_FENCED 0 r = 0))) ∧
     (s.hostReads .SYS = true →
       (∀ (e : FncEntry) (l : List FncEntry), s.sys.fenceList = e :: l → (∃ t, exec .fncPop s = .next t ∧ (
         t.sys.fenceList = l ∧ t.rd Reg.SYS_FNC_VALID = 1 ∧ t.rd Reg.SYS_FNC_HANDLE = e.handle.toNat ∧
         t.rd Reg.SYS_FNC_HSEQ = e.hseq.toNat ∧ t.rd Reg.SYS_FNC_GEN = e.gen.toNat ∧
         t.hostData = BitVec.ofNat 8 e.handle.toNat))) ∧
       (s.sys.fenceList = [] → (∃ t, exec .fncPop s = .next t ∧ (t.sys = s.sys ∧ t.rd Reg.SYS_FNC_VALID = 0 ∧
         t.rd Reg.SYS_FNC_EMPTY = 1)))))
end

