-- ==== Sys2Proof/Laws/Maps.lean ====
section
/-!
SUPPORT. The sparse maps, the register file over them, and the NVM bytes: a read after a write, and that every operation
keeps the canonical form (R4, R68).
-/

namespace Sys2Proof.Machine

/-! ### Sparse maps

A read after an operation is one equation for each operation, in which the key decides; the canonical form is that the keys
rise. -/

theorem mget_mput {α : Type} (l : List (Nat × α)) (k j : Nat) (v : α) :
    mget (mput l k v) j = if j = k then some v else mget l j := by
  fun_induction mput l k v <;> grind [mget]

/-- What a filter by key leaves reads as before; the rest is not listed. -/
theorem mget_filter {α : Type} (l : List (Nat × α)) (f : Nat → Bool) (j : Nat) :
    mget (l.filter (fun p => f p.1)) j = if f j then mget l j else none := by
  induction l <;> grind [mget]

theorem mdel_filter {α : Type} (l : List (Nat × α)) (k : Nat) : mdel l k = l.filter (fun p => p.1 ≠ k) := by
  fun_induction mdel l k <;> grind

theorem mget_mdel {α : Type} (l : List (Nat × α)) (k j : Nat) : mget (mdel l k) j = if j = k then none else mget l j := by
  rw [mdel_filter, mget_filter l (fun n => n ≠ k)]; grind

theorem mget_mset {α : Type} (l : List (Nat × α)) (k j : Nat) (v : Option α) :
    mget (mset l k v) j = if j = k then v else mget l j := by
  cases v <;> simp [mset, mget_mput, mget_mdel]

theorem mget_mput_same {α : Type} (l : List (Nat × α)) (k : Nat) (v : α) : mget (mput l k v) k = some v := by
  simp [mget_mput]

theorem mget_mput_other {α : Type} (l : List (Nat × α)) (k j : Nat) (v : α) (h : j ≠ k) :
    mget (mput l k v) j = mget l j := by
  simp [mget_mput, h]

@[simp] theorem mget_mset_same {α : Type} (l : List (Nat × α)) (k : Nat) (v : Option α) : mget (mset l k v) k = v := by
  simp [mget_mset]

theorem mget_mset_other {α : Type} (l : List (Nat × α)) (k j : Nat) (v : Option α) (h : j ≠ k) :
    mget (mset l k v) j = mget l j := by
  simp [mget_mset, h]

/-- The canonical form: keys strictly rising. -/
theorem mwf_iff {α : Type} (l : List (Nat × α)) : mwf l = true ↔ l.Pairwise (fun p q => p.1 < q.1) := by
  fun_induction mwf l with
  | case1 => simp
  | case2 k v => simp
  | case3 k v k' v' t ih => simp only [Bool.and_eq_true, decide_eq_true_eq, ih]; grind [List.pairwise_cons]

theorem mem_mput {α : Type} (l : List (Nat × α)) (k : Nat) (v : α) (p : Nat × α) (h : p ∈ mput l k v) :
    p = (k, v) ∨ p ∈ l := by
  fun_induction mput l k v <;> grind

theorem filter_mwf {α : Type} (l : List (Nat × α)) (f : Nat × α → Bool) (h : mwf l = true) :
    mwf (l.filter f) = true :=
  (mwf_iff _).mpr (((mwf_iff l).mp h).sublist List.filter_sublist)

theorem mput_mwf {α : Type} (l : List (Nat × α)) (k : Nat) (v : α) (h : mwf l = true) : mwf (mput l k v) = true := by
  rw [mwf_iff] at h ⊢
  have new := fun t => mem_mput t k v
  fun_induction mput l k v with
  | case1 => simp
  | case2 k' v' t a => grind [List.pairwise_cons]
  | case3 v' t a => grind [List.pairwise_cons]
  | case4 k' v' t a b ih =>
    rw [List.pairwise_cons] at h ⊢
    refine ⟨fun p q => ?_, ih h.2⟩
    have := new t p q
    grind

theorem mset_mwf {α : Type} (l : List (Nat × α)) (k : Nat) (v : Option α) (h : mwf l = true) :
    mwf (mset l k v) = true := by
  cases v with
  | none => rw [mset, mdel_filter]; exact filter_mwf l _ h
  | some x => exact mput_mwf l k x h

/-! ### Register fields -/

@[simp] theorem State.rdB_wrB_same (s : State) (f : Fld) (i b v : Nat) :
    (s.wrB f i b v).rdB f i b = v % 2 ^ f.width := by
  simp only [State.rdB, State.wrB, mget_mset_same]
  split
  · rename_i h; simp [h]
  · rfl

theorem State.rdB_wrB_other (s : State) (f g : Fld) (i b j c v : Nat) (h : g.key j c ≠ f.key i b) :
    (s.wrB f i b v).rdB g j c = s.rdB g j c := by
  simp only [State.rdB, State.wrB, mget_mset_other _ _ _ _ h]

theorem State.rd_wr_same (s : State) (f : Fld) (v : Nat) : (s.wr f v).rd f = v % 2 ^ f.width := by
  simp [State.rd, State.wr]

theorem State.rd_wr_other (s : State) (f g : Fld) (v : Nat) (h : g.key 0 0 ≠ f.key 0 0) :
    (s.wr f v).rd g = s.rd g := by
  simp only [State.rd, State.wr]; exact s.rdB_wrB_other f g 0 0 0 0 v h

theorem State.wrB_regsOk (s : State) (f : Fld) (i b v : Nat) (h : s.regsOk = true) :
    (s.wrB f i b v).regsOk = true := by
  simp only [State.regsOk, State.wrB] at h ⊢
  exact mset_mwf _ _ _ h

/-! ### NVM bytes (R68) -/

theorem nvmRead_prog_same (m : List Host.Cell) (a : Nat) (v : BitVec 8) :
    nvmRead (nvmProg m a v) a = nvmRead m a &&& v := by
  simp only [nvmRead, nvmProg, mget_mset_same]
  by_cases h : (mget m a).getD nvmErased &&& v = nvmErased <;> simp [h]

theorem nvmRead_prog_other (m : List Host.Cell) (a b : Nat) (v : BitVec 8) (h : b ≠ a) :
    nvmRead (nvmProg m a v) b = nvmRead m b := by
  simp only [nvmRead, nvmProg, mget_mset_other _ _ _ _ h]

/-- An erase leaves 0xFF in its sector and nothing else changed. -/
theorem nvmRead_erase (m : List Host.Cell) (a n b : Nat) :
    nvmRead (nvmErase m a n) b = if a ≤ b ∧ b < a + n then nvmErased else nvmRead m b := by
  have := mget_filter m (fun x => x < a || a + n ≤ x) b
  simp only [nvmRead, nvmErase, this]
  grind

theorem nvmRead_erase_in (m : List Host.Cell) (a n b : Nat) (h : a ≤ b) (k : b < a + n) :
    nvmRead (nvmErase m a n) b = nvmErased := by
  simp [nvmRead_erase, h, k]

theorem nvmRead_erase_out (m : List Host.Cell) (a n b : Nat) (h : b < a ∨ a + n ≤ b) :
    nvmRead (nvmErase m a n) b = nvmRead m b := by
  rw [nvmRead_erase, if_neg (by omega)]

theorem nvmProg_wf (m : List Host.Cell) (a : Nat) (v : BitVec 8) (h : Memory.wf m = true) :
    Memory.wf (nvmProg m a v) = true := by
  simp only [Memory.wf, Bool.and_eq_true, List.all_eq_true, decide_eq_true_eq] at h ⊢
  have e : ∀ c ∈ nvmProg m a v, c ∈ m ∨ c.2 ≠ nvmErased := by
    intro c
    unfold nvmProg
    generalize nvmRead m a &&& v = w
    dsimp only
    split
    · rw [mset, mdel_filter]; exact fun hc => .inl (List.mem_of_mem_filter hc)
    · intro hc; have := mem_mput _ _ _ _ hc; grind
  exact ⟨mset_mwf _ _ _ h.1, fun c hc => (e c hc).elim (h.2 c) id⟩

theorem nvmProgs_wf (l : List (BitVec 8)) (m : List Host.Cell) (a : Nat) (h : Memory.wf m = true) :
    Memory.wf (nvmProgs m a l) = true := by
  induction l generalizing m a with
  | nil => exact h
  | cons b t ih => exact ih _ _ (nvmProg_wf m a b h)

theorem nvmErase_wf (m : List Host.Cell) (a n : Nat) (h : Memory.wf m = true) : Memory.wf (nvmErase m a n) = true := by
  simp only [Memory.wf, Bool.and_eq_true, List.all_eq_true] at h ⊢
  exact ⟨filter_mwf _ _ h.1, fun c hc => h.2 c (List.mem_filter.mp hc).1⟩

theorem reset_nvmOk : State.reset.nvmOk = true := by rfl

end Sys2Proof.Machine
end

