-- ==== Sys2Proof/Laws/Host.lean ====
section
/-!
SUPPORT. A host write that is accepted, and the register fields as a chain of writes leaves them.
-/

namespace Sys2Proof.Machine

theorem State.hostOp_may (s : State) (isl : Isl) (f : State → State) (n : Nat) (h : s.hostMay isl = true) :
    s.hostOp isl f n = f (s.numbered n) := by
  simp only [State.hostMay, Bool.and_eq_true, Bool.not_eq_true'] at h
  obtain ⟨⟨⟨⟨a, b⟩, c⟩, d⟩, e⟩ := h
  simp [State.hostOp, State.hostGate, a, b, c, d, e, State.numbered]

@[simp] theorem State.numbered_regs (s : State) (n : Nat) : (s.numbered n).regs = s.regs := rfl

@[simp] theorem State.rdB_numbered (s : State) (n : Nat) (f : Fld) (i b : Nat) : (s.numbered n).rdB f i b = s.rdB f i b := rfl

/-- A field depends on the register file alone. -/
theorem State.rdB_congr (s t : State) (f : Fld) (i b : Nat) (h : t.regs = s.regs) : t.rdB f i b = s.rdB f i b := by
  simp only [State.rdB, h]

theorem State.rd_congr (s t : State) (f : Fld) (h : t.regs = s.regs) : t.rd f = s.rd f := State.rdB_congr s t f 0 0 h

/-- Setting an event bit leaves it set (R433). -/
theorem State.ev_sets (s : State) (f : Fld) (b base : Nat) (h : b < f.width) : ((s.ev f b base).rd f).testBit b = true := by
  unfold State.ev
  split
  · assumption
  · rename_i hb
    have e : ((s.wr f (s.rd f + 2 ^ b)).event (base + b)).rd f = (s.rd f + 2 ^ b) % 2 ^ f.width := by
      have := State.rd_wr_same s f (s.rd f + 2 ^ b)
      rw [← this]; exact State.rd_congr _ _ _ rfl
    rw [e, Nat.testBit_mod_two_pow]
    simp only [h, decide_true, Bool.true_and]
    rw [Nat.add_comm, Nat.testBit_two_pow_add_eq]
    simpa using hb

/-- Setting an event bit leaves every other field as it was. -/
theorem State.ev_other (s : State) (f g : Fld) (b base i c : Nat) (h : g.key i c ≠ f.key 0 0) :
    (s.ev f b base).rdB g i c = s.rdB g i c := by
  unfold State.ev
  split
  · rfl
  · rw [← State.rdB_wrB_other s f g 0 0 i c (s.rd f + 2 ^ b) h]; rfl

end Sys2Proof.Machine
end

