-- ==== Sys2Proof/Laws/State.lean ====
section
/-!
SUPPORT. What the parts of the state do under the forms that meanings are written in: a conditional, a fold over a list,
the state that an outcome answers.
-/

namespace Sys2Proof.Machine

@[simp] theorem Outcome.get_next (t s : State) : Outcome.get (.next t) s = t := rfl

@[simp] theorem State.regs_ite (p : Prop) [Decidable p] (a b : State) :
    (if p then a else b).regs = if p then a.regs else b.regs := by split <;> rfl

@[simp] theorem State.staged_ite (p : Prop) [Decidable p] (a b : State) :
    (if p then a else b).staged = if p then a.staged else b.staged := by split <;> rfl

@[simp] theorem State.captured_ite (p : Prop) [Decidable p] (a b : State) :
    (if p then a else b).captured = if p then a.captured else b.captured := by split <;> rfl

@[simp] theorem State.hostData_ite (p : Prop) [Decidable p] (a b : State) :
    (if p then a else b).hostData = if p then a.hostData else b.hostData := by split <;> rfl

@[simp] theorem State.sys_ite (p : Prop) [Decidable p] (a b : State) :
    (if p then a else b).sys = if p then a.sys else b.sys := by split <;> rfl

@[simp] theorem State.irq_ite (p : Prop) [Decidable p] (a b : State) :
    (if p then a else b).irq = if p then a.irq else b.irq := by split <;> rfl

@[simp] theorem State.feL_ite (p : Prop) [Decidable p] (a b : State) :
    (if p then a else b).feL = if p then a.feL else b.feL := by split <;> rfl

@[simp] theorem State.feH_ite (p : Prop) [Decidable p] (a b : State) :
    (if p then a else b).feH = if p then a.feH else b.feH := by split <;> rfl

@[simp] theorem State.feI_ite (p : Prop) [Decidable p] (a b : State) :
    (if p then a else b).feI = if p then a.feI else b.feI := by split <;> rfl

@[simp] theorem State.grn_ite (p : Prop) [Decidable p] (a b : State) :
    (if p then a else b).grn = if p then a.grn else b.grn := by split <;> rfl

@[simp] theorem State.phy_ite (p : Prop) [Decidable p] (a b : State) :
    (if p then a else b).phy = if p then a.phy else b.phy := by split <;> rfl

@[simp] theorem State.ntb_ite (p : Prop) [Decidable p] (a b : State) :
    (if p then a else b).ntb = if p then a.ntb else b.ntb := by split <;> rfl

@[simp] theorem State.sch_ite (p : Prop) [Decidable p] (a b : State) :
    (if p then a else b).sch = if p then a.sch else b.sch := by split <;> rfl

@[simp] theorem State.car_ite (p : Prop) [Decidable p] (a b : State) :
    (if p then a else b).car = if p then a.car else b.car := by split <;> rfl

@[simp] theorem State.hst_ite (p : Prop) [Decidable p] (a b : State) :
    (if p then a else b).hst = if p then a.hst else b.hst := by split <;> rfl

@[simp] theorem State.key_ite (p : Prop) [Decidable p] (a b : State) :
    (if p then a else b).key = if p then a.key else b.key := by split <;> rfl

@[simp] theorem State.tim_ite (p : Prop) [Decidable p] (a b : State) :
    (if p then a else b).tim = if p then a.tim else b.tim := by split <;> rfl

@[simp] theorem State.eth_ite (p : Prop) [Decidable p] (a b : State) :
    (if p then a else b).eth = if p then a.eth else b.eth := by split <;> rfl

@[simp] theorem State.twn_ite (p : Prop) [Decidable p] (a b : State) :
    (if p then a else b).twn = if p then a.twn else b.twn := by split <;> rfl

@[simp] theorem State.tst_ite (p : Prop) [Decidable p] (a b : State) :
    (if p then a else b).tst = if p then a.tst else b.tst := by split <;> rfl

@[simp] theorem State.aon_ite (p : Prop) [Decidable p] (a b : State) :
    (if p then a else b).aon = if p then a.aon else b.aon := by split <;> rfl

@[simp] theorem State.otp_ite (p : Prop) [Decidable p] (a b : State) :
    (if p then a else b).otp = if p then a.otp else b.otp := by split <;> rfl

@[simp] theorem State.nvm_ite (p : Prop) [Decidable p] (a b : State) :
    (if p then a else b).nvm = if p then a.nvm else b.nvm := by split <;> rfl

@[simp] theorem State.free_ite (p : Prop) [Decidable p] (a b : State) :
    (if p then a else b).free = if p then a.free else b.free := by split <;> rfl

@[simp] theorem State.out_ite (p : Prop) [Decidable p] (a b : State) :
    (if p then a else b).out = if p then a.out else b.out := by split <;> rfl

@[simp] theorem State.pending_ite (p : Prop) [Decidable p] (a b : State) :
    (if p then a else b).pending = if p then a.pending else b.pending := by split <;> rfl

/-- What each step of a fold leaves, the fold leaves. -/
theorem foldl_keeps {σ α γ : Type} (f : σ → γ) (g : σ → α → σ) (l : List α) (s : σ)
    (h : ∀ t x, f (g t x) = f t) : f (l.foldl g s) = f s :=
  List.foldlRecOn l g (motive := fun t => f t = f s) rfl (fun t ht x _ => (h t x).trans ht)

@[simp] theorem State.regs_foldl {α : Type} (g : State → α → State) (l : List α) (s : State)
    (h : ∀ t x, (g t x).regs = t.regs) : (l.foldl g s).regs = s.regs := foldl_keeps State.regs g l s h

@[simp] theorem State.staged_foldl {α : Type} (g : State → α → State) (l : List α) (s : State)
    (h : ∀ t x, (g t x).staged = t.staged) : (l.foldl g s).staged = s.staged := foldl_keeps State.staged g l s h

@[simp] theorem State.captured_foldl {α : Type} (g : State → α → State) (l : List α) (s : State)
    (h : ∀ t x, (g t x).captured = t.captured) : (l.foldl g s).captured = s.captured := foldl_keeps State.captured g l s h

@[simp] theorem State.hostData_foldl {α : Type} (g : State → α → State) (l : List α) (s : State)
    (h : ∀ t x, (g t x).hostData = t.hostData) : (l.foldl g s).hostData = s.hostData := foldl_keeps State.hostData g l s h

@[simp] theorem State.sys_foldl {α : Type} (g : State → α → State) (l : List α) (s : State)
    (h : ∀ t x, (g t x).sys = t.sys) : (l.foldl g s).sys = s.sys := foldl_keeps State.sys g l s h

@[simp] theorem State.irq_foldl {α : Type} (g : State → α → State) (l : List α) (s : State)
    (h : ∀ t x, (g t x).irq = t.irq) : (l.foldl g s).irq = s.irq := foldl_keeps State.irq g l s h

@[simp] theorem State.feL_foldl {α : Type} (g : State → α → State) (l : List α) (s : State)
    (h : ∀ t x, (g t x).feL = t.feL) : (l.foldl g s).feL = s.feL := foldl_keeps State.feL g l s h

@[simp] theorem State.feH_foldl {α : Type} (g : State → α → State) (l : List α) (s : State)
    (h : ∀ t x, (g t x).feH = t.feH) : (l.foldl g s).feH = s.feH := foldl_keeps State.feH g l s h

@[simp] theorem State.feI_foldl {α : Type} (g : State → α → State) (l : List α) (s : State)
    (h : ∀ t x, (g t x).feI = t.feI) : (l.foldl g s).feI = s.feI := foldl_keeps State.feI g l s h

@[simp] theorem State.grn_foldl {α : Type} (g : State → α → State) (l : List α) (s : State)
    (h : ∀ t x, (g t x).grn = t.grn) : (l.foldl g s).grn = s.grn := foldl_keeps State.grn g l s h

@[simp] theorem State.phy_foldl {α : Type} (g : State → α → State) (l : List α) (s : State)
    (h : ∀ t x, (g t x).phy = t.phy) : (l.foldl g s).phy = s.phy := foldl_keeps State.phy g l s h

@[simp] theorem State.ntb_foldl {α : Type} (g : State → α → State) (l : List α) (s : State)
    (h : ∀ t x, (g t x).ntb = t.ntb) : (l.foldl g s).ntb = s.ntb := foldl_keeps State.ntb g l s h

@[simp] theorem State.sch_foldl {α : Type} (g : State → α → State) (l : List α) (s : State)
    (h : ∀ t x, (g t x).sch = t.sch) : (l.foldl g s).sch = s.sch := foldl_keeps State.sch g l s h

@[simp] theorem State.car_foldl {α : Type} (g : State → α → State) (l : List α) (s : State)
    (h : ∀ t x, (g t x).car = t.car) : (l.foldl g s).car = s.car := foldl_keeps State.car g l s h

@[simp] theorem State.hst_foldl {α : Type} (g : State → α → State) (l : List α) (s : State)
    (h : ∀ t x, (g t x).hst = t.hst) : (l.foldl g s).hst = s.hst := foldl_keeps State.hst g l s h

@[simp] theorem State.key_foldl {α : Type} (g : State → α → State) (l : List α) (s : State)
    (h : ∀ t x, (g t x).key = t.key) : (l.foldl g s).key = s.key := foldl_keeps State.key g l s h

@[simp] theorem State.tim_foldl {α : Type} (g : State → α → State) (l : List α) (s : State)
    (h : ∀ t x, (g t x).tim = t.tim) : (l.foldl g s).tim = s.tim := foldl_keeps State.tim g l s h

@[simp] theorem State.eth_foldl {α : Type} (g : State → α → State) (l : List α) (s : State)
    (h : ∀ t x, (g t x).eth = t.eth) : (l.foldl g s).eth = s.eth := foldl_keeps State.eth g l s h

@[simp] theorem State.twn_foldl {α : Type} (g : State → α → State) (l : List α) (s : State)
    (h : ∀ t x, (g t x).twn = t.twn) : (l.foldl g s).twn = s.twn := foldl_keeps State.twn g l s h

@[simp] theorem State.tst_foldl {α : Type} (g : State → α → State) (l : List α) (s : State)
    (h : ∀ t x, (g t x).tst = t.tst) : (l.foldl g s).tst = s.tst := foldl_keeps State.tst g l s h

@[simp] theorem State.aon_foldl {α : Type} (g : State → α → State) (l : List α) (s : State)
    (h : ∀ t x, (g t x).aon = t.aon) : (l.foldl g s).aon = s.aon := foldl_keeps State.aon g l s h

@[simp] theorem State.otp_foldl {α : Type} (g : State → α → State) (l : List α) (s : State)
    (h : ∀ t x, (g t x).otp = t.otp) : (l.foldl g s).otp = s.otp := foldl_keeps State.otp g l s h

@[simp] theorem State.nvm_foldl {α : Type} (g : State → α → State) (l : List α) (s : State)
    (h : ∀ t x, (g t x).nvm = t.nvm) : (l.foldl g s).nvm = s.nvm := foldl_keeps State.nvm g l s h

@[simp] theorem State.free_foldl {α : Type} (g : State → α → State) (l : List α) (s : State)
    (h : ∀ t x, (g t x).free = t.free) : (l.foldl g s).free = s.free := foldl_keeps State.free g l s h

@[simp] theorem State.out_foldl {α : Type} (g : State → α → State) (l : List α) (s : State)
    (h : ∀ t x, (g t x).out = t.out) : (l.foldl g s).out = s.out := foldl_keeps State.out g l s h

@[simp] theorem State.pending_foldl {α : Type} (g : State → α → State) (l : List α) (s : State)
    (h : ∀ t x, (g t x).pending = t.pending) : (l.foldl g s).pending = s.pending := foldl_keeps State.pending g l s h

@[simp] theorem snd_ite {α β : Type} (p : Prop) [Decidable p] (a b : α × β) :
    (if p then a else b).2 = if p then a.2 else b.2 := by split <;> rfl

@[simp] theorem Outcome.get_ite (p : Prop) [Decidable p] (a b : Host.Outcome State Fault Refusal) (s : State) :
    Outcome.get (if p then a else b) s = if p then Outcome.get a s else Outcome.get b s := by split <;> rfl

/-- The second half of a pair, from an equation that a match on it leaves. -/
theorem snd_of_eq {α β : Type} {p : α × β} {a : α} {b : β} (h : p = (a, b)) : b = p.2 := by rw [h]

@[simp] theorem State.regs_foldl_snd {α β : Type} (g : β × State → α → β × State) (l : List α) (p : β × State)
    (h : ∀ q x, (g q x).2.regs = q.2.regs) : (l.foldl g p).2.regs = p.2.regs := foldl_keeps (fun q => q.2.regs) g l p h

@[simp] theorem State.staged_foldl_snd {α β : Type} (g : β × State → α → β × State) (l : List α) (p : β × State)
    (h : ∀ q x, (g q x).2.staged = q.2.staged) : (l.foldl g p).2.staged = p.2.staged := foldl_keeps (fun q => q.2.staged) g l p h

@[simp] theorem State.captured_foldl_snd {α β : Type} (g : β × State → α → β × State) (l : List α) (p : β × State)
    (h : ∀ q x, (g q x).2.captured = q.2.captured) : (l.foldl g p).2.captured = p.2.captured := foldl_keeps (fun q => q.2.captured) g l p h

@[simp] theorem State.hostData_foldl_snd {α β : Type} (g : β × State → α → β × State) (l : List α) (p : β × State)
    (h : ∀ q x, (g q x).2.hostData = q.2.hostData) : (l.foldl g p).2.hostData = p.2.hostData := foldl_keeps (fun q => q.2.hostData) g l p h

@[simp] theorem State.sys_foldl_snd {α β : Type} (g : β × State → α → β × State) (l : List α) (p : β × State)
    (h : ∀ q x, (g q x).2.sys = q.2.sys) : (l.foldl g p).2.sys = p.2.sys := foldl_keeps (fun q => q.2.sys) g l p h

@[simp] theorem State.irq_foldl_snd {α β : Type} (g : β × State → α → β × State) (l : List α) (p : β × State)
    (h : ∀ q x, (g q x).2.irq = q.2.irq) : (l.foldl g p).2.irq = p.2.irq := foldl_keeps (fun q => q.2.irq) g l p h

@[simp] theorem State.feL_foldl_snd {α β : Type} (g : β × State → α → β × State) (l : List α) (p : β × State)
    (h : ∀ q x, (g q x).2.feL = q.2.feL) : (l.foldl g p).2.feL = p.2.feL := foldl_keeps (fun q => q.2.feL) g l p h

@[simp] theorem State.feH_foldl_snd {α β : Type} (g : β × State → α → β × State) (l : List α) (p : β × State)
    (h : ∀ q x, (g q x).2.feH = q.2.feH) : (l.foldl g p).2.feH = p.2.feH := foldl_keeps (fun q => q.2.feH) g l p h

@[simp] theorem State.feI_foldl_snd {α β : Type} (g : β × State → α → β × State) (l : List α) (p : β × State)
    (h : ∀ q x, (g q x).2.feI = q.2.feI) : (l.foldl g p).2.feI = p.2.feI := foldl_keeps (fun q => q.2.feI) g l p h

@[simp] theorem State.grn_foldl_snd {α β : Type} (g : β × State → α → β × State) (l : List α) (p : β × State)
    (h : ∀ q x, (g q x).2.grn = q.2.grn) : (l.foldl g p).2.grn = p.2.grn := foldl_keeps (fun q => q.2.grn) g l p h

@[simp] theorem State.phy_foldl_snd {α β : Type} (g : β × State → α → β × State) (l : List α) (p : β × State)
    (h : ∀ q x, (g q x).2.phy = q.2.phy) : (l.foldl g p).2.phy = p.2.phy := foldl_keeps (fun q => q.2.phy) g l p h

@[simp] theorem State.ntb_foldl_snd {α β : Type} (g : β × State → α → β × State) (l : List α) (p : β × State)
    (h : ∀ q x, (g q x).2.ntb = q.2.ntb) : (l.foldl g p).2.ntb = p.2.ntb := foldl_keeps (fun q => q.2.ntb) g l p h

@[simp] theorem State.sch_foldl_snd {α β : Type} (g : β × State → α → β × State) (l : List α) (p : β × State)
    (h : ∀ q x, (g q x).2.sch = q.2.sch) : (l.foldl g p).2.sch = p.2.sch := foldl_keeps (fun q => q.2.sch) g l p h

@[simp] theorem State.car_foldl_snd {α β : Type} (g : β × State → α → β × State) (l : List α) (p : β × State)
    (h : ∀ q x, (g q x).2.car = q.2.car) : (l.foldl g p).2.car = p.2.car := foldl_keeps (fun q => q.2.car) g l p h

@[simp] theorem State.hst_foldl_snd {α β : Type} (g : β × State → α → β × State) (l : List α) (p : β × State)
    (h : ∀ q x, (g q x).2.hst = q.2.hst) : (l.foldl g p).2.hst = p.2.hst := foldl_keeps (fun q => q.2.hst) g l p h

@[simp] theorem State.key_foldl_snd {α β : Type} (g : β × State → α → β × State) (l : List α) (p : β × State)
    (h : ∀ q x, (g q x).2.key = q.2.key) : (l.foldl g p).2.key = p.2.key := foldl_keeps (fun q => q.2.key) g l p h

@[simp] theorem State.tim_foldl_snd {α β : Type} (g : β × State → α → β × State) (l : List α) (p : β × State)
    (h : ∀ q x, (g q x).2.tim = q.2.tim) : (l.foldl g p).2.tim = p.2.tim := foldl_keeps (fun q => q.2.tim) g l p h

@[simp] theorem State.eth_foldl_snd {α β : Type} (g : β × State → α → β × State) (l : List α) (p : β × State)
    (h : ∀ q x, (g q x).2.eth = q.2.eth) : (l.foldl g p).2.eth = p.2.eth := foldl_keeps (fun q => q.2.eth) g l p h

@[simp] theorem State.twn_foldl_snd {α β : Type} (g : β × State → α → β × State) (l : List α) (p : β × State)
    (h : ∀ q x, (g q x).2.twn = q.2.twn) : (l.foldl g p).2.twn = p.2.twn := foldl_keeps (fun q => q.2.twn) g l p h

@[simp] theorem State.tst_foldl_snd {α β : Type} (g : β × State → α → β × State) (l : List α) (p : β × State)
    (h : ∀ q x, (g q x).2.tst = q.2.tst) : (l.foldl g p).2.tst = p.2.tst := foldl_keeps (fun q => q.2.tst) g l p h

@[simp] theorem State.aon_foldl_snd {α β : Type} (g : β × State → α → β × State) (l : List α) (p : β × State)
    (h : ∀ q x, (g q x).2.aon = q.2.aon) : (l.foldl g p).2.aon = p.2.aon := foldl_keeps (fun q => q.2.aon) g l p h

@[simp] theorem State.otp_foldl_snd {α β : Type} (g : β × State → α → β × State) (l : List α) (p : β × State)
    (h : ∀ q x, (g q x).2.otp = q.2.otp) : (l.foldl g p).2.otp = p.2.otp := foldl_keeps (fun q => q.2.otp) g l p h

@[simp] theorem State.nvm_foldl_snd {α β : Type} (g : β × State → α → β × State) (l : List α) (p : β × State)
    (h : ∀ q x, (g q x).2.nvm = q.2.nvm) : (l.foldl g p).2.nvm = p.2.nvm := foldl_keeps (fun q => q.2.nvm) g l p h

@[simp] theorem State.free_foldl_snd {α β : Type} (g : β × State → α → β × State) (l : List α) (p : β × State)
    (h : ∀ q x, (g q x).2.free = q.2.free) : (l.foldl g p).2.free = p.2.free := foldl_keeps (fun q => q.2.free) g l p h

@[simp] theorem State.out_foldl_snd {α β : Type} (g : β × State → α → β × State) (l : List α) (p : β × State)
    (h : ∀ q x, (g q x).2.out = q.2.out) : (l.foldl g p).2.out = p.2.out := foldl_keeps (fun q => q.2.out) g l p h

@[simp] theorem State.pending_foldl_snd {α β : Type} (g : β × State → α → β × State) (l : List α) (p : β × State)
    (h : ∀ q x, (g q x).2.pending = q.2.pending) : (l.foldl g p).2.pending = p.2.pending := foldl_keeps (fun q => q.2.pending) g l p h

end Sys2Proof.Machine
end

