-- ==== Sys2Proof/Laws/KeepsOps.lean ====
section
/-!
SUPPORT. What each operation of Machine/Ops.lean leaves as it was.
-/

namespace Sys2Proof.Machine

@[simp] theorem State.wrB_keeps (s : State) (f : Fld) (i b v : Nat) : let t := State.wrB s f i b v
    t.staged = s.staged ∧ t.captured = s.captured ∧ t.hostData = s.hostData ∧ t.sys = s.sys ∧ t.irq = s.irq ∧
    t.feL = s.feL ∧ t.feH = s.feH ∧ t.feI = s.feI ∧ t.grn = s.grn ∧ t.phy = s.phy ∧ t.ntb = s.ntb ∧ t.sch = s.sch ∧
    t.car = s.car ∧ t.hst = s.hst ∧ t.key = s.key ∧ t.tim = s.tim ∧ t.eth = s.eth ∧ t.twn = s.twn ∧ t.tst = s.tst ∧
    t.aon = s.aon ∧ t.otp = s.otp ∧ t.nvm = s.nvm ∧ t.free = s.free ∧ t.out = s.out ∧ t.pending = s.pending := by
  simp [State.wrB]

@[simp] theorem State.wrI_keeps (s : State) (f : Fld) (i v : Nat) : let t := State.wrI s f i v
    t.staged = s.staged ∧ t.captured = s.captured ∧ t.hostData = s.hostData ∧ t.sys = s.sys ∧ t.irq = s.irq ∧
    t.feL = s.feL ∧ t.feH = s.feH ∧ t.feI = s.feI ∧ t.grn = s.grn ∧ t.phy = s.phy ∧ t.ntb = s.ntb ∧ t.sch = s.sch ∧
    t.car = s.car ∧ t.hst = s.hst ∧ t.key = s.key ∧ t.tim = s.tim ∧ t.eth = s.eth ∧ t.twn = s.twn ∧ t.tst = s.tst ∧
    t.aon = s.aon ∧ t.otp = s.otp ∧ t.nvm = s.nvm ∧ t.free = s.free ∧ t.out = s.out ∧ t.pending = s.pending := by
  simp [State.wrI]

@[simp] theorem State.wr_keeps (s : State) (f : Fld) (v : Nat) : let t := State.wr s f v
    t.staged = s.staged ∧ t.captured = s.captured ∧ t.hostData = s.hostData ∧ t.sys = s.sys ∧ t.irq = s.irq ∧
    t.feL = s.feL ∧ t.feH = s.feH ∧ t.feI = s.feI ∧ t.grn = s.grn ∧ t.phy = s.phy ∧ t.ntb = s.ntb ∧ t.sch = s.sch ∧
    t.car = s.car ∧ t.hst = s.hst ∧ t.key = s.key ∧ t.tim = s.tim ∧ t.eth = s.eth ∧ t.twn = s.twn ∧ t.tst = s.tst ∧
    t.aon = s.aon ∧ t.otp = s.otp ∧ t.nvm = s.nvm ∧ t.free = s.free ∧ t.out = s.out ∧ t.pending = s.pending := by
  simp [State.wr]

@[simp] theorem State.wrS_keeps (s : State) (f : Fld) (v : Int) : let t := State.wrS s f v
    t.staged = s.staged ∧ t.captured = s.captured ∧ t.hostData = s.hostData ∧ t.sys = s.sys ∧ t.irq = s.irq ∧
    t.feL = s.feL ∧ t.feH = s.feH ∧ t.feI = s.feI ∧ t.grn = s.grn ∧ t.phy = s.phy ∧ t.ntb = s.ntb ∧ t.sch = s.sch ∧
    t.car = s.car ∧ t.hst = s.hst ∧ t.key = s.key ∧ t.tim = s.tim ∧ t.eth = s.eth ∧ t.twn = s.twn ∧ t.tst = s.tst ∧
    t.aon = s.aon ∧ t.otp = s.otp ∧ t.nvm = s.nvm ∧ t.free = s.free ∧ t.out = s.out ∧ t.pending = s.pending := by
  simp [State.wrS]

@[simp] theorem State.bumpN_keeps (s : State) (f : Fld) (n : Nat) : let t := State.bumpN s f n
    t.staged = s.staged ∧ t.captured = s.captured ∧ t.hostData = s.hostData ∧ t.sys = s.sys ∧ t.irq = s.irq ∧
    t.feL = s.feL ∧ t.feH = s.feH ∧ t.feI = s.feI ∧ t.grn = s.grn ∧ t.phy = s.phy ∧ t.ntb = s.ntb ∧ t.sch = s.sch ∧
    t.car = s.car ∧ t.hst = s.hst ∧ t.key = s.key ∧ t.tim = s.tim ∧ t.eth = s.eth ∧ t.twn = s.twn ∧ t.tst = s.tst ∧
    t.aon = s.aon ∧ t.otp = s.otp ∧ t.nvm = s.nvm ∧ t.free = s.free ∧ t.out = s.out ∧ t.pending = s.pending := by
  simp [State.bumpN]

@[simp] theorem State.bump_keeps (s : State) (f : Fld) : let t := State.bump s f
    t.staged = s.staged ∧ t.captured = s.captured ∧ t.hostData = s.hostData ∧ t.sys = s.sys ∧ t.irq = s.irq ∧
    t.feL = s.feL ∧ t.feH = s.feH ∧ t.feI = s.feI ∧ t.grn = s.grn ∧ t.phy = s.phy ∧ t.ntb = s.ntb ∧ t.sch = s.sch ∧
    t.car = s.car ∧ t.hst = s.hst ∧ t.key = s.key ∧ t.tim = s.tim ∧ t.eth = s.eth ∧ t.twn = s.twn ∧ t.tst = s.tst ∧
    t.aon = s.aon ∧ t.otp = s.otp ∧ t.nvm = s.nvm ∧ t.free = s.free ∧ t.out = s.out ∧ t.pending = s.pending := by
  simp [State.bump]

@[simp] theorem State.bumpB_keeps (s : State) (f : Fld) (b : Nat) : let t := State.bumpB s f b
    t.staged = s.staged ∧ t.captured = s.captured ∧ t.hostData = s.hostData ∧ t.sys = s.sys ∧ t.irq = s.irq ∧
    t.feL = s.feL ∧ t.feH = s.feH ∧ t.feI = s.feI ∧ t.grn = s.grn ∧ t.phy = s.phy ∧ t.ntb = s.ntb ∧ t.sch = s.sch ∧
    t.car = s.car ∧ t.hst = s.hst ∧ t.key = s.key ∧ t.tim = s.tim ∧ t.eth = s.eth ∧ t.twn = s.twn ∧ t.tst = s.tst ∧
    t.aon = s.aon ∧ t.otp = s.otp ∧ t.nvm = s.nvm ∧ t.free = s.free ∧ t.out = s.out ∧ t.pending = s.pending := by
  simp [State.bumpB]

@[simp] theorem State.bumpI_keeps (s : State) (f : Fld) (i : Nat) : let t := State.bumpI s f i
    t.staged = s.staged ∧ t.captured = s.captured ∧ t.hostData = s.hostData ∧ t.sys = s.sys ∧ t.irq = s.irq ∧
    t.feL = s.feL ∧ t.feH = s.feH ∧ t.feI = s.feI ∧ t.grn = s.grn ∧ t.phy = s.phy ∧ t.ntb = s.ntb ∧ t.sch = s.sch ∧
    t.car = s.car ∧ t.hst = s.hst ∧ t.key = s.key ∧ t.tim = s.tim ∧ t.eth = s.eth ∧ t.twn = s.twn ∧ t.tst = s.tst ∧
    t.aon = s.aon ∧ t.otp = s.otp ∧ t.nvm = s.nvm ∧ t.free = s.free ∧ t.out = s.out ∧ t.pending = s.pending := by
  simp [State.bumpI]

@[simp] theorem State.wrapN_keeps (s : State) (f : Fld) (n : Nat) : let t := State.wrapN s f n
    t.staged = s.staged ∧ t.captured = s.captured ∧ t.hostData = s.hostData ∧ t.sys = s.sys ∧ t.irq = s.irq ∧
    t.feL = s.feL ∧ t.feH = s.feH ∧ t.feI = s.feI ∧ t.grn = s.grn ∧ t.phy = s.phy ∧ t.ntb = s.ntb ∧ t.sch = s.sch ∧
    t.car = s.car ∧ t.hst = s.hst ∧ t.key = s.key ∧ t.tim = s.tim ∧ t.eth = s.eth ∧ t.twn = s.twn ∧ t.tst = s.tst ∧
    t.aon = s.aon ∧ t.otp = s.otp ∧ t.nvm = s.nvm ∧ t.free = s.free ∧ t.out = s.out ∧ t.pending = s.pending := by
  simp [State.wrapN]

@[simp] theorem State.wrap_keeps (s : State) (f : Fld) : let t := State.wrap s f
    t.staged = s.staged ∧ t.captured = s.captured ∧ t.hostData = s.hostData ∧ t.sys = s.sys ∧ t.irq = s.irq ∧
    t.feL = s.feL ∧ t.feH = s.feH ∧ t.feI = s.feI ∧ t.grn = s.grn ∧ t.phy = s.phy ∧ t.ntb = s.ntb ∧ t.sch = s.sch ∧
    t.car = s.car ∧ t.hst = s.hst ∧ t.key = s.key ∧ t.tim = s.tim ∧ t.eth = s.eth ∧ t.twn = s.twn ∧ t.tst = s.tst ∧
    t.aon = s.aon ∧ t.otp = s.otp ∧ t.nvm = s.nvm ∧ t.free = s.free ∧ t.out = s.out ∧ t.pending = s.pending := by
  simp [State.wrap]

@[simp] theorem State.peak_keeps (s : State) (f : Fld) (v : Nat) : let t := State.peak s f v
    t.staged = s.staged ∧ t.captured = s.captured ∧ t.hostData = s.hostData ∧ t.sys = s.sys ∧ t.irq = s.irq ∧
    t.feL = s.feL ∧ t.feH = s.feH ∧ t.feI = s.feI ∧ t.grn = s.grn ∧ t.phy = s.phy ∧ t.ntb = s.ntb ∧ t.sch = s.sch ∧
    t.car = s.car ∧ t.hst = s.hst ∧ t.key = s.key ∧ t.tim = s.tim ∧ t.eth = s.eth ∧ t.twn = s.twn ∧ t.tst = s.tst ∧
    t.aon = s.aon ∧ t.otp = s.otp ∧ t.nvm = s.nvm ∧ t.free = s.free ∧ t.out = s.out ∧ t.pending = s.pending := by
  simp [State.peak]

@[simp] theorem State.trough_keeps (s : State) (f : Fld) (v : Nat) : let t := State.trough s f v
    t.staged = s.staged ∧ t.captured = s.captured ∧ t.hostData = s.hostData ∧ t.sys = s.sys ∧ t.irq = s.irq ∧
    t.feL = s.feL ∧ t.feH = s.feH ∧ t.feI = s.feI ∧ t.grn = s.grn ∧ t.phy = s.phy ∧ t.ntb = s.ntb ∧ t.sch = s.sch ∧
    t.car = s.car ∧ t.hst = s.hst ∧ t.key = s.key ∧ t.tim = s.tim ∧ t.eth = s.eth ∧ t.twn = s.twn ∧ t.tst = s.tst ∧
    t.aon = s.aon ∧ t.otp = s.otp ∧ t.nvm = s.nvm ∧ t.free = s.free ∧ t.out = s.out ∧ t.pending = s.pending := by
  simp [State.trough]

@[simp] theorem State.localBump_keeps (s : State) (isl : Nat) : let t := State.localBump s isl
    t.regs = s.regs ∧ t.staged = s.staged ∧ t.captured = s.captured ∧ t.hostData = s.hostData ∧ t.irq = s.irq ∧
    t.feL = s.feL ∧ t.feH = s.feH ∧ t.feI = s.feI ∧ t.grn = s.grn ∧ t.phy = s.phy ∧ t.ntb = s.ntb ∧ t.sch = s.sch ∧
    t.car = s.car ∧ t.hst = s.hst ∧ t.key = s.key ∧ t.tim = s.tim ∧ t.eth = s.eth ∧ t.twn = s.twn ∧ t.tst = s.tst ∧
    t.aon = s.aon ∧ t.otp = s.otp ∧ t.nvm = s.nvm ∧ t.free = s.free ∧ t.out = s.out ∧ t.pending = s.pending := by
  simp [State.localBump]

@[simp] theorem State.event_keeps (s : State) (src : Nat) : let t := State.event s src
    t.regs = s.regs ∧ t.staged = s.staged ∧ t.captured = s.captured ∧ t.hostData = s.hostData ∧ t.feL = s.feL ∧
    t.feH = s.feH ∧ t.feI = s.feI ∧ t.grn = s.grn ∧ t.phy = s.phy ∧ t.ntb = s.ntb ∧ t.sch = s.sch ∧ t.car = s.car ∧
    t.hst = s.hst ∧ t.key = s.key ∧ t.tim = s.tim ∧ t.eth = s.eth ∧ t.twn = s.twn ∧ t.tst = s.tst ∧ t.aon = s.aon ∧
    t.otp = s.otp ∧ t.nvm = s.nvm ∧ t.free = s.free ∧ t.out = s.out ∧ t.pending = s.pending := by
  simp [State.event]

@[simp] theorem State.ev_keeps (s : State) (f : Fld) (b base : Nat) : let t := State.ev s f b base
    t.staged = s.staged ∧ t.captured = s.captured ∧ t.hostData = s.hostData ∧ t.feL = s.feL ∧ t.feH = s.feH ∧
    t.feI = s.feI ∧ t.grn = s.grn ∧ t.phy = s.phy ∧ t.ntb = s.ntb ∧ t.sch = s.sch ∧ t.car = s.car ∧ t.hst = s.hst ∧
    t.key = s.key ∧ t.tim = s.tim ∧ t.eth = s.eth ∧ t.twn = s.twn ∧ t.tst = s.tst ∧ t.aon = s.aon ∧ t.otp = s.otp ∧
    t.nvm = s.nvm ∧ t.free = s.free ∧ t.out = s.out ∧ t.pending = s.pending := by
  simp [State.ev]

@[simp] theorem State.setFe_keeps (s : State) (g : Grp) (x : GrpSt) : let t := State.setFe s g x
    t.regs = s.regs ∧ t.staged = s.staged ∧ t.captured = s.captured ∧ t.hostData = s.hostData ∧ t.sys = s.sys ∧
    t.irq = s.irq ∧ t.grn = s.grn ∧ t.phy = s.phy ∧ t.ntb = s.ntb ∧ t.sch = s.sch ∧ t.car = s.car ∧ t.hst = s.hst ∧
    t.key = s.key ∧ t.tim = s.tim ∧ t.eth = s.eth ∧ t.twn = s.twn ∧ t.tst = s.tst ∧ t.aon = s.aon ∧ t.otp = s.otp ∧
    t.nvm = s.nvm ∧ t.free = s.free ∧ t.out = s.out ∧ t.pending = s.pending := by
  unfold State.setFe
  try dsimp only
  (repeat' split) <;> simp

@[simp] theorem State.setDom_keeps (s : State) (d : Dom) (x : DomSt) : let t := State.setDom s d x
    t.regs = s.regs ∧ t.staged = s.staged ∧ t.captured = s.captured ∧ t.hostData = s.hostData ∧ t.sys = s.sys ∧
    t.irq = s.irq ∧ t.feL = s.feL ∧ t.feH = s.feH ∧ t.feI = s.feI ∧ t.grn = s.grn ∧ t.phy = s.phy ∧ t.ntb = s.ntb ∧
    t.sch = s.sch ∧ t.car = s.car ∧ t.hst = s.hst ∧ t.key = s.key ∧ t.eth = s.eth ∧ t.twn = s.twn ∧ t.tst = s.tst ∧
    t.aon = s.aon ∧ t.otp = s.otp ∧ t.nvm = s.nvm ∧ t.free = s.free ∧ t.out = s.out ∧ t.pending = s.pending := by
  unfold State.setDom
  try dsimp only
  (repeat' split) <;> simp

@[simp] theorem State.tick_keeps (s : State) : let t := State.tick s
    t.regs = s.regs ∧ t.staged = s.staged ∧ t.captured = s.captured ∧ t.hostData = s.hostData ∧ t.sys = s.sys ∧
    t.irq = s.irq ∧ t.feL = s.feL ∧ t.feH = s.feH ∧ t.feI = s.feI ∧ t.grn = s.grn ∧ t.phy = s.phy ∧ t.ntb = s.ntb ∧
    t.sch = s.sch ∧ t.car = s.car ∧ t.hst = s.hst ∧ t.key = s.key ∧ t.tim = s.tim ∧ t.eth = s.eth ∧ t.twn = s.twn ∧
    t.tst = s.tst ∧ t.aon = s.aon ∧ t.otp = s.otp ∧ t.nvm = s.nvm ∧ t.out = s.out ∧ t.pending = s.pending := by
  simp [State.tick]

@[simp] theorem State.emit_keeps (s : State) (o : Out) : let t := State.emit s o
    t.regs = s.regs ∧ t.staged = s.staged ∧ t.captured = s.captured ∧ t.hostData = s.hostData ∧ t.sys = s.sys ∧
    t.irq = s.irq ∧ t.feL = s.feL ∧ t.feH = s.feH ∧ t.feI = s.feI ∧ t.grn = s.grn ∧ t.phy = s.phy ∧ t.ntb = s.ntb ∧
    t.sch = s.sch ∧ t.car = s.car ∧ t.hst = s.hst ∧ t.key = s.key ∧ t.tim = s.tim ∧ t.eth = s.eth ∧ t.twn = s.twn ∧
    t.tst = s.tst ∧ t.aon = s.aon ∧ t.otp = s.otp ∧ t.nvm = s.nvm ∧ t.free = s.free ∧ t.pending = s.pending := by
  simp [State.emit]

end Sys2Proof.Machine
end

