-- ==== Sys2Proof/Laws/KeepsClock.lean ====
section
/-!
SUPPORT. What each operation of Machine/Clock.lean leaves as it was.
-/

namespace Sys2Proof.Machine

@[simp] theorem State.clock_keeps (s : State) : let t := State.clock s
    t.regs = s.regs ∧ t.staged = s.staged ∧ t.captured = s.captured ∧ t.hostData = s.hostData ∧ t.irq = s.irq ∧
    t.feL = s.feL ∧ t.feH = s.feH ∧ t.feI = s.feI ∧ t.grn = s.grn ∧ t.phy = s.phy ∧ t.ntb = s.ntb ∧ t.sch = s.sch ∧
    t.car = s.car ∧ t.hst = s.hst ∧ t.key = s.key ∧ t.tim = s.tim ∧ t.eth = s.eth ∧ t.twn = s.twn ∧ t.tst = s.tst ∧
    t.aon = s.aon ∧ t.otp = s.otp ∧ t.nvm = s.nvm ∧ t.free = s.free ∧ t.out = s.out ∧ t.pending = s.pending := by
  simp [State.clock]

end Sys2Proof.Machine
end

