-- ==== Sys2Proof/Laws/KeepsQueues.lean ====
section
/-!
SUPPORT. What each operation of Machine/Queues.lean leaves as it was.
-/

namespace Sys2Proof.Machine

@[simp] theorem State.takeCells_keeps (s : State) (n : Nat) : let t := (State.takeCells s n).2
    t.regs = s.regs ∧ t.staged = s.staged ∧ t.captured = s.captured ∧ t.hostData = s.hostData ∧ t.sys = s.sys ∧
    t.irq = s.irq ∧ t.feL = s.feL ∧ t.feH = s.feH ∧ t.feI = s.feI ∧ t.grn = s.grn ∧ t.phy = s.phy ∧ t.ntb = s.ntb ∧
    t.sch = s.sch ∧ t.car = s.car ∧ t.hst = s.hst ∧ t.key = s.key ∧ t.tim = s.tim ∧ t.eth = s.eth ∧ t.twn = s.twn ∧
    t.tst = s.tst ∧ t.aon = s.aon ∧ t.otp = s.otp ∧ t.nvm = s.nvm ∧ t.out = s.out ∧ t.pending = s.pending := by
  induction n generalizing s with
  | zero => simp [State.takeCells]
  | succ n ih => simp only [State.takeCells]; (repeat' split) <;> simp [ih]

@[simp] theorem State.noteFree_keeps (s : State) : let t := State.noteFree s
    t.staged = s.staged ∧ t.captured = s.captured ∧ t.hostData = s.hostData ∧ t.sys = s.sys ∧ t.irq = s.irq ∧
    t.feL = s.feL ∧ t.feH = s.feH ∧ t.feI = s.feI ∧ t.grn = s.grn ∧ t.phy = s.phy ∧ t.ntb = s.ntb ∧ t.sch = s.sch ∧
    t.car = s.car ∧ t.hst = s.hst ∧ t.key = s.key ∧ t.tim = s.tim ∧ t.eth = s.eth ∧ t.twn = s.twn ∧ t.tst = s.tst ∧
    t.aon = s.aon ∧ t.otp = s.otp ∧ t.nvm = s.nvm ∧ t.free = s.free ∧ t.out = s.out ∧ t.pending = s.pending := by
  simp [State.noteFree]

@[simp] theorem State.setSysQ_keeps (s : State) (q : Nat) (x : Queue) : let t := State.setSysQ s q x
    t.regs = s.regs ∧ t.staged = s.staged ∧ t.captured = s.captured ∧ t.hostData = s.hostData ∧ t.sys = s.sys ∧
    t.irq = s.irq ∧ t.feL = s.feL ∧ t.feH = s.feH ∧ t.feI = s.feI ∧ t.grn = s.grn ∧ t.phy = s.phy ∧ t.ntb = s.ntb ∧
    t.sch = s.sch ∧ t.hst = s.hst ∧ t.key = s.key ∧ t.tim = s.tim ∧ t.eth = s.eth ∧ t.twn = s.twn ∧ t.tst = s.tst ∧
    t.aon = s.aon ∧ t.otp = s.otp ∧ t.nvm = s.nvm ∧ t.free = s.free ∧ t.out = s.out ∧ t.pending = s.pending := by
  simp [State.setSysQ]

@[simp] theorem State.correctCells_keeps (s : State) (cells : List Nat) : let t := State.correctCells s cells
    t.staged = s.staged ∧ t.captured = s.captured ∧ t.hostData = s.hostData ∧ t.feL = s.feL ∧ t.feH = s.feH ∧
    t.feI = s.feI ∧ t.grn = s.grn ∧ t.phy = s.phy ∧ t.ntb = s.ntb ∧ t.sch = s.sch ∧ t.hst = s.hst ∧ t.key = s.key ∧
    t.tim = s.tim ∧ t.eth = s.eth ∧ t.twn = s.twn ∧ t.tst = s.tst ∧ t.aon = s.aon ∧ t.otp = s.otp ∧ t.nvm = s.nvm ∧
    t.free = s.free ∧ t.out = s.out ∧ t.pending = s.pending := by
  simp [State.correctCells]

@[simp] theorem State.linkSys_keeps (s : State) (q : Nat) (hdr : Option Hdr) (body : List Byte) (note : ItemNote) : let t := State.linkSys s q hdr body note
    t.staged = s.staged ∧ t.captured = s.captured ∧ t.hostData = s.hostData ∧ t.feL = s.feL ∧ t.feH = s.feH ∧
    t.feI = s.feI ∧ t.grn = s.grn ∧ t.phy = s.phy ∧ t.ntb = s.ntb ∧ t.sch = s.sch ∧ t.hst = s.hst ∧ t.key = s.key ∧
    t.tim = s.tim ∧ t.eth = s.eth ∧ t.twn = s.twn ∧ t.tst = s.tst ∧ t.aon = s.aon ∧ t.otp = s.otp ∧ t.nvm = s.nvm ∧
    t.out = s.out ∧ t.pending = s.pending := by
  simp [State.linkSys]

@[simp] theorem State.takeItem_keeps (s : State) (q : Nat) (hdr : Option Hdr) (body : List Byte) (note : ItemNote) : let t := State.takeItem s q hdr body note
    t.staged = s.staged ∧ t.captured = s.captured ∧ t.hostData = s.hostData ∧ t.feL = s.feL ∧ t.feH = s.feH ∧
    t.feI = s.feI ∧ t.grn = s.grn ∧ t.phy = s.phy ∧ t.ntb = s.ntb ∧ t.sch = s.sch ∧ t.hst = s.hst ∧ t.key = s.key ∧
    t.tim = s.tim ∧ t.eth = s.eth ∧ t.twn = s.twn ∧ t.tst = s.tst ∧ t.aon = s.aon ∧ t.otp = s.otp ∧ t.nvm = s.nvm ∧
    t.out = s.out ∧ t.pending = s.pending := by
  simp [State.takeItem]

@[simp] theorem State.deviceItem_keeps (s : State) (q : Nat) (hdr : Option Hdr) (body : List Byte) (note : ItemNote) : let t := State.deviceItem s q hdr body note
    t.staged = s.staged ∧ t.captured = s.captured ∧ t.hostData = s.hostData ∧ t.feL = s.feL ∧ t.feH = s.feH ∧
    t.feI = s.feI ∧ t.grn = s.grn ∧ t.phy = s.phy ∧ t.ntb = s.ntb ∧ t.sch = s.sch ∧ t.hst = s.hst ∧ t.key = s.key ∧
    t.tim = s.tim ∧ t.eth = s.eth ∧ t.twn = s.twn ∧ t.tst = s.tst ∧ t.aon = s.aon ∧ t.otp = s.otp ∧ t.nvm = s.nvm ∧
    t.out = s.out ∧ t.pending = s.pending := by
  simp [State.deviceItem]

@[simp] theorem State.record_keeps (s : State) (q : Nat) (body : List Byte) : let t := State.record s q body
    t.staged = s.staged ∧ t.captured = s.captured ∧ t.hostData = s.hostData ∧ t.feL = s.feL ∧ t.feH = s.feH ∧
    t.feI = s.feI ∧ t.grn = s.grn ∧ t.phy = s.phy ∧ t.ntb = s.ntb ∧ t.sch = s.sch ∧ t.hst = s.hst ∧ t.key = s.key ∧
    t.tim = s.tim ∧ t.eth = s.eth ∧ t.twn = s.twn ∧ t.tst = s.tst ∧ t.aon = s.aon ∧ t.otp = s.otp ∧ t.nvm = s.nvm ∧
    t.out = s.out ∧ t.pending = s.pending := by
  simp [State.record]

@[simp] theorem State.releaseSys_keeps (s : State) (q : Nat) : let t := State.releaseSys s q
    t.staged = s.staged ∧ t.captured = s.captured ∧ t.hostData = s.hostData ∧ t.feL = s.feL ∧ t.feH = s.feH ∧
    t.feI = s.feI ∧ t.grn = s.grn ∧ t.phy = s.phy ∧ t.ntb = s.ntb ∧ t.sch = s.sch ∧ t.hst = s.hst ∧ t.key = s.key ∧
    t.tim = s.tim ∧ t.eth = s.eth ∧ t.twn = s.twn ∧ t.tst = s.tst ∧ t.aon = s.aon ∧ t.otp = s.otp ∧ t.nvm = s.nvm ∧
    t.free = s.free ∧ t.out = s.out ∧ t.pending = s.pending := by
  simp [State.releaseSys]

@[simp] theorem State.emptySys_keeps (s : State) (q : Nat) : let t := State.emptySys s q
    t.regs = s.regs ∧ t.staged = s.staged ∧ t.captured = s.captured ∧ t.hostData = s.hostData ∧ t.sys = s.sys ∧
    t.irq = s.irq ∧ t.feL = s.feL ∧ t.feH = s.feH ∧ t.feI = s.feI ∧ t.grn = s.grn ∧ t.phy = s.phy ∧ t.ntb = s.ntb ∧
    t.sch = s.sch ∧ t.hst = s.hst ∧ t.key = s.key ∧ t.tim = s.tim ∧ t.eth = s.eth ∧ t.twn = s.twn ∧ t.tst = s.tst ∧
    t.aon = s.aon ∧ t.otp = s.otp ∧ t.nvm = s.nvm ∧ t.free = s.free ∧ t.out = s.out ∧ t.pending = s.pending := by
  simp [State.emptySys]

@[simp] theorem State.dropSending_keeps (s : State) : let t := State.dropSending s
    t.regs = s.regs ∧ t.staged = s.staged ∧ t.captured = s.captured ∧ t.hostData = s.hostData ∧ t.sys = s.sys ∧
    t.irq = s.irq ∧ t.feL = s.feL ∧ t.feH = s.feH ∧ t.feI = s.feI ∧ t.grn = s.grn ∧ t.phy = s.phy ∧ t.ntb = s.ntb ∧
    t.sch = s.sch ∧ t.hst = s.hst ∧ t.key = s.key ∧ t.tim = s.tim ∧ t.eth = s.eth ∧ t.tst = s.tst ∧ t.aon = s.aon ∧
    t.otp = s.otp ∧ t.nvm = s.nvm ∧ t.free = s.free ∧ t.out = s.out ∧ t.pending = s.pending := by
  simp [State.dropSending]

@[simp] theorem State.dropReceived_keeps (s : State) : let t := State.dropReceived s
    t.regs = s.regs ∧ t.staged = s.staged ∧ t.captured = s.captured ∧ t.hostData = s.hostData ∧ t.sys = s.sys ∧
    t.irq = s.irq ∧ t.feL = s.feL ∧ t.feH = s.feH ∧ t.feI = s.feI ∧ t.grn = s.grn ∧ t.phy = s.phy ∧ t.ntb = s.ntb ∧
    t.sch = s.sch ∧ t.hst = s.hst ∧ t.key = s.key ∧ t.tim = s.tim ∧ t.eth = s.eth ∧ t.tst = s.tst ∧ t.aon = s.aon ∧
    t.otp = s.otp ∧ t.nvm = s.nvm ∧ t.free = s.free ∧ t.out = s.out ∧ t.pending = s.pending := by
  simp [State.dropReceived]

@[simp] theorem State.settleSlot_keeps (s : State) (h : Hdr) (c : TxDone) : let t := State.settleSlot s h c
    t.regs = s.regs ∧ t.staged = s.staged ∧ t.captured = s.captured ∧ t.hostData = s.hostData ∧ t.sys = s.sys ∧
    t.irq = s.irq ∧ t.feL = s.feL ∧ t.feH = s.feH ∧ t.feI = s.feI ∧ t.grn = s.grn ∧ t.phy = s.phy ∧ t.ntb = s.ntb ∧
    t.sch = s.sch ∧ t.car = s.car ∧ t.key = s.key ∧ t.tim = s.tim ∧ t.eth = s.eth ∧ t.twn = s.twn ∧ t.tst = s.tst ∧
    t.aon = s.aon ∧ t.otp = s.otp ∧ t.nvm = s.nvm ∧ t.free = s.free ∧ t.out = s.out ∧ t.pending = s.pending := by
  simp [State.settleSlot]

@[simp] theorem State.settle_keeps (s : State) (h : Hdr) (status reason : Byte) : let t := State.settle s h status reason
    t.regs = s.regs ∧ t.staged = s.staged ∧ t.captured = s.captured ∧ t.hostData = s.hostData ∧ t.sys = s.sys ∧
    t.irq = s.irq ∧ t.feL = s.feL ∧ t.feH = s.feH ∧ t.feI = s.feI ∧ t.grn = s.grn ∧ t.phy = s.phy ∧ t.ntb = s.ntb ∧
    t.sch = s.sch ∧ t.car = s.car ∧ t.key = s.key ∧ t.tim = s.tim ∧ t.eth = s.eth ∧ t.twn = s.twn ∧ t.tst = s.tst ∧
    t.aon = s.aon ∧ t.otp = s.otp ∧ t.nvm = s.nvm ∧ t.free = s.free ∧ t.out = s.out ∧ t.pending = s.pending := by
  simp [State.settle]

end Sys2Proof.Machine
end

