-- ==== Sys2Proof/Laws/KeepsTable.lean ====
section
/-!
SUPPORT. What each operation of Machine/Table.lean leaves as it was.
-/

namespace Sys2Proof.Machine

@[simp] theorem State.parityFail_keeps (s : State) (loc : Nat) (sl : Slot) (src : Nat) : let t := State.parityFail s loc sl src
    t.staged = s.staged ∧ t.captured = s.captured ∧ t.hostData = s.hostData ∧ t.feL = s.feL ∧ t.feH = s.feH ∧
    t.feI = s.feI ∧ t.grn = s.grn ∧ t.phy = s.phy ∧ t.sch = s.sch ∧ t.hst = s.hst ∧ t.key = s.key ∧ t.tim = s.tim ∧
    t.eth = s.eth ∧ t.twn = s.twn ∧ t.tst = s.tst ∧ t.aon = s.aon ∧ t.otp = s.otp ∧ t.nvm = s.nvm ∧ t.out = s.out ∧
    t.pending = s.pending := by
  simp [State.parityFail]

@[simp] theorem State.checkWords_keeps (s : State) (loc : Nat) (sl : Slot) (src : Nat) : let t := (State.checkWords s loc sl src).2
    t.staged = s.staged ∧ t.captured = s.captured ∧ t.hostData = s.hostData ∧ t.feL = s.feL ∧ t.feH = s.feH ∧
    t.feI = s.feI ∧ t.grn = s.grn ∧ t.phy = s.phy ∧ t.sch = s.sch ∧ t.hst = s.hst ∧ t.key = s.key ∧ t.tim = s.tim ∧
    t.eth = s.eth ∧ t.twn = s.twn ∧ t.tst = s.tst ∧ t.aon = s.aon ∧ t.otp = s.otp ∧ t.nvm = s.nvm ∧ t.out = s.out ∧
    t.pending = s.pending := by
  simp [State.checkWords]

@[simp] theorem State.probeAt_keeps (s : State) (e : Word64) (src loc : Nat) : let t := (State.probeAt s e src loc).2
    t.staged = s.staged ∧ t.captured = s.captured ∧ t.hostData = s.hostData ∧ t.feL = s.feL ∧ t.feH = s.feH ∧
    t.feI = s.feI ∧ t.grn = s.grn ∧ t.phy = s.phy ∧ t.sch = s.sch ∧ t.hst = s.hst ∧ t.key = s.key ∧ t.tim = s.tim ∧
    t.eth = s.eth ∧ t.twn = s.twn ∧ t.tst = s.tst ∧ t.aon = s.aon ∧ t.otp = s.otp ∧ t.nvm = s.nvm ∧ t.out = s.out ∧
    t.pending = s.pending := by
  unfold State.probeAt
  try dsimp only
  (repeat' split) <;> simp

@[simp] theorem State.probe_keeps (s : State) (e : Word64) (src : Nat) : let t := (State.probe s e src).2
    t.staged = s.staged ∧ t.captured = s.captured ∧ t.hostData = s.hostData ∧ t.feL = s.feL ∧ t.feH = s.feH ∧
    t.feI = s.feI ∧ t.grn = s.grn ∧ t.phy = s.phy ∧ t.sch = s.sch ∧ t.hst = s.hst ∧ t.key = s.key ∧ t.tim = s.tim ∧
    t.eth = s.eth ∧ t.twn = s.twn ∧ t.tst = s.tst ∧ t.aon = s.aon ∧ t.otp = s.otp ∧ t.nvm = s.nvm ∧ t.out = s.out ∧
    t.pending = s.pending := by
  simp [State.probe]

@[simp] theorem State.countLookup_keeps (s : State) (hit : Bool) : let t := State.countLookup s hit
    t.staged = s.staged ∧ t.captured = s.captured ∧ t.hostData = s.hostData ∧ t.sys = s.sys ∧ t.irq = s.irq ∧
    t.feL = s.feL ∧ t.feH = s.feH ∧ t.feI = s.feI ∧ t.grn = s.grn ∧ t.phy = s.phy ∧ t.ntb = s.ntb ∧ t.sch = s.sch ∧
    t.car = s.car ∧ t.hst = s.hst ∧ t.key = s.key ∧ t.tim = s.tim ∧ t.eth = s.eth ∧ t.twn = s.twn ∧ t.tst = s.tst ∧
    t.aon = s.aon ∧ t.otp = s.otp ∧ t.nvm = s.nvm ∧ t.free = s.free ∧ t.out = s.out ∧ t.pending = s.pending := by
  simp [State.countLookup]

@[simp] theorem State.dirLoc_keeps (s : State) (h : BitVec 18) : let t := (State.dirLoc s h).2
    t.staged = s.staged ∧ t.captured = s.captured ∧ t.hostData = s.hostData ∧ t.feL = s.feL ∧ t.feH = s.feH ∧
    t.feI = s.feI ∧ t.grn = s.grn ∧ t.phy = s.phy ∧ t.sch = s.sch ∧ t.hst = s.hst ∧ t.key = s.key ∧ t.tim = s.tim ∧
    t.eth = s.eth ∧ t.twn = s.twn ∧ t.tst = s.tst ∧ t.aon = s.aon ∧ t.otp = s.otp ∧ t.nvm = s.nvm ∧ t.out = s.out ∧
    t.pending = s.pending := by
  unfold State.dirLoc
  try dsimp only
  (repeat' split) <;> simp

@[simp] theorem State.access_keeps (s : State) (h : BitVec 18) (src : Nat) : let t := (State.access s h src).2
    t.staged = s.staged ∧ t.captured = s.captured ∧ t.hostData = s.hostData ∧ t.feL = s.feL ∧ t.feH = s.feH ∧
    t.feI = s.feI ∧ t.grn = s.grn ∧ t.phy = s.phy ∧ t.sch = s.sch ∧ t.hst = s.hst ∧ t.key = s.key ∧ t.tim = s.tim ∧
    t.eth = s.eth ∧ t.twn = s.twn ∧ t.tst = s.tst ∧ t.aon = s.aon ∧ t.otp = s.otp ∧ t.nvm = s.nvm ∧ t.out = s.out ∧
    t.pending = s.pending := by
  unfold State.access
  try dsimp only
  (repeat' split) <;> simp

@[simp] theorem State.readEntry_keeps (s : State) (h : BitVec 18) : let t := (State.readEntry s h).2
    t.staged = s.staged ∧ t.captured = s.captured ∧ t.hostData = s.hostData ∧ t.feL = s.feL ∧ t.feH = s.feH ∧
    t.feI = s.feI ∧ t.grn = s.grn ∧ t.phy = s.phy ∧ t.sch = s.sch ∧ t.hst = s.hst ∧ t.key = s.key ∧ t.tim = s.tim ∧
    t.eth = s.eth ∧ t.twn = s.twn ∧ t.tst = s.tst ∧ t.aon = s.aon ∧ t.otp = s.otp ∧ t.nvm = s.nvm ∧ t.out = s.out ∧
    t.pending = s.pending := by
  simp [State.readEntry]

@[simp] theorem State.updEntry_keeps (s : State) (h : BitVec 18) (f : Entry → Entry) : let t := State.updEntry s h f
    t.staged = s.staged ∧ t.captured = s.captured ∧ t.hostData = s.hostData ∧ t.feL = s.feL ∧ t.feH = s.feH ∧
    t.feI = s.feI ∧ t.grn = s.grn ∧ t.phy = s.phy ∧ t.sch = s.sch ∧ t.hst = s.hst ∧ t.key = s.key ∧ t.tim = s.tim ∧
    t.eth = s.eth ∧ t.twn = s.twn ∧ t.tst = s.tst ∧ t.aon = s.aon ∧ t.otp = s.otp ∧ t.nvm = s.nvm ∧ t.out = s.out ∧
    t.pending = s.pending := by
  unfold State.updEntry
  try dsimp only
  (repeat' split) <;> simp

@[simp] theorem State.noteOcc_keeps (s : State) (stashWas : Nat) : let t := State.noteOcc s stashWas
    t.staged = s.staged ∧ t.captured = s.captured ∧ t.hostData = s.hostData ∧ t.feL = s.feL ∧ t.feH = s.feH ∧
    t.feI = s.feI ∧ t.grn = s.grn ∧ t.phy = s.phy ∧ t.ntb = s.ntb ∧ t.sch = s.sch ∧ t.car = s.car ∧ t.hst = s.hst ∧
    t.key = s.key ∧ t.tim = s.tim ∧ t.eth = s.eth ∧ t.twn = s.twn ∧ t.tst = s.tst ∧ t.aon = s.aon ∧ t.otp = s.otp ∧
    t.nvm = s.nvm ∧ t.free = s.free ∧ t.out = s.out ∧ t.pending = s.pending := by
  simp [State.noteOcc]

@[simp] theorem State.place_keeps (s : State) (e : Entry) (loc : Nat) : let t := State.place s e loc
    t.staged = s.staged ∧ t.captured = s.captured ∧ t.hostData = s.hostData ∧ t.feL = s.feL ∧ t.feH = s.feH ∧
    t.feI = s.feI ∧ t.grn = s.grn ∧ t.phy = s.phy ∧ t.sch = s.sch ∧ t.car = s.car ∧ t.hst = s.hst ∧ t.key = s.key ∧
    t.tim = s.tim ∧ t.eth = s.eth ∧ t.twn = s.twn ∧ t.tst = s.tst ∧ t.aon = s.aon ∧ t.otp = s.otp ∧ t.nvm = s.nvm ∧
    t.free = s.free ∧ t.out = s.out ∧ t.pending = s.pending := by
  simp [State.place]

@[simp] theorem State.move_keeps (s : State) (src dst : Nat) : let t := State.move s src dst
    t.regs = s.regs ∧ t.staged = s.staged ∧ t.captured = s.captured ∧ t.hostData = s.hostData ∧ t.sys = s.sys ∧
    t.irq = s.irq ∧ t.feL = s.feL ∧ t.feH = s.feH ∧ t.feI = s.feI ∧ t.grn = s.grn ∧ t.phy = s.phy ∧ t.sch = s.sch ∧
    t.car = s.car ∧ t.hst = s.hst ∧ t.key = s.key ∧ t.tim = s.tim ∧ t.eth = s.eth ∧ t.twn = s.twn ∧ t.tst = s.tst ∧
    t.aon = s.aon ∧ t.otp = s.otp ∧ t.nvm = s.nvm ∧ t.free = s.free ∧ t.out = s.out ∧ t.pending = s.pending := by
  unfold State.move
  try dsimp only
  (repeat' split) <;> simp

@[simp] theorem State.search_keeps (s : State) (n i way bk : Nat) (path : List Nat) : let t := (State.search s n i way bk path).2
    t.staged = s.staged ∧ t.captured = s.captured ∧ t.hostData = s.hostData ∧ t.feL = s.feL ∧ t.feH = s.feH ∧
    t.feI = s.feI ∧ t.grn = s.grn ∧ t.phy = s.phy ∧ t.sch = s.sch ∧ t.hst = s.hst ∧ t.key = s.key ∧ t.tim = s.tim ∧
    t.eth = s.eth ∧ t.twn = s.twn ∧ t.tst = s.tst ∧ t.aon = s.aon ∧ t.otp = s.otp ∧ t.nvm = s.nvm ∧ t.out = s.out ∧
    t.pending = s.pending := by
  induction n generalizing s i way bk path with
  | zero => simp [State.search]
  | succ n ih => simp only [State.search]; (repeat' split) <;> simp [ih]

@[simp] theorem State.runPath_keeps (s : State) (path : List Nat) (dest : Nat) : let t := State.runPath s path dest
    t.regs = s.regs ∧ t.staged = s.staged ∧ t.captured = s.captured ∧ t.hostData = s.hostData ∧ t.sys = s.sys ∧
    t.irq = s.irq ∧ t.feL = s.feL ∧ t.feH = s.feH ∧ t.feI = s.feI ∧ t.grn = s.grn ∧ t.phy = s.phy ∧ t.sch = s.sch ∧
    t.car = s.car ∧ t.hst = s.hst ∧ t.key = s.key ∧ t.tim = s.tim ∧ t.eth = s.eth ∧ t.twn = s.twn ∧ t.tst = s.tst ∧
    t.aon = s.aon ∧ t.otp = s.otp ∧ t.nvm = s.nvm ∧ t.free = s.free ∧ t.out = s.out ∧ t.pending = s.pending := by
  simp [State.runPath, -List.foldl_reverse]

@[simp] theorem State.findPlace_keeps (s : State) (e : Word64) : let t := (State.findPlace s e).2
    t.staged = s.staged ∧ t.captured = s.captured ∧ t.hostData = s.hostData ∧ t.feL = s.feL ∧ t.feH = s.feH ∧
    t.feI = s.feI ∧ t.grn = s.grn ∧ t.phy = s.phy ∧ t.sch = s.sch ∧ t.hst = s.hst ∧ t.key = s.key ∧ t.tim = s.tim ∧
    t.eth = s.eth ∧ t.twn = s.twn ∧ t.tst = s.tst ∧ t.aon = s.aon ∧ t.otp = s.otp ∧ t.nvm = s.nvm ∧ t.out = s.out ∧
    t.pending = s.pending := by
  unfold State.findPlace
  try dsimp only
  (repeat' split) <;> simp

@[simp] theorem State.insert_keeps (s : State) (e : Entry) : let t := (State.insert s e).2
    t.staged = s.staged ∧ t.captured = s.captured ∧ t.hostData = s.hostData ∧ t.feL = s.feL ∧ t.feH = s.feH ∧
    t.feI = s.feI ∧ t.grn = s.grn ∧ t.phy = s.phy ∧ t.sch = s.sch ∧ t.hst = s.hst ∧ t.key = s.key ∧ t.tim = s.tim ∧
    t.eth = s.eth ∧ t.twn = s.twn ∧ t.tst = s.tst ∧ t.aon = s.aon ∧ t.otp = s.otp ∧ t.nvm = s.nvm ∧ t.out = s.out ∧
    t.pending = s.pending := by
  unfold State.insert
  try dsimp only
  (repeat' split) <;> simp

@[simp] theorem State.freeHandle_keeps (s : State) (n : Nat) (h : BitVec 18) : let t := (State.freeHandle s n h).2
    t.staged = s.staged ∧ t.captured = s.captured ∧ t.hostData = s.hostData ∧ t.feL = s.feL ∧ t.feH = s.feH ∧
    t.feI = s.feI ∧ t.grn = s.grn ∧ t.phy = s.phy ∧ t.sch = s.sch ∧ t.hst = s.hst ∧ t.key = s.key ∧ t.tim = s.tim ∧
    t.eth = s.eth ∧ t.twn = s.twn ∧ t.tst = s.tst ∧ t.aon = s.aon ∧ t.otp = s.otp ∧ t.nvm = s.nvm ∧ t.out = s.out ∧
    t.pending = s.pending := by
  induction n generalizing s h with
  | zero => simp [State.freeHandle]
  | succ n ih => simp only [State.freeHandle]; (repeat' split) <;> simp [ih]

@[simp] theorem State.nextHandle_keeps (s : State) : let t := (State.nextHandle s).2
    t.staged = s.staged ∧ t.captured = s.captured ∧ t.hostData = s.hostData ∧ t.feL = s.feL ∧ t.feH = s.feH ∧
    t.feI = s.feI ∧ t.grn = s.grn ∧ t.phy = s.phy ∧ t.sch = s.sch ∧ t.hst = s.hst ∧ t.key = s.key ∧ t.tim = s.tim ∧
    t.eth = s.eth ∧ t.twn = s.twn ∧ t.tst = s.tst ∧ t.aon = s.aon ∧ t.otp = s.otp ∧ t.nvm = s.nvm ∧ t.out = s.out ∧
    t.pending = s.pending := by
  simp [State.nextHandle]

@[simp] theorem State.users_keeps (s : State) (idx : Nat) (up : Bool) : let t := State.users s idx up
    t.regs = s.regs ∧ t.staged = s.staged ∧ t.captured = s.captured ∧ t.hostData = s.hostData ∧ t.sys = s.sys ∧
    t.irq = s.irq ∧ t.feL = s.feL ∧ t.feH = s.feH ∧ t.feI = s.feI ∧ t.grn = s.grn ∧ t.ntb = s.ntb ∧ t.sch = s.sch ∧
    t.car = s.car ∧ t.hst = s.hst ∧ t.key = s.key ∧ t.tim = s.tim ∧ t.eth = s.eth ∧ t.twn = s.twn ∧ t.tst = s.tst ∧
    t.aon = s.aon ∧ t.otp = s.otp ∧ t.nvm = s.nvm ∧ t.free = s.free ∧ t.out = s.out ∧ t.pending = s.pending := by
  simp [State.users]

@[simp] theorem State.freeAuto_keeps (s : State) (idx : Nat) : let t := State.freeAuto s idx
    t.regs = s.regs ∧ t.staged = s.staged ∧ t.captured = s.captured ∧ t.hostData = s.hostData ∧ t.sys = s.sys ∧
    t.irq = s.irq ∧ t.feL = s.feL ∧ t.feH = s.feH ∧ t.feI = s.feI ∧ t.grn = s.grn ∧ t.ntb = s.ntb ∧ t.sch = s.sch ∧
    t.car = s.car ∧ t.hst = s.hst ∧ t.key = s.key ∧ t.tim = s.tim ∧ t.eth = s.eth ∧ t.twn = s.twn ∧ t.tst = s.tst ∧
    t.aon = s.aon ∧ t.otp = s.otp ∧ t.nvm = s.nvm ∧ t.free = s.free ∧ t.out = s.out ∧ t.pending = s.pending := by
  unfold State.freeAuto
  try dsimp only
  (repeat' split) <;> simp

@[simp] theorem State.removeAt_keeps (s : State) (loc : Nat) (e : Entry) : let t := State.removeAt s loc e
    t.regs = s.regs ∧ t.staged = s.staged ∧ t.captured = s.captured ∧ t.hostData = s.hostData ∧ t.sys = s.sys ∧
    t.irq = s.irq ∧ t.feL = s.feL ∧ t.feH = s.feH ∧ t.feI = s.feI ∧ t.grn = s.grn ∧ t.sch = s.sch ∧ t.hst = s.hst ∧
    t.key = s.key ∧ t.tim = s.tim ∧ t.eth = s.eth ∧ t.twn = s.twn ∧ t.tst = s.tst ∧ t.aon = s.aon ∧ t.otp = s.otp ∧
    t.nvm = s.nvm ∧ t.free = s.free ∧ t.out = s.out ∧ t.pending = s.pending := by
  unfold State.removeAt
  try dsimp only
  (repeat' split) <;> simp

@[simp] theorem State.insertUsers_keeps (s : State) (e : Entry) : let t := (State.insertUsers s e).2
    t.staged = s.staged ∧ t.captured = s.captured ∧ t.hostData = s.hostData ∧ t.feL = s.feL ∧ t.feH = s.feH ∧
    t.feI = s.feI ∧ t.grn = s.grn ∧ t.sch = s.sch ∧ t.hst = s.hst ∧ t.key = s.key ∧ t.tim = s.tim ∧ t.eth = s.eth ∧
    t.twn = s.twn ∧ t.tst = s.tst ∧ t.aon = s.aon ∧ t.otp = s.otp ∧ t.nvm = s.nvm ∧ t.out = s.out ∧
    t.pending = s.pending := by
  simp [State.insertUsers]

end Sys2Proof.Machine
end

