-- ==== Sys2Proof/Laws/KeepsWheel.lean ====
section
/-!
SUPPORT. What each operation of Machine/Wheel.lean leaves as it was.
-/

namespace Sys2Proof.Machine

@[simp] theorem State.putEvent_keeps (s : State) (e : Entry) (n : Nat) (k : Int) : let t := State.putEvent s e n k
    t.staged = s.staged ∧ t.captured = s.captured ∧ t.hostData = s.hostData ∧ t.feL = s.feL ∧ t.feH = s.feH ∧
    t.feI = s.feI ∧ t.grn = s.grn ∧ t.phy = s.phy ∧ t.hst = s.hst ∧ t.key = s.key ∧ t.tim = s.tim ∧ t.eth = s.eth ∧
    t.twn = s.twn ∧ t.tst = s.tst ∧ t.aon = s.aon ∧ t.otp = s.otp ∧ t.nvm = s.nvm ∧ t.out = s.out ∧
    t.pending = s.pending := by
  induction n generalizing s e k with
  | zero => simp [State.putEvent]
  | succ n ih => simp only [State.putEvent]; (repeat' split) <;> simp [ih]

@[simp] theorem State.placeFrom_keeps (s : State) (h : BitVec 18) (t : Int) : let t := State.placeFrom s h t
    t.staged = s.staged ∧ t.captured = s.captured ∧ t.hostData = s.hostData ∧ t.feL = s.feL ∧ t.feH = s.feH ∧
    t.feI = s.feI ∧ t.grn = s.grn ∧ t.phy = s.phy ∧ t.hst = s.hst ∧ t.key = s.key ∧ t.tim = s.tim ∧ t.eth = s.eth ∧
    t.twn = s.twn ∧ t.tst = s.tst ∧ t.aon = s.aon ∧ t.otp = s.otp ∧ t.nvm = s.nvm ∧ t.out = s.out ∧
    t.pending = s.pending := by
  unfold State.placeFrom
  try dsimp only
  (repeat' split) <;> simp

@[simp] theorem State.placeNode_keeps (s : State) (h : BitVec 18) : let t := State.placeNode s h
    t.staged = s.staged ∧ t.captured = s.captured ∧ t.hostData = s.hostData ∧ t.feL = s.feL ∧ t.feH = s.feH ∧
    t.feI = s.feI ∧ t.grn = s.grn ∧ t.phy = s.phy ∧ t.hst = s.hst ∧ t.key = s.key ∧ t.tim = s.tim ∧ t.eth = s.eth ∧
    t.twn = s.twn ∧ t.tst = s.tst ∧ t.aon = s.aon ∧ t.otp = s.otp ∧ t.nvm = s.nvm ∧ t.out = s.out ∧
    t.pending = s.pending := by
  simp [State.placeNode]

@[simp] theorem State.placeAfter_keeps (s : State) (h : BitVec 18) (p : Int) : let t := State.placeAfter s h p
    t.staged = s.staged ∧ t.captured = s.captured ∧ t.hostData = s.hostData ∧ t.feL = s.feL ∧ t.feH = s.feH ∧
    t.feI = s.feI ∧ t.grn = s.grn ∧ t.phy = s.phy ∧ t.hst = s.hst ∧ t.key = s.key ∧ t.tim = s.tim ∧ t.eth = s.eth ∧
    t.twn = s.twn ∧ t.tst = s.tst ∧ t.aon = s.aon ∧ t.otp = s.otp ∧ t.nvm = s.nvm ∧ t.out = s.out ∧
    t.pending = s.pending := by
  simp [State.placeAfter]

@[simp] theorem State.schedRecord_keeps (s : State) (kind : Nat) (e : Entry) (u : Nat) : let t := State.schedRecord s kind e u
    t.staged = s.staged ∧ t.captured = s.captured ∧ t.hostData = s.hostData ∧ t.feL = s.feL ∧ t.feH = s.feH ∧
    t.feI = s.feI ∧ t.grn = s.grn ∧ t.phy = s.phy ∧ t.ntb = s.ntb ∧ t.sch = s.sch ∧ t.hst = s.hst ∧ t.key = s.key ∧
    t.tim = s.tim ∧ t.eth = s.eth ∧ t.twn = s.twn ∧ t.tst = s.tst ∧ t.aon = s.aon ∧ t.otp = s.otp ∧ t.nvm = s.nvm ∧
    t.out = s.out ∧ t.pending = s.pending := by
  simp [State.schedRecord]

@[simp] theorem State.driftGuard_keeps (s : State) (e : Entry) (u : Nat) : let t := State.driftGuard s e u
    t.staged = s.staged ∧ t.captured = s.captured ∧ t.hostData = s.hostData ∧ t.feL = s.feL ∧ t.feH = s.feH ∧
    t.feI = s.feI ∧ t.grn = s.grn ∧ t.phy = s.phy ∧ t.sch = s.sch ∧ t.hst = s.hst ∧ t.key = s.key ∧ t.tim = s.tim ∧
    t.eth = s.eth ∧ t.twn = s.twn ∧ t.tst = s.tst ∧ t.aon = s.aon ∧ t.otp = s.otp ∧ t.nvm = s.nvm ∧ t.out = s.out ∧
    t.pending = s.pending := by
  simp [State.driftGuard]

@[simp] theorem State.driftMiss_keeps (s : State) (e : Entry) : let t := State.driftMiss s e
    t.staged = s.staged ∧ t.captured = s.captured ∧ t.hostData = s.hostData ∧ t.feL = s.feL ∧ t.feH = s.feH ∧
    t.feI = s.feI ∧ t.grn = s.grn ∧ t.phy = s.phy ∧ t.sch = s.sch ∧ t.hst = s.hst ∧ t.key = s.key ∧ t.tim = s.tim ∧
    t.eth = s.eth ∧ t.twn = s.twn ∧ t.tst = s.tst ∧ t.aon = s.aon ∧ t.otp = s.otp ∧ t.nvm = s.nvm ∧ t.out = s.out ∧
    t.pending = s.pending := by
  simp [State.driftMiss]

@[simp] theorem State.unreach_keeps (s : State) (h : BitVec 18) : let t := State.unreach s h
    t.staged = s.staged ∧ t.captured = s.captured ∧ t.hostData = s.hostData ∧ t.feL = s.feL ∧ t.feH = s.feH ∧
    t.feI = s.feI ∧ t.grn = s.grn ∧ t.phy = s.phy ∧ t.sch = s.sch ∧ t.hst = s.hst ∧ t.key = s.key ∧ t.tim = s.tim ∧
    t.eth = s.eth ∧ t.twn = s.twn ∧ t.tst = s.tst ∧ t.aon = s.aon ∧ t.otp = s.otp ∧ t.nvm = s.nvm ∧ t.out = s.out ∧
    t.pending = s.pending := by
  unfold State.unreach
  try dsimp only
  (repeat' split) <;> simp

@[simp] theorem State.queueRose_keeps (s : State) (h : BitVec 18) : let t := State.queueRose s h
    t.staged = s.staged ∧ t.captured = s.captured ∧ t.hostData = s.hostData ∧ t.feL = s.feL ∧ t.feH = s.feH ∧
    t.feI = s.feI ∧ t.grn = s.grn ∧ t.phy = s.phy ∧ t.hst = s.hst ∧ t.key = s.key ∧ t.tim = s.tim ∧ t.eth = s.eth ∧
    t.twn = s.twn ∧ t.tst = s.tst ∧ t.aon = s.aon ∧ t.otp = s.otp ∧ t.nvm = s.nvm ∧ t.out = s.out ∧
    t.pending = s.pending := by
  unfold State.queueRose
  try dsimp only
  (repeat' split) <;> simp

@[simp] theorem State.contact_keeps (s : State) (h : BitVec 18) (t : TsIe) (endNs : Nat) : let t := State.contact s h t endNs
    t.staged = s.staged ∧ t.captured = s.captured ∧ t.hostData = s.hostData ∧ t.feL = s.feL ∧ t.feH = s.feH ∧
    t.feI = s.feI ∧ t.grn = s.grn ∧ t.phy = s.phy ∧ t.hst = s.hst ∧ t.key = s.key ∧ t.tim = s.tim ∧ t.eth = s.eth ∧
    t.twn = s.twn ∧ t.tst = s.tst ∧ t.aon = s.aon ∧ t.otp = s.otp ∧ t.nvm = s.nvm ∧ t.out = s.out ∧
    t.pending = s.pending := by
  unfold State.contact
  try dsimp only
  (repeat' split) <;> simp

end Sys2Proof.Machine
end

