-- ==== Sys2Proof/Laws/KeepsCarafe.lean ====
section
/-!
SUPPORT. What each operation of Machine/Carafe.lean leaves as it was.
-/

namespace Sys2Proof.Machine

@[simp] theorem State.setNodeQ_keeps (s : State) (h : BitVec 18) (q : Queue) : let t := State.setNodeQ s h q
    t.staged = s.staged ∧ t.captured = s.captured ∧ t.hostData = s.hostData ∧ t.feL = s.feL ∧ t.feH = s.feH ∧
    t.feI = s.feI ∧ t.grn = s.grn ∧ t.phy = s.phy ∧ t.sch = s.sch ∧ t.hst = s.hst ∧ t.key = s.key ∧ t.tim = s.tim ∧
    t.eth = s.eth ∧ t.twn = s.twn ∧ t.tst = s.tst ∧ t.aon = s.aon ∧ t.otp = s.otp ∧ t.nvm = s.nvm ∧ t.out = s.out ∧
    t.pending = s.pending := by
  simp [State.setNodeQ]

@[simp] theorem State.syncAnchors_keeps (s : State) : let t := State.syncAnchors s
    t.staged = s.staged ∧ t.captured = s.captured ∧ t.hostData = s.hostData ∧ t.feL = s.feL ∧ t.feH = s.feH ∧
    t.feI = s.feI ∧ t.grn = s.grn ∧ t.phy = s.phy ∧ t.sch = s.sch ∧ t.hst = s.hst ∧ t.key = s.key ∧ t.tim = s.tim ∧
    t.eth = s.eth ∧ t.twn = s.twn ∧ t.tst = s.tst ∧ t.aon = s.aon ∧ t.otp = s.otp ∧ t.nvm = s.nvm ∧ t.out = s.out ∧
    t.pending = s.pending := by
  simp [State.syncAnchors]

@[simp] theorem State.updHdr_keeps (s : State) (h : BitVec 18) (i : Nat) (f : Hdr → Hdr) : let t := State.updHdr s h i f
    t.regs = s.regs ∧ t.staged = s.staged ∧ t.captured = s.captured ∧ t.hostData = s.hostData ∧ t.sys = s.sys ∧
    t.irq = s.irq ∧ t.feL = s.feL ∧ t.feH = s.feH ∧ t.feI = s.feI ∧ t.grn = s.grn ∧ t.phy = s.phy ∧ t.ntb = s.ntb ∧
    t.sch = s.sch ∧ t.hst = s.hst ∧ t.key = s.key ∧ t.tim = s.tim ∧ t.eth = s.eth ∧ t.twn = s.twn ∧ t.tst = s.tst ∧
    t.aon = s.aon ∧ t.otp = s.otp ∧ t.nvm = s.nvm ∧ t.free = s.free ∧ t.out = s.out ∧ t.pending = s.pending := by
  simp [State.updHdr]

@[simp] theorem State.enqueueNode_keeps (s : State) (h : BitVec 18) (hdr : Hdr) (body : List Byte) : let t := State.enqueueNode s h hdr body
    t.staged = s.staged ∧ t.captured = s.captured ∧ t.hostData = s.hostData ∧ t.feL = s.feL ∧ t.feH = s.feH ∧
    t.feI = s.feI ∧ t.grn = s.grn ∧ t.phy = s.phy ∧ t.key = s.key ∧ t.tim = s.tim ∧ t.eth = s.eth ∧ t.twn = s.twn ∧
    t.tst = s.tst ∧ t.aon = s.aon ∧ t.otp = s.otp ∧ t.nvm = s.nvm ∧ t.out = s.out ∧ t.pending = s.pending := by
  unfold State.enqueueNode
  try dsimp only
  (repeat' split) <;> simp

@[simp] theorem State.releaseNode_keeps (s : State) (h : BitVec 18) (i : Nat) (status : Hdr → Byte) (reason : Byte) : let t := State.releaseNode s h i status reason
    t.staged = s.staged ∧ t.captured = s.captured ∧ t.hostData = s.hostData ∧ t.feL = s.feL ∧ t.feH = s.feH ∧
    t.feI = s.feI ∧ t.grn = s.grn ∧ t.phy = s.phy ∧ t.sch = s.sch ∧ t.key = s.key ∧ t.tim = s.tim ∧ t.eth = s.eth ∧
    t.twn = s.twn ∧ t.tst = s.tst ∧ t.aon = s.aon ∧ t.otp = s.otp ∧ t.nvm = s.nvm ∧ t.out = s.out ∧
    t.pending = s.pending := by
  unfold State.releaseNode
  try dsimp only
  (repeat' split) <;> simp

@[simp] theorem State.rewind_keeps (s : State) (h : BitVec 18) : let t := State.rewind s h
    t.regs = s.regs ∧ t.staged = s.staged ∧ t.captured = s.captured ∧ t.hostData = s.hostData ∧ t.sys = s.sys ∧
    t.irq = s.irq ∧ t.feL = s.feL ∧ t.feH = s.feH ∧ t.feI = s.feI ∧ t.grn = s.grn ∧ t.phy = s.phy ∧ t.ntb = s.ntb ∧
    t.sch = s.sch ∧ t.hst = s.hst ∧ t.key = s.key ∧ t.tim = s.tim ∧ t.eth = s.eth ∧ t.twn = s.twn ∧ t.tst = s.tst ∧
    t.aon = s.aon ∧ t.otp = s.otp ∧ t.nvm = s.nvm ∧ t.free = s.free ∧ t.out = s.out ∧ t.pending = s.pending := by
  simp [State.rewind]

@[simp] theorem State.removeQueue_keeps (s : State) (q : Queue) : let t := State.removeQueue s q
    t.regs = s.regs ∧ t.staged = s.staged ∧ t.captured = s.captured ∧ t.hostData = s.hostData ∧ t.sys = s.sys ∧
    t.irq = s.irq ∧ t.feL = s.feL ∧ t.feH = s.feH ∧ t.feI = s.feI ∧ t.grn = s.grn ∧ t.phy = s.phy ∧ t.ntb = s.ntb ∧
    t.sch = s.sch ∧ t.car = s.car ∧ t.key = s.key ∧ t.tim = s.tim ∧ t.eth = s.eth ∧ t.twn = s.twn ∧ t.tst = s.tst ∧
    t.aon = s.aon ∧ t.otp = s.otp ∧ t.nvm = s.nvm ∧ t.free = s.free ∧ t.out = s.out ∧ t.pending = s.pending := by
  simp [State.removeQueue]

@[simp] theorem State.removeFrames_keeps (s : State) (h : BitVec 18) : let t := (State.removeFrames s h).2
    t.regs = s.regs ∧ t.staged = s.staged ∧ t.captured = s.captured ∧ t.hostData = s.hostData ∧ t.sys = s.sys ∧
    t.irq = s.irq ∧ t.feL = s.feL ∧ t.feH = s.feH ∧ t.feI = s.feI ∧ t.grn = s.grn ∧ t.phy = s.phy ∧ t.ntb = s.ntb ∧
    t.sch = s.sch ∧ t.key = s.key ∧ t.tim = s.tim ∧ t.eth = s.eth ∧ t.twn = s.twn ∧ t.tst = s.tst ∧ t.aon = s.aon ∧
    t.otp = s.otp ∧ t.nvm = s.nvm ∧ t.free = s.free ∧ t.out = s.out ∧ t.pending = s.pending := by
  simp [State.removeFrames]

@[simp] theorem State.setOrphan_keeps (s : State) (q q' : Queue) : let t := State.setOrphan s q q'
    t.regs = s.regs ∧ t.staged = s.staged ∧ t.captured = s.captured ∧ t.hostData = s.hostData ∧ t.sys = s.sys ∧
    t.irq = s.irq ∧ t.feL = s.feL ∧ t.feH = s.feH ∧ t.feI = s.feI ∧ t.grn = s.grn ∧ t.phy = s.phy ∧ t.ntb = s.ntb ∧
    t.sch = s.sch ∧ t.hst = s.hst ∧ t.key = s.key ∧ t.tim = s.tim ∧ t.eth = s.eth ∧ t.twn = s.twn ∧ t.tst = s.tst ∧
    t.aon = s.aon ∧ t.otp = s.otp ∧ t.nvm = s.nvm ∧ t.free = s.free ∧ t.out = s.out ∧ t.pending = s.pending := by
  simp [State.setOrphan]

@[simp] theorem State.orphanOutcome_keeps (s : State) (q : Queue) (hd : Hdr) (o : TryEnd) : let t := State.orphanOutcome s q hd o
    t.staged = s.staged ∧ t.captured = s.captured ∧ t.hostData = s.hostData ∧ t.sys = s.sys ∧ t.irq = s.irq ∧
    t.feL = s.feL ∧ t.feH = s.feH ∧ t.feI = s.feI ∧ t.grn = s.grn ∧ t.phy = s.phy ∧ t.ntb = s.ntb ∧ t.sch = s.sch ∧
    t.key = s.key ∧ t.tim = s.tim ∧ t.eth = s.eth ∧ t.twn = s.twn ∧ t.tst = s.tst ∧ t.aon = s.aon ∧ t.otp = s.otp ∧
    t.nvm = s.nvm ∧ t.free = s.free ∧ t.out = s.out ∧ t.pending = s.pending := by
  simp [State.orphanOutcome]

@[simp] theorem State.updFrame_keeps (s : State) (h : BitVec 18) (seq : BitVec 16) (f : Hdr → Hdr) : let t := State.updFrame s h seq f
    t.regs = s.regs ∧ t.staged = s.staged ∧ t.captured = s.captured ∧ t.hostData = s.hostData ∧ t.sys = s.sys ∧
    t.irq = s.irq ∧ t.feL = s.feL ∧ t.feH = s.feH ∧ t.feI = s.feI ∧ t.grn = s.grn ∧ t.phy = s.phy ∧ t.ntb = s.ntb ∧
    t.sch = s.sch ∧ t.hst = s.hst ∧ t.key = s.key ∧ t.tim = s.tim ∧ t.eth = s.eth ∧ t.twn = s.twn ∧ t.tst = s.tst ∧
    t.aon = s.aon ∧ t.otp = s.otp ∧ t.nvm = s.nvm ∧ t.free = s.free ∧ t.out = s.out ∧ t.pending = s.pending := by
  unfold State.updFrame
  try dsimp only
  (repeat' split) <;> simp

@[simp] theorem State.frameOutcome_keeps (s : State) (h : BitVec 18) (seq : BitVec 16) (rep : Nat) (o : TryEnd) : let t := State.frameOutcome s h seq rep o
    t.staged = s.staged ∧ t.captured = s.captured ∧ t.hostData = s.hostData ∧ t.feL = s.feL ∧ t.feH = s.feH ∧
    t.feI = s.feI ∧ t.grn = s.grn ∧ t.phy = s.phy ∧ t.sch = s.sch ∧ t.key = s.key ∧ t.tim = s.tim ∧ t.eth = s.eth ∧
    t.twn = s.twn ∧ t.tst = s.tst ∧ t.aon = s.aon ∧ t.otp = s.otp ∧ t.nvm = s.nvm ∧ t.out = s.out ∧
    t.pending = s.pending := by
  unfold State.frameOutcome
  try dsimp only
  (repeat' split) <;> simp

@[simp] theorem State.afterWake_keeps (s : State) (h : BitVec 18) : let t := State.afterWake s h
    t.staged = s.staged ∧ t.captured = s.captured ∧ t.hostData = s.hostData ∧ t.feL = s.feL ∧ t.feH = s.feH ∧
    t.feI = s.feI ∧ t.grn = s.grn ∧ t.phy = s.phy ∧ t.hst = s.hst ∧ t.key = s.key ∧ t.tim = s.tim ∧ t.eth = s.eth ∧
    t.twn = s.twn ∧ t.tst = s.tst ∧ t.aon = s.aon ∧ t.otp = s.otp ∧ t.nvm = s.nvm ∧ t.out = s.out ∧
    t.pending = s.pending := by
  unfold State.afterWake
  try dsimp only
  (repeat' split) <;> simp

@[simp] theorem State.settleTry_keeps (s : State) (t : Try) (o : TryEnd) : let t := State.settleTry s t o
    t.staged = s.staged ∧ t.captured = s.captured ∧ t.hostData = s.hostData ∧ t.feL = s.feL ∧ t.feH = s.feH ∧
    t.feI = s.feI ∧ t.grn = s.grn ∧ t.phy = s.phy ∧ t.key = s.key ∧ t.tim = s.tim ∧ t.eth = s.eth ∧ t.twn = s.twn ∧
    t.tst = s.tst ∧ t.aon = s.aon ∧ t.otp = s.otp ∧ t.nvm = s.nvm ∧ t.out = s.out ∧ t.pending = s.pending := by
  unfold State.settleTry
  try dsimp only
  (repeat' split) <;> simp

@[simp] theorem State.keepWindow_keeps (s : State) (t : Try) : let t := State.keepWindow s t
    t.regs = s.regs ∧ t.staged = s.staged ∧ t.captured = s.captured ∧ t.hostData = s.hostData ∧ t.sys = s.sys ∧
    t.irq = s.irq ∧ t.feL = s.feL ∧ t.feH = s.feH ∧ t.feI = s.feI ∧ t.grn = s.grn ∧ t.phy = s.phy ∧ t.ntb = s.ntb ∧
    t.car = s.car ∧ t.hst = s.hst ∧ t.key = s.key ∧ t.tim = s.tim ∧ t.eth = s.eth ∧ t.twn = s.twn ∧ t.tst = s.tst ∧
    t.aon = s.aon ∧ t.otp = s.otp ∧ t.nvm = s.nvm ∧ t.free = s.free ∧ t.out = s.out ∧ t.pending = s.pending := by
  simp [State.keepWindow]

@[simp] theorem State.tryEnd_keeps (s : State) (t : Try) (o : TryEnd) : let t := State.tryEnd s t o
    t.staged = s.staged ∧ t.captured = s.captured ∧ t.hostData = s.hostData ∧ t.feL = s.feL ∧ t.feH = s.feH ∧
    t.feI = s.feI ∧ t.grn = s.grn ∧ t.phy = s.phy ∧ t.key = s.key ∧ t.tim = s.tim ∧ t.eth = s.eth ∧ t.twn = s.twn ∧
    t.tst = s.tst ∧ t.aon = s.aon ∧ t.otp = s.otp ∧ t.nvm = s.nvm ∧ t.out = s.out ∧ t.pending = s.pending := by
  simp [State.tryEnd]

@[simp] theorem State.flushHeld_keeps (s : State) : let t := State.flushHeld s
    t.staged = s.staged ∧ t.captured = s.captured ∧ t.hostData = s.hostData ∧ t.feL = s.feL ∧ t.feH = s.feH ∧
    t.feI = s.feI ∧ t.grn = s.grn ∧ t.phy = s.phy ∧ t.key = s.key ∧ t.tim = s.tim ∧ t.eth = s.eth ∧ t.twn = s.twn ∧
    t.tst = s.tst ∧ t.aon = s.aon ∧ t.otp = s.otp ∧ t.nvm = s.nvm ∧ t.out = s.out ∧ t.pending = s.pending := by
  simp [State.flushHeld]

@[simp] theorem State.startDone_keeps (s : State) (slot : Nat) : let t := State.startDone s slot
    t.staged = s.staged ∧ t.captured = s.captured ∧ t.hostData = s.hostData ∧ t.irq = s.irq ∧ t.feL = s.feL ∧
    t.feH = s.feH ∧ t.feI = s.feI ∧ t.grn = s.grn ∧ t.phy = s.phy ∧ t.ntb = s.ntb ∧ t.sch = s.sch ∧ t.car = s.car ∧
    t.hst = s.hst ∧ t.key = s.key ∧ t.tim = s.tim ∧ t.eth = s.eth ∧ t.twn = s.twn ∧ t.tst = s.tst ∧ t.aon = s.aon ∧
    t.otp = s.otp ∧ t.nvm = s.nvm ∧ t.free = s.free ∧ t.out = s.out ∧ t.pending = s.pending := by
  simp [State.startDone]

@[simp] theorem State.notSent_keeps (s : State) (f : TxItem) (synth : Bool) : let t := State.notSent s f synth
    t.staged = s.staged ∧ t.captured = s.captured ∧ t.hostData = s.hostData ∧ t.feL = s.feL ∧ t.feH = s.feH ∧
    t.feI = s.feI ∧ t.grn = s.grn ∧ t.phy = s.phy ∧ t.key = s.key ∧ t.tim = s.tim ∧ t.eth = s.eth ∧ t.twn = s.twn ∧
    t.tst = s.tst ∧ t.aon = s.aon ∧ t.otp = s.otp ∧ t.nvm = s.nvm ∧ t.out = s.out ∧ t.pending = s.pending := by
  unfold State.notSent
  try dsimp only
  (repeat' split) <;> simp

@[simp] theorem State.epochDrop_keeps (s : State) (f : TxItem) : let t := State.epochDrop s f
    t.staged = s.staged ∧ t.captured = s.captured ∧ t.hostData = s.hostData ∧ t.feL = s.feL ∧ t.feH = s.feH ∧
    t.feI = s.feI ∧ t.grn = s.grn ∧ t.phy = s.phy ∧ t.key = s.key ∧ t.tim = s.tim ∧ t.eth = s.eth ∧ t.twn = s.twn ∧
    t.tst = s.tst ∧ t.aon = s.aon ∧ t.otp = s.otp ∧ t.nvm = s.nvm ∧ t.out = s.out ∧ t.pending = s.pending := by
  unfold State.epochDrop
  try dsimp only
  (repeat' split) <;> simp

@[simp] theorem State.dropExpired_keeps (s : State) (h : BitVec 18) (first n : Nat) : let t := State.dropExpired s h first n
    t.staged = s.staged ∧ t.captured = s.captured ∧ t.hostData = s.hostData ∧ t.feL = s.feL ∧ t.feH = s.feH ∧
    t.feI = s.feI ∧ t.grn = s.grn ∧ t.phy = s.phy ∧ t.sch = s.sch ∧ t.key = s.key ∧ t.tim = s.tim ∧ t.eth = s.eth ∧
    t.twn = s.twn ∧ t.tst = s.tst ∧ t.aon = s.aon ∧ t.otp = s.otp ∧ t.nvm = s.nvm ∧ t.out = s.out ∧
    t.pending = s.pending := by
  induction n generalizing s h first with
  | zero => simp [State.dropExpired]
  | succ n ih => simp only [State.dropExpired]; (repeat' split) <;> simp [ih]

@[simp] theorem State.sendKey_keeps (s : State) (f : TxItem) : let t := State.sendKey s f
    t.regs = s.regs ∧ t.staged = s.staged ∧ t.captured = s.captured ∧ t.hostData = s.hostData ∧ t.sys = s.sys ∧
    t.irq = s.irq ∧ t.feL = s.feL ∧ t.feH = s.feH ∧ t.feI = s.feI ∧ t.grn = s.grn ∧ t.phy = s.phy ∧ t.ntb = s.ntb ∧
    t.sch = s.sch ∧ t.car = s.car ∧ t.hst = s.hst ∧ t.tim = s.tim ∧ t.eth = s.eth ∧ t.twn = s.twn ∧ t.tst = s.tst ∧
    t.aon = s.aon ∧ t.otp = s.otp ∧ t.nvm = s.nvm ∧ t.free = s.free ∧ t.out = s.out ∧ t.pending = s.pending := by
  simp [State.sendKey]

@[simp] theorem State.offerHead_keeps (s : State) (h : BitVec 18) (first delta : Nat) (opp : Bool) : let t := State.offerHead s h first delta opp
    t.staged = s.staged ∧ t.captured = s.captured ∧ t.hostData = s.hostData ∧ t.feL = s.feL ∧ t.feH = s.feH ∧
    t.feI = s.feI ∧ t.grn = s.grn ∧ t.phy = s.phy ∧ t.tim = s.tim ∧ t.eth = s.eth ∧ t.twn = s.twn ∧ t.tst = s.tst ∧
    t.aon = s.aon ∧ t.otp = s.otp ∧ t.nvm = s.nvm ∧ t.out = s.out ∧ t.pending = s.pending := by
  unfold State.offerHead
  try dsimp only
  (repeat' split) <;> simp

end Sys2Proof.Machine
end

