-- ==== Sys2Proof/Laws/KeepsGate.lean ====
section
/-!
SUPPORT. What each operation of Machine/Gate.lean leaves as it was.
-/

namespace Sys2Proof.Machine

@[simp] theorem State.hostGate_keeps (s : State) (isl : Isl) (bytes : Nat) : let t := (State.hostGate s isl bytes).2
    t.staged = s.staged ∧ t.captured = s.captured ∧ t.hostData = s.hostData ∧ t.irq = s.irq ∧ t.feL = s.feL ∧
    t.feH = s.feH ∧ t.feI = s.feI ∧ t.grn = s.grn ∧ t.phy = s.phy ∧ t.ntb = s.ntb ∧ t.sch = s.sch ∧ t.car = s.car ∧
    t.hst = s.hst ∧ t.key = s.key ∧ t.tim = s.tim ∧ t.eth = s.eth ∧ t.twn = s.twn ∧ t.tst = s.tst ∧ t.aon = s.aon ∧
    t.otp = s.otp ∧ t.nvm = s.nvm ∧ t.free = s.free ∧ t.out = s.out ∧ t.pending = s.pending := by
  simp [State.hostGate]

@[simp] theorem State.hostOp_staged (s : State) (isl : Isl) (f : State → State) (bytes : Nat) (h : ∀ t, (f t).staged = t.staged) :
    (State.hostOp s isl f bytes).staged = s.staged := by
  unfold State.hostOp
  try dsimp only
  (repeat' split) <;> simp [h]

@[simp] theorem State.hostOp_captured (s : State) (isl : Isl) (f : State → State) (bytes : Nat) (h : ∀ t, (f t).captured = t.captured) :
    (State.hostOp s isl f bytes).captured = s.captured := by
  unfold State.hostOp
  try dsimp only
  (repeat' split) <;> simp [h]

@[simp] theorem State.hostOp_hostData (s : State) (isl : Isl) (f : State → State) (bytes : Nat) (h : ∀ t, (f t).hostData = t.hostData) :
    (State.hostOp s isl f bytes).hostData = s.hostData := by
  unfold State.hostOp
  try dsimp only
  (repeat' split) <;> simp [h]

@[simp] theorem State.hostOp_irq (s : State) (isl : Isl) (f : State → State) (bytes : Nat) (h : ∀ t, (f t).irq = t.irq) :
    (State.hostOp s isl f bytes).irq = s.irq := by
  unfold State.hostOp
  try dsimp only
  (repeat' split) <;> simp [h]

@[simp] theorem State.hostOp_feL (s : State) (isl : Isl) (f : State → State) (bytes : Nat) (h : ∀ t, (f t).feL = t.feL) :
    (State.hostOp s isl f bytes).feL = s.feL := by
  unfold State.hostOp
  try dsimp only
  (repeat' split) <;> simp [h]

@[simp] theorem State.hostOp_feH (s : State) (isl : Isl) (f : State → State) (bytes : Nat) (h : ∀ t, (f t).feH = t.feH) :
    (State.hostOp s isl f bytes).feH = s.feH := by
  unfold State.hostOp
  try dsimp only
  (repeat' split) <;> simp [h]

@[simp] theorem State.hostOp_feI (s : State) (isl : Isl) (f : State → State) (bytes : Nat) (h : ∀ t, (f t).feI = t.feI) :
    (State.hostOp s isl f bytes).feI = s.feI := by
  unfold State.hostOp
  try dsimp only
  (repeat' split) <;> simp [h]

@[simp] theorem State.hostOp_grn (s : State) (isl : Isl) (f : State → State) (bytes : Nat) (h : ∀ t, (f t).grn = t.grn) :
    (State.hostOp s isl f bytes).grn = s.grn := by
  unfold State.hostOp
  try dsimp only
  (repeat' split) <;> simp [h]

@[simp] theorem State.hostOp_phy (s : State) (isl : Isl) (f : State → State) (bytes : Nat) (h : ∀ t, (f t).phy = t.phy) :
    (State.hostOp s isl f bytes).phy = s.phy := by
  unfold State.hostOp
  try dsimp only
  (repeat' split) <;> simp [h]

@[simp] theorem State.hostOp_ntb (s : State) (isl : Isl) (f : State → State) (bytes : Nat) (h : ∀ t, (f t).ntb = t.ntb) :
    (State.hostOp s isl f bytes).ntb = s.ntb := by
  unfold State.hostOp
  try dsimp only
  (repeat' split) <;> simp [h]

@[simp] theorem State.hostOp_sch (s : State) (isl : Isl) (f : State → State) (bytes : Nat) (h : ∀ t, (f t).sch = t.sch) :
    (State.hostOp s isl f bytes).sch = s.sch := by
  unfold State.hostOp
  try dsimp only
  (repeat' split) <;> simp [h]

@[simp] theorem State.hostOp_car (s : State) (isl : Isl) (f : State → State) (bytes : Nat) (h : ∀ t, (f t).car = t.car) :
    (State.hostOp s isl f bytes).car = s.car := by
  unfold State.hostOp
  try dsimp only
  (repeat' split) <;> simp [h]

@[simp] theorem State.hostOp_hst (s : State) (isl : Isl) (f : State → State) (bytes : Nat) (h : ∀ t, (f t).hst = t.hst) :
    (State.hostOp s isl f bytes).hst = s.hst := by
  unfold State.hostOp
  try dsimp only
  (repeat' split) <;> simp [h]

@[simp] theorem State.hostOp_key (s : State) (isl : Isl) (f : State → State) (bytes : Nat) (h : ∀ t, (f t).key = t.key) :
    (State.hostOp s isl f bytes).key = s.key := by
  unfold State.hostOp
  try dsimp only
  (repeat' split) <;> simp [h]

@[simp] theorem State.hostOp_tim (s : State) (isl : Isl) (f : State → State) (bytes : Nat) (h : ∀ t, (f t).tim = t.tim) :
    (State.hostOp s isl f bytes).tim = s.tim := by
  unfold State.hostOp
  try dsimp only
  (repeat' split) <;> simp [h]

@[simp] theorem State.hostOp_eth (s : State) (isl : Isl) (f : State → State) (bytes : Nat) (h : ∀ t, (f t).eth = t.eth) :
    (State.hostOp s isl f bytes).eth = s.eth := by
  unfold State.hostOp
  try dsimp only
  (repeat' split) <;> simp [h]

@[simp] theorem State.hostOp_twn (s : State) (isl : Isl) (f : State → State) (bytes : Nat) (h : ∀ t, (f t).twn = t.twn) :
    (State.hostOp s isl f bytes).twn = s.twn := by
  unfold State.hostOp
  try dsimp only
  (repeat' split) <;> simp [h]

@[simp] theorem State.hostOp_tst (s : State) (isl : Isl) (f : State → State) (bytes : Nat) (h : ∀ t, (f t).tst = t.tst) :
    (State.hostOp s isl f bytes).tst = s.tst := by
  unfold State.hostOp
  try dsimp only
  (repeat' split) <;> simp [h]

@[simp] theorem State.hostOp_aon (s : State) (isl : Isl) (f : State → State) (bytes : Nat) (h : ∀ t, (f t).aon = t.aon) :
    (State.hostOp s isl f bytes).aon = s.aon := by
  unfold State.hostOp
  try dsimp only
  (repeat' split) <;> simp [h]

@[simp] theorem State.hostOp_otp (s : State) (isl : Isl) (f : State → State) (bytes : Nat) (h : ∀ t, (f t).otp = t.otp) :
    (State.hostOp s isl f bytes).otp = s.otp := by
  unfold State.hostOp
  try dsimp only
  (repeat' split) <;> simp [h]

@[simp] theorem State.hostOp_nvm (s : State) (isl : Isl) (f : State → State) (bytes : Nat) (h : ∀ t, (f t).nvm = t.nvm) :
    (State.hostOp s isl f bytes).nvm = s.nvm := by
  unfold State.hostOp
  try dsimp only
  (repeat' split) <;> simp [h]

@[simp] theorem State.hostOp_free (s : State) (isl : Isl) (f : State → State) (bytes : Nat) (h : ∀ t, (f t).free = t.free) :
    (State.hostOp s isl f bytes).free = s.free := by
  unfold State.hostOp
  try dsimp only
  (repeat' split) <;> simp [h]

@[simp] theorem State.hostOp_out (s : State) (isl : Isl) (f : State → State) (bytes : Nat) (h : ∀ t, (f t).out = t.out) :
    (State.hostOp s isl f bytes).out = s.out := by
  unfold State.hostOp
  try dsimp only
  (repeat' split) <;> simp [h]

@[simp] theorem State.hostOp_pending (s : State) (isl : Isl) (f : State → State) (bytes : Nat) (h : ∀ t, (f t).pending = t.pending) :
    (State.hostOp s isl f bytes).pending = s.pending := by
  unfold State.hostOp
  try dsimp only
  (repeat' split) <;> simp [h]

@[simp] theorem State.readZero_keeps (s : State) : let t := State.readZero s
    t.regs = s.regs ∧ t.staged = s.staged ∧ t.captured = s.captured ∧ t.sys = s.sys ∧ t.irq = s.irq ∧
    t.feL = s.feL ∧ t.feH = s.feH ∧ t.feI = s.feI ∧ t.grn = s.grn ∧ t.phy = s.phy ∧ t.ntb = s.ntb ∧ t.sch = s.sch ∧
    t.car = s.car ∧ t.hst = s.hst ∧ t.key = s.key ∧ t.tim = s.tim ∧ t.eth = s.eth ∧ t.twn = s.twn ∧ t.tst = s.tst ∧
    t.aon = s.aon ∧ t.otp = s.otp ∧ t.nvm = s.nvm ∧ t.free = s.free ∧ t.out = s.out ∧ t.pending = s.pending := by
  simp [State.readZero]

end Sys2Proof.Machine
end

