-- ==== Sys2Proof/Laws/KeepsFrontOps.lean ====
section
/-!
SUPPORT. What each operation of Machine/FrontOps.lean leaves as it was.
-/

namespace Sys2Proof.Machine

@[simp] theorem State.abortLanes_keeps (s : State) (p : Nat × Lane → Bool) (f : Fld) : let t := State.abortLanes s p f
    t.staged = s.staged ∧ t.captured = s.captured ∧ t.hostData = s.hostData ∧ t.sys = s.sys ∧ t.irq = s.irq ∧
    t.feL = s.feL ∧ t.feH = s.feH ∧ t.feI = s.feI ∧ t.phy = s.phy ∧ t.ntb = s.ntb ∧ t.sch = s.sch ∧ t.car = s.car ∧
    t.hst = s.hst ∧ t.key = s.key ∧ t.tim = s.tim ∧ t.eth = s.eth ∧ t.twn = s.twn ∧ t.tst = s.tst ∧ t.aon = s.aon ∧
    t.otp = s.otp ∧ t.nvm = s.nvm ∧ t.free = s.free ∧ t.out = s.out ∧ t.pending = s.pending := by
  simp [State.abortLanes]

@[simp] theorem State.abortGrp_keeps (s : State) (g : Grp) (f : Fld) : let t := State.abortGrp s g f
    t.staged = s.staged ∧ t.captured = s.captured ∧ t.hostData = s.hostData ∧ t.sys = s.sys ∧ t.irq = s.irq ∧
    t.feL = s.feL ∧ t.feH = s.feH ∧ t.feI = s.feI ∧ t.phy = s.phy ∧ t.ntb = s.ntb ∧ t.sch = s.sch ∧ t.car = s.car ∧
    t.hst = s.hst ∧ t.key = s.key ∧ t.tim = s.tim ∧ t.eth = s.eth ∧ t.twn = s.twn ∧ t.tst = s.tst ∧ t.aon = s.aon ∧
    t.otp = s.otp ∧ t.nvm = s.nvm ∧ t.free = s.free ∧ t.out = s.out ∧ t.pending = s.pending := by
  simp [State.abortGrp]

@[simp] theorem State.updBurst_keeps (s : State) (g : Grp) (f : Burst → Burst) : let t := State.updBurst s g f
    t.regs = s.regs ∧ t.staged = s.staged ∧ t.captured = s.captured ∧ t.hostData = s.hostData ∧ t.sys = s.sys ∧
    t.irq = s.irq ∧ t.grn = s.grn ∧ t.phy = s.phy ∧ t.ntb = s.ntb ∧ t.sch = s.sch ∧ t.car = s.car ∧ t.hst = s.hst ∧
    t.key = s.key ∧ t.tim = s.tim ∧ t.eth = s.eth ∧ t.twn = s.twn ∧ t.tst = s.tst ∧ t.aon = s.aon ∧ t.otp = s.otp ∧
    t.nvm = s.nvm ∧ t.free = s.free ∧ t.out = s.out ∧ t.pending = s.pending := by
  simp [State.updBurst]

@[simp] theorem State.setPhase_keeps (s : State) (g : Grp) (f : TxItem) (p : Phase) : let t := State.setPhase s g f p
    t.regs = s.regs ∧ t.staged = s.staged ∧ t.captured = s.captured ∧ t.hostData = s.hostData ∧ t.sys = s.sys ∧
    t.irq = s.irq ∧ t.grn = s.grn ∧ t.phy = s.phy ∧ t.ntb = s.ntb ∧ t.sch = s.sch ∧ t.car = s.car ∧ t.hst = s.hst ∧
    t.key = s.key ∧ t.tim = s.tim ∧ t.eth = s.eth ∧ t.twn = s.twn ∧ t.tst = s.tst ∧ t.aon = s.aon ∧ t.otp = s.otp ∧
    t.nvm = s.nvm ∧ t.free = s.free ∧ t.out = s.out ∧ t.pending = s.pending := by
  simp [State.setPhase]

@[simp] theorem State.noteRl_keeps (s : State) (g : Grp) : let t := State.noteRl s g
    t.staged = s.staged ∧ t.captured = s.captured ∧ t.hostData = s.hostData ∧ t.feL = s.feL ∧ t.feH = s.feH ∧
    t.feI = s.feI ∧ t.grn = s.grn ∧ t.phy = s.phy ∧ t.sch = s.sch ∧ t.hst = s.hst ∧ t.key = s.key ∧ t.tim = s.tim ∧
    t.eth = s.eth ∧ t.twn = s.twn ∧ t.tst = s.tst ∧ t.aon = s.aon ∧ t.otp = s.otp ∧ t.nvm = s.nvm ∧ t.out = s.out ∧
    t.pending = s.pending := by
  unfold State.noteRl
  try dsimp only
  (repeat' split) <;> simp

@[simp] theorem State.lose_keeps (s : State) (g : Grp) (f : TxItem) (c : Option Fld) (synth : Bool) : let t := State.lose s g f c synth
    t.staged = s.staged ∧ t.captured = s.captured ∧ t.hostData = s.hostData ∧ t.grn = s.grn ∧ t.phy = s.phy ∧
    t.key = s.key ∧ t.tim = s.tim ∧ t.eth = s.eth ∧ t.twn = s.twn ∧ t.tst = s.tst ∧ t.aon = s.aon ∧ t.otp = s.otp ∧
    t.nvm = s.nvm ∧ t.out = s.out ∧ t.pending = s.pending := by
  unfold State.lose
  try dsimp only
  (repeat' split) <;> simp

@[simp] theorem State.beginBurst_keeps (s : State) (g : Grp) (first : Nat) (port search : Option Nat) (e : Nat) (frames : List TxItem) : let t := State.beginBurst s g first port search e frames
    t.staged = s.staged ∧ t.captured = s.captured ∧ t.hostData = s.hostData ∧ t.phy = s.phy ∧ t.sch = s.sch ∧
    t.hst = s.hst ∧ t.key = s.key ∧ t.tim = s.tim ∧ t.eth = s.eth ∧ t.twn = s.twn ∧ t.tst = s.tst ∧ t.aon = s.aon ∧
    t.otp = s.otp ∧ t.nvm = s.nvm ∧ t.out = s.out ∧ t.pending = s.pending := by
  unfold State.beginBurst
  try dsimp only
  (repeat' split) <;> simp

@[simp] theorem State.joinBurst_keeps (s : State) (g : Grp) (f : TxItem) : let t := State.joinBurst s g f
    t.staged = s.staged ∧ t.captured = s.captured ∧ t.hostData = s.hostData ∧ t.grn = s.grn ∧ t.phy = s.phy ∧
    t.key = s.key ∧ t.tim = s.tim ∧ t.eth = s.eth ∧ t.twn = s.twn ∧ t.tst = s.tst ∧ t.aon = s.aon ∧ t.otp = s.otp ∧
    t.nvm = s.nvm ∧ t.out = s.out ∧ t.pending = s.pending := by
  unfold State.joinBurst
  try dsimp only
  (repeat' split) <;> simp

@[simp] theorem State.joinWaiting_keeps (s : State) (g : Grp) (n : Nat) : let t := State.joinWaiting s g n
    t.staged = s.staged ∧ t.captured = s.captured ∧ t.hostData = s.hostData ∧ t.grn = s.grn ∧ t.phy = s.phy ∧
    t.key = s.key ∧ t.tim = s.tim ∧ t.eth = s.eth ∧ t.twn = s.twn ∧ t.tst = s.tst ∧ t.aon = s.aon ∧ t.otp = s.otp ∧
    t.nvm = s.nvm ∧ t.out = s.out ∧ t.pending = s.pending := by
  induction n generalizing s g with
  | zero => simp [State.joinWaiting]
  | succ n ih => simp only [State.joinWaiting]; (repeat' split) <;> simp [ih]

@[simp] theorem State.commitFrame_keeps (s : State) (f : TxItem) : let t := State.commitFrame s f
    t.staged = s.staged ∧ t.captured = s.captured ∧ t.hostData = s.hostData ∧ t.feL = s.feL ∧ t.feH = s.feH ∧
    t.feI = s.feI ∧ t.grn = s.grn ∧ t.phy = s.phy ∧ t.ntb = s.ntb ∧ t.key = s.key ∧ t.tim = s.tim ∧ t.eth = s.eth ∧
    t.twn = s.twn ∧ t.tst = s.tst ∧ t.aon = s.aon ∧ t.otp = s.otp ∧ t.nvm = s.nvm ∧ t.free = s.free ∧
    t.out = s.out ∧ t.pending = s.pending := by
  unfold State.commitFrame
  try dsimp only
  (repeat' split) <;> simp

@[simp] theorem State.offAir_keeps (s : State) (f : TxItem) : let t := State.offAir s f
    t.regs = s.regs ∧ t.staged = s.staged ∧ t.captured = s.captured ∧ t.hostData = s.hostData ∧ t.sys = s.sys ∧
    t.irq = s.irq ∧ t.feL = s.feL ∧ t.feH = s.feH ∧ t.feI = s.feI ∧ t.grn = s.grn ∧ t.phy = s.phy ∧ t.ntb = s.ntb ∧
    t.car = s.car ∧ t.hst = s.hst ∧ t.key = s.key ∧ t.tim = s.tim ∧ t.eth = s.eth ∧ t.twn = s.twn ∧ t.tst = s.tst ∧
    t.aon = s.aon ∧ t.otp = s.otp ∧ t.nvm = s.nvm ∧ t.free = s.free ∧ t.out = s.out ∧ t.pending = s.pending := by
  unfold State.offAir
  try dsimp only
  (repeat' split) <;> simp

@[simp] theorem State.tryDur_keeps (s : State) (f : TxItem) (dur : Nat) : let t := State.tryDur s f dur
    t.regs = s.regs ∧ t.staged = s.staged ∧ t.captured = s.captured ∧ t.hostData = s.hostData ∧ t.sys = s.sys ∧
    t.irq = s.irq ∧ t.feL = s.feL ∧ t.feH = s.feH ∧ t.feI = s.feI ∧ t.grn = s.grn ∧ t.phy = s.phy ∧ t.ntb = s.ntb ∧
    t.car = s.car ∧ t.hst = s.hst ∧ t.key = s.key ∧ t.tim = s.tim ∧ t.eth = s.eth ∧ t.twn = s.twn ∧ t.tst = s.tst ∧
    t.aon = s.aon ∧ t.otp = s.otp ∧ t.nvm = s.nvm ∧ t.free = s.free ∧ t.out = s.out ∧ t.pending = s.pending := by
  simp [State.tryDur]

@[simp] theorem State.truncate_keeps (s : State) (g : Grp) : let t := State.truncate s g
    t.staged = s.staged ∧ t.captured = s.captured ∧ t.hostData = s.hostData ∧ t.sys = s.sys ∧ t.irq = s.irq ∧
    t.grn = s.grn ∧ t.phy = s.phy ∧ t.ntb = s.ntb ∧ t.car = s.car ∧ t.hst = s.hst ∧ t.key = s.key ∧ t.tim = s.tim ∧
    t.eth = s.eth ∧ t.twn = s.twn ∧ t.tst = s.tst ∧ t.aon = s.aon ∧ t.otp = s.otp ∧ t.nvm = s.nvm ∧
    t.free = s.free ∧ t.out = s.out ∧ t.pending = s.pending := by
  unfold State.truncate
  try dsimp only
  (repeat' split) <;> simp

@[simp] theorem State.cutBurst_keeps (s : State) (g : Grp) (c : Fld) (synth : Bool) : let t := State.cutBurst s g c synth
    t.staged = s.staged ∧ t.captured = s.captured ∧ t.hostData = s.hostData ∧ t.grn = s.grn ∧ t.phy = s.phy ∧
    t.key = s.key ∧ t.tim = s.tim ∧ t.eth = s.eth ∧ t.twn = s.twn ∧ t.tst = s.tst ∧ t.aon = s.aon ∧ t.otp = s.otp ∧
    t.nvm = s.nvm ∧ t.out = s.out ∧ t.pending = s.pending := by
  unfold State.cutBurst
  try dsimp only
  (repeat' split) <;> simp

@[simp] theorem State.grantFell_keeps (s : State) (g : Grp) : let t := State.grantFell s g
    t.staged = s.staged ∧ t.captured = s.captured ∧ t.hostData = s.hostData ∧ t.grn = s.grn ∧ t.phy = s.phy ∧
    t.key = s.key ∧ t.tim = s.tim ∧ t.eth = s.eth ∧ t.twn = s.twn ∧ t.tst = s.tst ∧ t.aon = s.aon ∧ t.otp = s.otp ∧
    t.nvm = s.nvm ∧ t.out = s.out ∧ t.pending = s.pending := by
  unfold State.grantFell
  try dsimp only
  (repeat' split) <;> simp

@[simp] theorem State.mapLeave_keeps (s : State) (f : TxItem) : let t := State.mapLeave s f
    t.regs = s.regs ∧ t.staged = s.staged ∧ t.captured = s.captured ∧ t.hostData = s.hostData ∧ t.sys = s.sys ∧
    t.irq = s.irq ∧ t.feL = s.feL ∧ t.feH = s.feH ∧ t.feI = s.feI ∧ t.grn = s.grn ∧ t.ntb = s.ntb ∧ t.sch = s.sch ∧
    t.car = s.car ∧ t.hst = s.hst ∧ t.key = s.key ∧ t.tim = s.tim ∧ t.eth = s.eth ∧ t.twn = s.twn ∧ t.tst = s.tst ∧
    t.aon = s.aon ∧ t.otp = s.otp ∧ t.nvm = s.nvm ∧ t.free = s.free ∧ t.out = s.out ∧ t.pending = s.pending := by
  unfold State.mapLeave
  try dsimp only
  (repeat' split) <;> simp

@[simp] theorem State.mapEnter_keeps (s : State) (f : TxItem) : let t := State.mapEnter s f
    t.regs = s.regs ∧ t.staged = s.staged ∧ t.captured = s.captured ∧ t.hostData = s.hostData ∧ t.sys = s.sys ∧
    t.irq = s.irq ∧ t.feL = s.feL ∧ t.feH = s.feH ∧ t.feI = s.feI ∧ t.grn = s.grn ∧ t.ntb = s.ntb ∧ t.sch = s.sch ∧
    t.car = s.car ∧ t.hst = s.hst ∧ t.key = s.key ∧ t.tim = s.tim ∧ t.eth = s.eth ∧ t.twn = s.twn ∧ t.tst = s.tst ∧
    t.aon = s.aon ∧ t.otp = s.otp ∧ t.nvm = s.nvm ∧ t.free = s.free ∧ t.out = s.out ∧ t.pending = s.pending := by
  simp [State.mapEnter]

@[simp] theorem State.pullItems_keeps (s : State) (p : TxItem → Bool) : let t := State.pullItems s p
    t.regs = s.regs ∧ t.staged = s.staged ∧ t.captured = s.captured ∧ t.hostData = s.hostData ∧ t.sys = s.sys ∧
    t.irq = s.irq ∧ t.grn = s.grn ∧ t.ntb = s.ntb ∧ t.sch = s.sch ∧ t.car = s.car ∧ t.hst = s.hst ∧ t.tim = s.tim ∧
    t.eth = s.eth ∧ t.twn = s.twn ∧ t.tst = s.tst ∧ t.aon = s.aon ∧ t.otp = s.otp ∧ t.nvm = s.nvm ∧
    t.free = s.free ∧ t.out = s.out ∧ t.pending = s.pending := by
  simp [State.pullItems]

@[simp] theorem State.undeclare_keeps (s : State) (f : TxItem) : let t := State.undeclare s f
    t.regs = s.regs ∧ t.staged = s.staged ∧ t.captured = s.captured ∧ t.hostData = s.hostData ∧ t.sys = s.sys ∧
    t.irq = s.irq ∧ t.grn = s.grn ∧ t.ntb = s.ntb ∧ t.sch = s.sch ∧ t.car = s.car ∧ t.hst = s.hst ∧ t.tim = s.tim ∧
    t.eth = s.eth ∧ t.twn = s.twn ∧ t.tst = s.tst ∧ t.aon = s.aon ∧ t.otp = s.otp ∧ t.nvm = s.nvm ∧
    t.free = s.free ∧ t.out = s.out ∧ t.pending = s.pending := by
  simp [State.undeclare]

@[simp] theorem State.displace_keeps (s : State) (g : Grp) (lo hi n : Nat) : let t := State.displace s g lo hi n
    t.staged = s.staged ∧ t.captured = s.captured ∧ t.hostData = s.hostData ∧ t.grn = s.grn ∧ t.phy = s.phy ∧
    t.key = s.key ∧ t.tim = s.tim ∧ t.eth = s.eth ∧ t.twn = s.twn ∧ t.tst = s.tst ∧ t.aon = s.aon ∧ t.otp = s.otp ∧
    t.nvm = s.nvm ∧ t.out = s.out ∧ t.pending = s.pending := by
  induction n generalizing s g lo hi with
  | zero => simp [State.displace]
  | succ n ih => simp only [State.displace]; (repeat' split) <;> simp [ih]

@[simp] theorem State.takeSlot_keeps (s : State) (g : Grp) (b : Burst) (f : TxItem) : let t := (State.takeSlot s g b f).2
    t.staged = s.staged ∧ t.captured = s.captured ∧ t.hostData = s.hostData ∧ t.grn = s.grn ∧ t.phy = s.phy ∧
    t.key = s.key ∧ t.tim = s.tim ∧ t.eth = s.eth ∧ t.twn = s.twn ∧ t.tst = s.tst ∧ t.aon = s.aon ∧ t.otp = s.otp ∧
    t.nvm = s.nvm ∧ t.out = s.out ∧ t.pending = s.pending := by
  simp [State.takeSlot]

end Sys2Proof.Machine
end

