-- ==== Sys2Proof/Laws/KeepsPhy.lean ====
section
/-!
SUPPORT. What each operation of Machine/Phy.lean leaves as it was.
-/

namespace Sys2Proof.Machine

@[simp] theorem State.ackDeclare_keeps (s : State) (g : Grp) (id : Nat) (m : RxMeta) (eui : Word64) : let t := State.ackDeclare s g id m eui
    t.staged = s.staged ∧ t.captured = s.captured ∧ t.hostData = s.hostData ∧ t.phy = s.phy ∧ t.key = s.key ∧
    t.tim = s.tim ∧ t.eth = s.eth ∧ t.twn = s.twn ∧ t.tst = s.tst ∧ t.aon = s.aon ∧ t.otp = s.otp ∧ t.nvm = s.nvm ∧
    t.out = s.out ∧ t.pending = s.pending := by
  unfold State.ackDeclare
  try dsimp only
  (repeat' split) <;> simp

@[simp] theorem State.received_keeps (s : State) (l : Lane) (r : Reception) (p : Psdu) : let t := State.received s l r p
    t.staged = s.staged ∧ t.captured = s.captured ∧ t.hostData = s.hostData ∧ t.key = s.key ∧ t.tim = s.tim ∧
    t.eth = s.eth ∧ t.twn = s.twn ∧ t.tst = s.tst ∧ t.aon = s.aon ∧ t.otp = s.otp ∧ t.nvm = s.nvm ∧ t.out = s.out ∧
    t.pending = s.pending := by
  simp [State.received]

@[simp] theorem execReceptionEnd_keeps (lane : Nat) (r : Reception) (s : State) : let t := Outcome.get (execReceptionEnd lane r s) s
    t.staged = s.staged ∧ t.captured = s.captured ∧ t.hostData = s.hostData ∧ t.key = s.key ∧ t.tim = s.tim ∧
    t.eth = s.eth ∧ t.twn = s.twn ∧ t.tst = s.tst ∧ t.aon = s.aon ∧ t.otp = s.otp ∧ t.nvm = s.nvm ∧ t.out = s.out ∧
    t.pending = s.pending := by
  unfold execReceptionEnd
  try dsimp only
  (repeat' split) <;> simp

@[simp] theorem State.propReport_keeps (s : State) (p : TMap) (h : BitVec 18) (chan : Byte) (action : Nat) (gen : Byte) (tmap : BitVec 12) (endTime : Nat) : let t := State.propReport s p h chan action gen tmap endTime
    t.staged = s.staged ∧ t.captured = s.captured ∧ t.hostData = s.hostData ∧ t.feL = s.feL ∧ t.feH = s.feH ∧
    t.feI = s.feI ∧ t.grn = s.grn ∧ t.ntb = s.ntb ∧ t.sch = s.sch ∧ t.hst = s.hst ∧ t.key = s.key ∧ t.tim = s.tim ∧
    t.eth = s.eth ∧ t.twn = s.twn ∧ t.tst = s.tst ∧ t.aon = s.aon ∧ t.otp = s.otp ∧ t.nvm = s.nvm ∧ t.out = s.out ∧
    t.pending = s.pending := by
  simp [State.propReport]

@[simp] theorem State.propAct_keeps (s : State) (c : EntryCopy) (p : PropSlot) (prop : TMap) : let t := State.propAct s c p prop
    t.staged = s.staged ∧ t.captured = s.captured ∧ t.hostData = s.hostData ∧ t.feL = s.feL ∧ t.feH = s.feH ∧
    t.feI = s.feI ∧ t.grn = s.grn ∧ t.ntb = s.ntb ∧ t.sch = s.sch ∧ t.hst = s.hst ∧ t.key = s.key ∧ t.tim = s.tim ∧
    t.eth = s.eth ∧ t.twn = s.twn ∧ t.tst = s.tst ∧ t.aon = s.aon ∧ t.otp = s.otp ∧ t.nvm = s.nvm ∧ t.out = s.out ∧
    t.pending = s.pending := by
  unfold State.propAct
  try dsimp only
  (repeat' split) <;> simp

@[simp] theorem State.propMerge_keeps (s : State) (c : EntryCopy) (u : UlItem) : let t := State.propMerge s c u
    t.staged = s.staged ∧ t.captured = s.captured ∧ t.hostData = s.hostData ∧ t.feL = s.feL ∧ t.feH = s.feH ∧
    t.feI = s.feI ∧ t.grn = s.grn ∧ t.ntb = s.ntb ∧ t.sch = s.sch ∧ t.hst = s.hst ∧ t.key = s.key ∧ t.tim = s.tim ∧
    t.eth = s.eth ∧ t.twn = s.twn ∧ t.tst = s.tst ∧ t.aon = s.aon ∧ t.otp = s.otp ∧ t.nvm = s.nvm ∧ t.out = s.out ∧
    t.pending = s.pending := by
  unfold State.propMerge
  try dsimp only
  (repeat' split) <;> simp

@[simp] theorem State.propFeed_keeps (s : State) (u : UlItem) : let t := State.propFeed s u
    t.staged = s.staged ∧ t.captured = s.captured ∧ t.hostData = s.hostData ∧ t.feL = s.feL ∧ t.feH = s.feH ∧
    t.feI = s.feI ∧ t.grn = s.grn ∧ t.ntb = s.ntb ∧ t.sch = s.sch ∧ t.hst = s.hst ∧ t.key = s.key ∧ t.tim = s.tim ∧
    t.eth = s.eth ∧ t.twn = s.twn ∧ t.tst = s.tst ∧ t.aon = s.aon ∧ t.otp = s.otp ∧ t.nvm = s.nvm ∧ t.out = s.out ∧
    t.pending = s.pending := by
  unfold State.propFeed
  try dsimp only
  (repeat' split) <;> simp

@[simp] theorem execUlRelease_keeps (s : State) : let t := Outcome.get (execUlRelease s) s
    t.regs = s.regs ∧ t.staged = s.staged ∧ t.captured = s.captured ∧ t.hostData = s.hostData ∧ t.sys = s.sys ∧
    t.irq = s.irq ∧ t.feL = s.feL ∧ t.feH = s.feH ∧ t.feI = s.feI ∧ t.grn = s.grn ∧ t.sch = s.sch ∧ t.car = s.car ∧
    t.hst = s.hst ∧ t.key = s.key ∧ t.tim = s.tim ∧ t.eth = s.eth ∧ t.twn = s.twn ∧ t.tst = s.tst ∧ t.aon = s.aon ∧
    t.otp = s.otp ∧ t.nvm = s.nvm ∧ t.free = s.free ∧ t.out = s.out ∧ t.pending = s.pending := by
  unfold execUlRelease
  try dsimp only
  (repeat' split) <;> simp

@[simp] theorem State.propBack_keeps (s : State) (w : PropWrite) (now : BitVec 12) : let t := State.propBack s w now
    t.staged = s.staged ∧ t.captured = s.captured ∧ t.hostData = s.hostData ∧ t.feL = s.feL ∧ t.feH = s.feH ∧
    t.feI = s.feI ∧ t.grn = s.grn ∧ t.ntb = s.ntb ∧ t.sch = s.sch ∧ t.hst = s.hst ∧ t.key = s.key ∧ t.tim = s.tim ∧
    t.eth = s.eth ∧ t.twn = s.twn ∧ t.tst = s.tst ∧ t.aon = s.aon ∧ t.otp = s.otp ∧ t.nvm = s.nvm ∧ t.out = s.out ∧
    t.pending = s.pending := by
  simp [State.propBack]

@[simp] theorem State.propLost_keeps (s : State) (w : PropWrite) : let t := State.propLost s w
    t.staged = s.staged ∧ t.captured = s.captured ∧ t.hostData = s.hostData ∧ t.feL = s.feL ∧ t.feH = s.feH ∧
    t.feI = s.feI ∧ t.grn = s.grn ∧ t.ntb = s.ntb ∧ t.sch = s.sch ∧ t.hst = s.hst ∧ t.key = s.key ∧ t.tim = s.tim ∧
    t.eth = s.eth ∧ t.twn = s.twn ∧ t.tst = s.tst ∧ t.aon = s.aon ∧ t.otp = s.otp ∧ t.nvm = s.nvm ∧ t.out = s.out ∧
    t.pending = s.pending := by
  simp [State.propLost]

@[simp] theorem execTonemapTableWrite_keeps (s : State) : let t := Outcome.get (execTonemapTableWrite s) s
    t.staged = s.staged ∧ t.captured = s.captured ∧ t.hostData = s.hostData ∧ t.feL = s.feL ∧ t.feH = s.feH ∧
    t.feI = s.feI ∧ t.grn = s.grn ∧ t.sch = s.sch ∧ t.hst = s.hst ∧ t.key = s.key ∧ t.tim = s.tim ∧ t.eth = s.eth ∧
    t.twn = s.twn ∧ t.tst = s.tst ∧ t.aon = s.aon ∧ t.otp = s.otp ∧ t.nvm = s.nvm ∧ t.out = s.out ∧
    t.pending = s.pending := by
  unfold execTonemapTableWrite
  try dsimp only
  (repeat' split) <;> simp

@[simp] theorem State.mapParity_keeps (s : State) (i : BitVec 12) : let t := State.mapParity s i
    t.staged = s.staged ∧ t.captured = s.captured ∧ t.hostData = s.hostData ∧ t.feL = s.feL ∧ t.feH = s.feH ∧
    t.feI = s.feI ∧ t.grn = s.grn ∧ t.ntb = s.ntb ∧ t.sch = s.sch ∧ t.car = s.car ∧ t.hst = s.hst ∧ t.key = s.key ∧
    t.tim = s.tim ∧ t.eth = s.eth ∧ t.twn = s.twn ∧ t.tst = s.tst ∧ t.aon = s.aon ∧ t.otp = s.otp ∧ t.nvm = s.nvm ∧
    t.free = s.free ∧ t.out = s.out ∧ t.pending = s.pending := by
  unfold State.mapParity
  try dsimp only
  (repeat' split) <;> simp

@[simp] theorem execPhyModulate_keeps (s : State) : let t := Outcome.get (execPhyModulate s) s
    t.staged = s.staged ∧ t.captured = s.captured ∧ t.hostData = s.hostData ∧ t.grn = s.grn ∧ t.tim = s.tim ∧
    t.eth = s.eth ∧ t.twn = s.twn ∧ t.tst = s.tst ∧ t.aon = s.aon ∧ t.otp = s.otp ∧ t.nvm = s.nvm ∧ t.out = s.out ∧
    t.pending = s.pending := by
  unfold execPhyModulate
  try dsimp only
  (repeat' split) <;> simp

@[simp] theorem State.setMap_keeps (s : State) (i : Nat) (m : TMap) : let t := State.setMap s i m
    t.regs = s.regs ∧ t.staged = s.staged ∧ t.captured = s.captured ∧ t.hostData = s.hostData ∧ t.sys = s.sys ∧
    t.irq = s.irq ∧ t.feL = s.feL ∧ t.feH = s.feH ∧ t.feI = s.feI ∧ t.grn = s.grn ∧ t.ntb = s.ntb ∧ t.sch = s.sch ∧
    t.car = s.car ∧ t.hst = s.hst ∧ t.key = s.key ∧ t.tim = s.tim ∧ t.eth = s.eth ∧ t.twn = s.twn ∧ t.tst = s.tst ∧
    t.aon = s.aon ∧ t.otp = s.otp ∧ t.nvm = s.nvm ∧ t.free = s.free ∧ t.out = s.out ∧ t.pending = s.pending := by
  simp [State.setMap]

@[simp] theorem State.mapWrite_keeps (s : State) (i : Nat) (b : List Byte) : let t := (State.mapWrite s i b).2
    t.regs = s.regs ∧ t.staged = s.staged ∧ t.captured = s.captured ∧ t.hostData = s.hostData ∧ t.sys = s.sys ∧
    t.irq = s.irq ∧ t.feL = s.feL ∧ t.feH = s.feH ∧ t.feI = s.feI ∧ t.grn = s.grn ∧ t.ntb = s.ntb ∧ t.sch = s.sch ∧
    t.car = s.car ∧ t.hst = s.hst ∧ t.key = s.key ∧ t.tim = s.tim ∧ t.eth = s.eth ∧ t.twn = s.twn ∧ t.tst = s.tst ∧
    t.aon = s.aon ∧ t.otp = s.otp ∧ t.nvm = s.nvm ∧ t.free = s.free ∧ t.out = s.out ∧ t.pending = s.pending := by
  simp [State.mapWrite]

@[simp] theorem State.fillWindow_keeps (s : State) (b : List Byte) : let t := State.fillWindow s b
    t.staged = s.staged ∧ t.captured = s.captured ∧ t.hostData = s.hostData ∧ t.sys = s.sys ∧ t.irq = s.irq ∧
    t.feL = s.feL ∧ t.feH = s.feH ∧ t.feI = s.feI ∧ t.grn = s.grn ∧ t.phy = s.phy ∧ t.ntb = s.ntb ∧ t.sch = s.sch ∧
    t.car = s.car ∧ t.hst = s.hst ∧ t.key = s.key ∧ t.tim = s.tim ∧ t.eth = s.eth ∧ t.twn = s.twn ∧ t.tst = s.tst ∧
    t.aon = s.aon ∧ t.otp = s.otp ∧ t.nvm = s.nvm ∧ t.free = s.free ∧ t.out = s.out ∧ t.pending = s.pending := by
  simp [State.fillWindow]

@[simp] theorem State.tmapCmd_keeps (s : State) (v : Nat) : let t := State.tmapCmd s v
    t.staged = s.staged ∧ t.captured = s.captured ∧ t.hostData = s.hostData ∧ t.sys = s.sys ∧ t.irq = s.irq ∧
    t.feL = s.feL ∧ t.feH = s.feH ∧ t.feI = s.feI ∧ t.grn = s.grn ∧ t.ntb = s.ntb ∧ t.sch = s.sch ∧ t.car = s.car ∧
    t.hst = s.hst ∧ t.key = s.key ∧ t.tim = s.tim ∧ t.eth = s.eth ∧ t.twn = s.twn ∧ t.tst = s.tst ∧ t.aon = s.aon ∧
    t.otp = s.otp ∧ t.nvm = s.nvm ∧ t.free = s.free ∧ t.out = s.out ∧ t.pending = s.pending := by
  unfold State.tmapCmd
  try dsimp only
  (repeat' split) <;> simp

@[simp] theorem execTmapRead_keeps (s : State) : let t := Outcome.get (execTmapRead s) s
    t.staged = s.staged ∧ t.captured = s.captured ∧ t.hostData = s.hostData ∧ t.irq = s.irq ∧ t.feL = s.feL ∧
    t.feH = s.feH ∧ t.feI = s.feI ∧ t.grn = s.grn ∧ t.ntb = s.ntb ∧ t.sch = s.sch ∧ t.car = s.car ∧ t.hst = s.hst ∧
    t.key = s.key ∧ t.tim = s.tim ∧ t.eth = s.eth ∧ t.twn = s.twn ∧ t.tst = s.tst ∧ t.aon = s.aon ∧ t.otp = s.otp ∧
    t.nvm = s.nvm ∧ t.free = s.free ∧ t.out = s.out ∧ t.pending = s.pending := by
  simp [execTmapRead]

@[simp] theorem execTmapWrite_keeps (s : State) : let t := Outcome.get (execTmapWrite s) s
    t.staged = s.staged ∧ t.captured = s.captured ∧ t.hostData = s.hostData ∧ t.irq = s.irq ∧ t.feL = s.feL ∧
    t.feH = s.feH ∧ t.feI = s.feI ∧ t.grn = s.grn ∧ t.ntb = s.ntb ∧ t.sch = s.sch ∧ t.car = s.car ∧ t.hst = s.hst ∧
    t.key = s.key ∧ t.tim = s.tim ∧ t.eth = s.eth ∧ t.twn = s.twn ∧ t.tst = s.tst ∧ t.aon = s.aon ∧ t.otp = s.otp ∧
    t.nvm = s.nvm ∧ t.free = s.free ∧ t.out = s.out ∧ t.pending = s.pending := by
  simp [execTmapWrite]

@[simp] theorem execTmapFree_keeps (s : State) : let t := Outcome.get (execTmapFree s) s
    t.staged = s.staged ∧ t.captured = s.captured ∧ t.hostData = s.hostData ∧ t.irq = s.irq ∧ t.feL = s.feL ∧
    t.feH = s.feH ∧ t.feI = s.feI ∧ t.grn = s.grn ∧ t.ntb = s.ntb ∧ t.sch = s.sch ∧ t.car = s.car ∧ t.hst = s.hst ∧
    t.key = s.key ∧ t.tim = s.tim ∧ t.eth = s.eth ∧ t.twn = s.twn ∧ t.tst = s.tst ∧ t.aon = s.aon ∧ t.otp = s.otp ∧
    t.nvm = s.nvm ∧ t.free = s.free ∧ t.out = s.out ∧ t.pending = s.pending := by
  simp [execTmapFree]

end Sys2Proof.Machine
end

