-- ==== Sys2Proof/Laws/KeepsNodeTable.lean ====
section
/-!
SUPPORT. What each operation of Machine/NodeTable.lean leaves as it was.
-/

namespace Sys2Proof.Machine

@[simp] theorem State.hitOp_keeps (s : State) (h : BitVec 18) : let t := (State.hitOp s h).2
    t.staged = s.staged ∧ t.captured = s.captured ∧ t.hostData = s.hostData ∧ t.feL = s.feL ∧ t.feH = s.feH ∧
    t.feI = s.feI ∧ t.grn = s.grn ∧ t.phy = s.phy ∧ t.sch = s.sch ∧ t.hst = s.hst ∧ t.key = s.key ∧ t.tim = s.tim ∧
    t.eth = s.eth ∧ t.twn = s.twn ∧ t.tst = s.tst ∧ t.aon = s.aon ∧ t.otp = s.otp ∧ t.nvm = s.nvm ∧ t.out = s.out ∧
    t.pending = s.pending := by
  unfold State.hitOp
  try dsimp only
  (repeat' split) <;> simp

@[simp] theorem execNtbLookup_keeps (s : State) : let t := Outcome.get (execNtbLookup s) s
    t.staged = s.staged ∧ t.captured = s.captured ∧ t.hostData = s.hostData ∧ t.feL = s.feL ∧ t.feH = s.feH ∧
    t.feI = s.feI ∧ t.grn = s.grn ∧ t.sch = s.sch ∧ t.hst = s.hst ∧ t.tim = s.tim ∧ t.eth = s.eth ∧ t.twn = s.twn ∧
    t.tst = s.tst ∧ t.aon = s.aon ∧ t.otp = s.otp ∧ t.nvm = s.nvm ∧ t.out = s.out ∧ t.pending = s.pending := by
  unfold execNtbLookup
  try dsimp only
  (repeat' split) <;> simp

@[simp] theorem State.pickHandle_keeps (s : State) (c : TblCmd) : let t := (State.pickHandle s c).2
    t.staged = s.staged ∧ t.captured = s.captured ∧ t.hostData = s.hostData ∧ t.feL = s.feL ∧ t.feH = s.feH ∧
    t.feI = s.feI ∧ t.grn = s.grn ∧ t.phy = s.phy ∧ t.sch = s.sch ∧ t.hst = s.hst ∧ t.key = s.key ∧ t.tim = s.tim ∧
    t.eth = s.eth ∧ t.twn = s.twn ∧ t.tst = s.tst ∧ t.aon = s.aon ∧ t.otp = s.otp ∧ t.nvm = s.nvm ∧ t.out = s.out ∧
    t.pending = s.pending := by
  unfold State.pickHandle
  try dsimp only
  (repeat' split) <;> simp

@[simp] theorem State.noteFull_keeps (s : State) : let t := State.noteFull s
    t.staged = s.staged ∧ t.captured = s.captured ∧ t.hostData = s.hostData ∧ t.feL = s.feL ∧ t.feH = s.feH ∧
    t.feI = s.feI ∧ t.grn = s.grn ∧ t.phy = s.phy ∧ t.ntb = s.ntb ∧ t.sch = s.sch ∧ t.car = s.car ∧ t.hst = s.hst ∧
    t.key = s.key ∧ t.tim = s.tim ∧ t.eth = s.eth ∧ t.twn = s.twn ∧ t.tst = s.tst ∧ t.aon = s.aon ∧ t.otp = s.otp ∧
    t.nvm = s.nvm ∧ t.free = s.free ∧ t.out = s.out ∧ t.pending = s.pending := by
  simp [State.noteFull]

@[simp] theorem State.tblInsert_keeps (s : State) (c : TblCmd) : let t := (State.tblInsert s c).2
    t.staged = s.staged ∧ t.captured = s.captured ∧ t.hostData = s.hostData ∧ t.feL = s.feL ∧ t.feH = s.feH ∧
    t.feI = s.feI ∧ t.grn = s.grn ∧ t.sch = s.sch ∧ t.hst = s.hst ∧ t.key = s.key ∧ t.tim = s.tim ∧ t.eth = s.eth ∧
    t.twn = s.twn ∧ t.tst = s.tst ∧ t.aon = s.aon ∧ t.otp = s.otp ∧ t.nvm = s.nvm ∧ t.out = s.out ∧
    t.pending = s.pending := by
  unfold State.tblInsert
  try dsimp only
  (repeat' split) <;> simp

@[simp] theorem State.cmdSlot_keeps (s : State) (h : BitVec 18) : let t := (State.cmdSlot s h).2
    t.staged = s.staged ∧ t.captured = s.captured ∧ t.hostData = s.hostData ∧ t.feL = s.feL ∧ t.feH = s.feH ∧
    t.feI = s.feI ∧ t.grn = s.grn ∧ t.phy = s.phy ∧ t.sch = s.sch ∧ t.hst = s.hst ∧ t.key = s.key ∧ t.tim = s.tim ∧
    t.eth = s.eth ∧ t.twn = s.twn ∧ t.tst = s.tst ∧ t.aon = s.aon ∧ t.otp = s.otp ∧ t.nvm = s.nvm ∧ t.out = s.out ∧
    t.pending = s.pending := by
  unfold State.cmdSlot
  try dsimp only
  (repeat' split) <;> simp

@[simp] theorem State.afterWrite_keeps (s : State) (e : Entry) (mask : BitVec 12) : let t := State.afterWrite s e mask
    t.staged = s.staged ∧ t.captured = s.captured ∧ t.hostData = s.hostData ∧ t.feL = s.feL ∧ t.feH = s.feH ∧
    t.feI = s.feI ∧ t.grn = s.grn ∧ t.phy = s.phy ∧ t.hst = s.hst ∧ t.key = s.key ∧ t.tim = s.tim ∧ t.eth = s.eth ∧
    t.twn = s.twn ∧ t.tst = s.tst ∧ t.aon = s.aon ∧ t.otp = s.otp ∧ t.nvm = s.nvm ∧ t.out = s.out ∧
    t.pending = s.pending := by
  simp [State.afterWrite]

@[simp] theorem State.tblStore_keeps (s : State) (c : TblCmd) (loc : Nat) (sl new : Slot) : let t := State.tblStore s c loc sl new
    t.regs = s.regs ∧ t.staged = s.staged ∧ t.captured = s.captured ∧ t.hostData = s.hostData ∧ t.sys = s.sys ∧
    t.irq = s.irq ∧ t.feL = s.feL ∧ t.feH = s.feH ∧ t.feI = s.feI ∧ t.grn = s.grn ∧ t.sch = s.sch ∧ t.car = s.car ∧
    t.hst = s.hst ∧ t.key = s.key ∧ t.tim = s.tim ∧ t.eth = s.eth ∧ t.twn = s.twn ∧ t.tst = s.tst ∧ t.aon = s.aon ∧
    t.otp = s.otp ∧ t.nvm = s.nvm ∧ t.free = s.free ∧ t.out = s.out ∧ t.pending = s.pending := by
  simp [State.tblStore]

@[simp] theorem State.tblWrite_keeps (s : State) (c : TblCmd) : let t := (State.tblWrite s c).2
    t.staged = s.staged ∧ t.captured = s.captured ∧ t.hostData = s.hostData ∧ t.feL = s.feL ∧ t.feH = s.feH ∧
    t.feI = s.feI ∧ t.grn = s.grn ∧ t.hst = s.hst ∧ t.key = s.key ∧ t.tim = s.tim ∧ t.eth = s.eth ∧ t.twn = s.twn ∧
    t.tst = s.tst ∧ t.aon = s.aon ∧ t.otp = s.otp ∧ t.nvm = s.nvm ∧ t.out = s.out ∧ t.pending = s.pending := by
  unfold State.tblWrite
  try dsimp only
  (repeat' split) <;> simp

@[simp] theorem State.tblRead_keeps (s : State) (c : TblCmd) : let t := (State.tblRead s c).2
    t.staged = s.staged ∧ t.captured = s.captured ∧ t.hostData = s.hostData ∧ t.feL = s.feL ∧ t.feH = s.feH ∧
    t.feI = s.feI ∧ t.grn = s.grn ∧ t.phy = s.phy ∧ t.sch = s.sch ∧ t.hst = s.hst ∧ t.key = s.key ∧ t.tim = s.tim ∧
    t.eth = s.eth ∧ t.twn = s.twn ∧ t.tst = s.tst ∧ t.aon = s.aon ∧ t.otp = s.otp ∧ t.nvm = s.nvm ∧ t.out = s.out ∧
    t.pending = s.pending := by
  unfold State.tblRead
  try dsimp only
  (repeat' split) <;> simp

@[simp] theorem State.tblRemove_keeps (s : State) (c : TblCmd) : let t := (State.tblRemove s c).2
    t.staged = s.staged ∧ t.captured = s.captured ∧ t.hostData = s.hostData ∧ t.feL = s.feL ∧ t.feH = s.feH ∧
    t.feI = s.feI ∧ t.grn = s.grn ∧ t.sch = s.sch ∧ t.key = s.key ∧ t.tim = s.tim ∧ t.eth = s.eth ∧ t.twn = s.twn ∧
    t.tst = s.tst ∧ t.aon = s.aon ∧ t.otp = s.otp ∧ t.nvm = s.nvm ∧ t.out = s.out ∧ t.pending = s.pending := by
  unfold State.tblRemove
  try dsimp only
  (repeat' split) <;> simp

@[simp] theorem State.tblLock_keeps (s : State) (c : TblCmd) : let t := (State.tblLock s c).2
    t.staged = s.staged ∧ t.captured = s.captured ∧ t.hostData = s.hostData ∧ t.feL = s.feL ∧ t.feH = s.feH ∧
    t.feI = s.feI ∧ t.grn = s.grn ∧ t.phy = s.phy ∧ t.sch = s.sch ∧ t.hst = s.hst ∧ t.key = s.key ∧ t.tim = s.tim ∧
    t.eth = s.eth ∧ t.twn = s.twn ∧ t.tst = s.tst ∧ t.aon = s.aon ∧ t.otp = s.otp ∧ t.nvm = s.nvm ∧ t.out = s.out ∧
    t.pending = s.pending := by
  unfold State.tblLock
  try dsimp only
  (repeat' split) <;> simp

@[simp] theorem State.tblLookup_keeps (s : State) (c : TblCmd) : let t := (State.tblLookup s c).2
    t.staged = s.staged ∧ t.captured = s.captured ∧ t.hostData = s.hostData ∧ t.feL = s.feL ∧ t.feH = s.feH ∧
    t.feI = s.feI ∧ t.grn = s.grn ∧ t.phy = s.phy ∧ t.sch = s.sch ∧ t.hst = s.hst ∧ t.key = s.key ∧ t.tim = s.tim ∧
    t.eth = s.eth ∧ t.twn = s.twn ∧ t.tst = s.tst ∧ t.aon = s.aon ∧ t.otp = s.otp ∧ t.nvm = s.nvm ∧ t.out = s.out ∧
    t.pending = s.pending := by
  unfold State.tblLookup
  try dsimp only
  (repeat' split) <;> simp

@[simp] theorem State.tblSkip_keeps (s : State) (n : Nat) : let t := State.tblSkip s n
    t.staged = s.staged ∧ t.captured = s.captured ∧ t.hostData = s.hostData ∧ t.feL = s.feL ∧ t.feH = s.feH ∧
    t.feI = s.feI ∧ t.grn = s.grn ∧ t.phy = s.phy ∧ t.sch = s.sch ∧ t.car = s.car ∧ t.hst = s.hst ∧ t.key = s.key ∧
    t.tim = s.tim ∧ t.twn = s.twn ∧ t.tst = s.tst ∧ t.aon = s.aon ∧ t.otp = s.otp ∧ t.nvm = s.nvm ∧
    t.free = s.free ∧ t.pending = s.pending := by
  induction n generalizing s with
  | zero => simp [State.tblSkip]
  | succ n ih => simp only [State.tblSkip]; (repeat' split) <;> simp [ih]

@[simp] theorem State.tblPost_keeps (s : State) (c : TblCmd) : let t := State.tblPost s c
    t.staged = s.staged ∧ t.captured = s.captured ∧ t.hostData = s.hostData ∧ t.feL = s.feL ∧ t.feH = s.feH ∧
    t.feI = s.feI ∧ t.grn = s.grn ∧ t.phy = s.phy ∧ t.sch = s.sch ∧ t.car = s.car ∧ t.hst = s.hst ∧ t.key = s.key ∧
    t.tim = s.tim ∧ t.twn = s.twn ∧ t.tst = s.tst ∧ t.aon = s.aon ∧ t.otp = s.otp ∧ t.nvm = s.nvm ∧
    t.free = s.free ∧ t.pending = s.pending := by
  simp [State.tblPost]

@[simp] theorem State.tblStep_staged (s : State) (op : Nat) (f : State → TblCmd → TblDone × State) (h : ∀ t c, (f t c).2.staged = t.staged) :
    (State.tblStep s op f).staged = s.staged := by
  unfold State.tblStep
  try dsimp only
  (repeat' split) <;> simp [h]

@[simp] theorem State.tblStep_captured (s : State) (op : Nat) (f : State → TblCmd → TblDone × State) (h : ∀ t c, (f t c).2.captured = t.captured) :
    (State.tblStep s op f).captured = s.captured := by
  unfold State.tblStep
  try dsimp only
  (repeat' split) <;> simp [h]

@[simp] theorem State.tblStep_hostData (s : State) (op : Nat) (f : State → TblCmd → TblDone × State) (h : ∀ t c, (f t c).2.hostData = t.hostData) :
    (State.tblStep s op f).hostData = s.hostData := by
  unfold State.tblStep
  try dsimp only
  (repeat' split) <;> simp [h]

@[simp] theorem State.tblStep_feL (s : State) (op : Nat) (f : State → TblCmd → TblDone × State) (h : ∀ t c, (f t c).2.feL = t.feL) :
    (State.tblStep s op f).feL = s.feL := by
  unfold State.tblStep
  try dsimp only
  (repeat' split) <;> simp [h]

@[simp] theorem State.tblStep_feH (s : State) (op : Nat) (f : State → TblCmd → TblDone × State) (h : ∀ t c, (f t c).2.feH = t.feH) :
    (State.tblStep s op f).feH = s.feH := by
  unfold State.tblStep
  try dsimp only
  (repeat' split) <;> simp [h]

@[simp] theorem State.tblStep_feI (s : State) (op : Nat) (f : State → TblCmd → TblDone × State) (h : ∀ t c, (f t c).2.feI = t.feI) :
    (State.tblStep s op f).feI = s.feI := by
  unfold State.tblStep
  try dsimp only
  (repeat' split) <;> simp [h]

@[simp] theorem State.tblStep_grn (s : State) (op : Nat) (f : State → TblCmd → TblDone × State) (h : ∀ t c, (f t c).2.grn = t.grn) :
    (State.tblStep s op f).grn = s.grn := by
  unfold State.tblStep
  try dsimp only
  (repeat' split) <;> simp [h]

@[simp] theorem State.tblStep_phy (s : State) (op : Nat) (f : State → TblCmd → TblDone × State) (h : ∀ t c, (f t c).2.phy = t.phy) :
    (State.tblStep s op f).phy = s.phy := by
  unfold State.tblStep
  try dsimp only
  (repeat' split) <;> simp [h]

@[simp] theorem State.tblStep_sch (s : State) (op : Nat) (f : State → TblCmd → TblDone × State) (h : ∀ t c, (f t c).2.sch = t.sch) :
    (State.tblStep s op f).sch = s.sch := by
  unfold State.tblStep
  try dsimp only
  (repeat' split) <;> simp [h]

@[simp] theorem State.tblStep_car (s : State) (op : Nat) (f : State → TblCmd → TblDone × State) (h : ∀ t c, (f t c).2.car = t.car) :
    (State.tblStep s op f).car = s.car := by
  unfold State.tblStep
  try dsimp only
  (repeat' split) <;> simp [h]

@[simp] theorem State.tblStep_hst (s : State) (op : Nat) (f : State → TblCmd → TblDone × State) (h : ∀ t c, (f t c).2.hst = t.hst) :
    (State.tblStep s op f).hst = s.hst := by
  unfold State.tblStep
  try dsimp only
  (repeat' split) <;> simp [h]

@[simp] theorem State.tblStep_key (s : State) (op : Nat) (f : State → TblCmd → TblDone × State) (h : ∀ t c, (f t c).2.key = t.key) :
    (State.tblStep s op f).key = s.key := by
  unfold State.tblStep
  try dsimp only
  (repeat' split) <;> simp [h]

@[simp] theorem State.tblStep_tim (s : State) (op : Nat) (f : State → TblCmd → TblDone × State) (h : ∀ t c, (f t c).2.tim = t.tim) :
    (State.tblStep s op f).tim = s.tim := by
  unfold State.tblStep
  try dsimp only
  (repeat' split) <;> simp [h]

@[simp] theorem State.tblStep_twn (s : State) (op : Nat) (f : State → TblCmd → TblDone × State) (h : ∀ t c, (f t c).2.twn = t.twn) :
    (State.tblStep s op f).twn = s.twn := by
  unfold State.tblStep
  try dsimp only
  (repeat' split) <;> simp [h]

@[simp] theorem State.tblStep_tst (s : State) (op : Nat) (f : State → TblCmd → TblDone × State) (h : ∀ t c, (f t c).2.tst = t.tst) :
    (State.tblStep s op f).tst = s.tst := by
  unfold State.tblStep
  try dsimp only
  (repeat' split) <;> simp [h]

@[simp] theorem State.tblStep_aon (s : State) (op : Nat) (f : State → TblCmd → TblDone × State) (h : ∀ t c, (f t c).2.aon = t.aon) :
    (State.tblStep s op f).aon = s.aon := by
  unfold State.tblStep
  try dsimp only
  (repeat' split) <;> simp [h]

@[simp] theorem State.tblStep_otp (s : State) (op : Nat) (f : State → TblCmd → TblDone × State) (h : ∀ t c, (f t c).2.otp = t.otp) :
    (State.tblStep s op f).otp = s.otp := by
  unfold State.tblStep
  try dsimp only
  (repeat' split) <;> simp [h]

@[simp] theorem State.tblStep_nvm (s : State) (op : Nat) (f : State → TblCmd → TblDone × State) (h : ∀ t c, (f t c).2.nvm = t.nvm) :
    (State.tblStep s op f).nvm = s.nvm := by
  unfold State.tblStep
  try dsimp only
  (repeat' split) <;> simp [h]

@[simp] theorem State.tblStep_free (s : State) (op : Nat) (f : State → TblCmd → TblDone × State) (h : ∀ t c, (f t c).2.free = t.free) :
    (State.tblStep s op f).free = s.free := by
  unfold State.tblStep
  try dsimp only
  (repeat' split) <;> simp [h]

@[simp] theorem State.tblStep_pending (s : State) (op : Nat) (f : State → TblCmd → TblDone × State) (h : ∀ t c, (f t c).2.pending = t.pending) :
    (State.tblStep s op f).pending = s.pending := by
  unfold State.tblStep
  try dsimp only
  (repeat' split) <;> simp [h]

@[simp] theorem execTblInsert_keeps (s : State) : let t := Outcome.get (execTblInsert s) s
    t.staged = s.staged ∧ t.captured = s.captured ∧ t.hostData = s.hostData ∧ t.feL = s.feL ∧ t.feH = s.feH ∧
    t.feI = s.feI ∧ t.grn = s.grn ∧ t.sch = s.sch ∧ t.hst = s.hst ∧ t.key = s.key ∧ t.tim = s.tim ∧ t.twn = s.twn ∧
    t.tst = s.tst ∧ t.aon = s.aon ∧ t.otp = s.otp ∧ t.nvm = s.nvm ∧ t.pending = s.pending := by
  simp [execTblInsert]

@[simp] theorem execTblWrite_keeps (s : State) : let t := Outcome.get (execTblWrite s) s
    t.staged = s.staged ∧ t.captured = s.captured ∧ t.hostData = s.hostData ∧ t.feL = s.feL ∧ t.feH = s.feH ∧
    t.feI = s.feI ∧ t.grn = s.grn ∧ t.hst = s.hst ∧ t.key = s.key ∧ t.tim = s.tim ∧ t.twn = s.twn ∧ t.tst = s.tst ∧
    t.aon = s.aon ∧ t.otp = s.otp ∧ t.nvm = s.nvm ∧ t.pending = s.pending := by
  simp [execTblWrite]

@[simp] theorem execTblRead_keeps (s : State) : let t := Outcome.get (execTblRead s) s
    t.staged = s.staged ∧ t.captured = s.captured ∧ t.hostData = s.hostData ∧ t.feL = s.feL ∧ t.feH = s.feH ∧
    t.feI = s.feI ∧ t.grn = s.grn ∧ t.phy = s.phy ∧ t.sch = s.sch ∧ t.hst = s.hst ∧ t.key = s.key ∧ t.tim = s.tim ∧
    t.twn = s.twn ∧ t.tst = s.tst ∧ t.aon = s.aon ∧ t.otp = s.otp ∧ t.nvm = s.nvm ∧ t.pending = s.pending := by
  simp [execTblRead]

@[simp] theorem execTblRemove_keeps (s : State) : let t := Outcome.get (execTblRemove s) s
    t.staged = s.staged ∧ t.captured = s.captured ∧ t.hostData = s.hostData ∧ t.feL = s.feL ∧ t.feH = s.feH ∧
    t.feI = s.feI ∧ t.grn = s.grn ∧ t.sch = s.sch ∧ t.key = s.key ∧ t.tim = s.tim ∧ t.twn = s.twn ∧ t.tst = s.tst ∧
    t.aon = s.aon ∧ t.otp = s.otp ∧ t.nvm = s.nvm ∧ t.pending = s.pending := by
  simp [execTblRemove]

@[simp] theorem execTblLock_keeps (s : State) : let t := Outcome.get (execTblLock s) s
    t.staged = s.staged ∧ t.captured = s.captured ∧ t.hostData = s.hostData ∧ t.feL = s.feL ∧ t.feH = s.feH ∧
    t.feI = s.feI ∧ t.grn = s.grn ∧ t.phy = s.phy ∧ t.sch = s.sch ∧ t.hst = s.hst ∧ t.key = s.key ∧ t.tim = s.tim ∧
    t.twn = s.twn ∧ t.tst = s.tst ∧ t.aon = s.aon ∧ t.otp = s.otp ∧ t.nvm = s.nvm ∧ t.pending = s.pending := by
  simp [execTblLock]

@[simp] theorem execTblLookup_keeps (s : State) : let t := Outcome.get (execTblLookup s) s
    t.staged = s.staged ∧ t.captured = s.captured ∧ t.hostData = s.hostData ∧ t.feL = s.feL ∧ t.feH = s.feH ∧
    t.feI = s.feI ∧ t.grn = s.grn ∧ t.phy = s.phy ∧ t.sch = s.sch ∧ t.hst = s.hst ∧ t.key = s.key ∧ t.tim = s.tim ∧
    t.twn = s.twn ∧ t.tst = s.tst ∧ t.aon = s.aon ∧ t.otp = s.otp ∧ t.nvm = s.nvm ∧ t.pending = s.pending := by
  simp [execTblLookup]

@[simp] theorem execPurgeEnd_keeps (s : State) : let t := Outcome.get (execPurgeEnd s) s
    t.staged = s.staged ∧ t.captured = s.captured ∧ t.hostData = s.hostData ∧ t.feL = s.feL ∧ t.feH = s.feH ∧
    t.feI = s.feI ∧ t.grn = s.grn ∧ t.phy = s.phy ∧ t.ntb = s.ntb ∧ t.sch = s.sch ∧ t.key = s.key ∧ t.tim = s.tim ∧
    t.eth = s.eth ∧ t.twn = s.twn ∧ t.tst = s.tst ∧ t.aon = s.aon ∧ t.otp = s.otp ∧ t.nvm = s.nvm ∧
    t.free = s.free ∧ t.out = s.out ∧ t.pending = s.pending := by
  unfold execPurgeEnd
  try dsimp only
  (repeat' split) <;> simp

@[simp] theorem execStashDrainTick_keeps (s : State) : let t := Outcome.get (execStashDrainTick s) s
    t.staged = s.staged ∧ t.captured = s.captured ∧ t.hostData = s.hostData ∧ t.feL = s.feL ∧ t.feH = s.feH ∧
    t.feI = s.feI ∧ t.grn = s.grn ∧ t.phy = s.phy ∧ t.sch = s.sch ∧ t.hst = s.hst ∧ t.key = s.key ∧ t.tim = s.tim ∧
    t.eth = s.eth ∧ t.twn = s.twn ∧ t.tst = s.tst ∧ t.aon = s.aon ∧ t.otp = s.otp ∧ t.nvm = s.nvm ∧ t.out = s.out ∧
    t.pending = s.pending := by
  unfold execStashDrainTick
  try dsimp only
  (repeat' split) <;> simp

@[simp] theorem execSweepVisit_keeps (s : State) : let t := Outcome.get (execSweepVisit s) s
    t.staged = s.staged ∧ t.captured = s.captured ∧ t.hostData = s.hostData ∧ t.feL = s.feL ∧ t.feH = s.feH ∧
    t.feI = s.feI ∧ t.grn = s.grn ∧ t.phy = s.phy ∧ t.sch = s.sch ∧ t.hst = s.hst ∧ t.key = s.key ∧ t.tim = s.tim ∧
    t.eth = s.eth ∧ t.twn = s.twn ∧ t.tst = s.tst ∧ t.aon = s.aon ∧ t.otp = s.otp ∧ t.nvm = s.nvm ∧ t.out = s.out ∧
    t.pending = s.pending := by
  unfold execSweepVisit
  try dsimp only
  (repeat' split) <;> simp

@[simp] theorem execCompareRemove_keeps (s : State) : let t := Outcome.get (execCompareRemove s) s
    t.staged = s.staged ∧ t.captured = s.captured ∧ t.hostData = s.hostData ∧ t.feL = s.feL ∧ t.feH = s.feH ∧
    t.feI = s.feI ∧ t.grn = s.grn ∧ t.sch = s.sch ∧ t.hst = s.hst ∧ t.key = s.key ∧ t.tim = s.tim ∧ t.eth = s.eth ∧
    t.twn = s.twn ∧ t.tst = s.tst ∧ t.aon = s.aon ∧ t.otp = s.otp ∧ t.nvm = s.nvm ∧ t.out = s.out ∧
    t.pending = s.pending := by
  unfold execCompareRemove
  try dsimp only
  (repeat' split) <;> simp

@[simp] theorem execLockTimeout_keeps (handle : BitVec 18) (s : State) : let t := Outcome.get (execLockTimeout handle s) s
    t.staged = s.staged ∧ t.captured = s.captured ∧ t.hostData = s.hostData ∧ t.feL = s.feL ∧ t.feH = s.feH ∧
    t.feI = s.feI ∧ t.grn = s.grn ∧ t.phy = s.phy ∧ t.sch = s.sch ∧ t.hst = s.hst ∧ t.key = s.key ∧ t.tim = s.tim ∧
    t.eth = s.eth ∧ t.twn = s.twn ∧ t.tst = s.tst ∧ t.aon = s.aon ∧ t.otp = s.otp ∧ t.nvm = s.nvm ∧ t.out = s.out ∧
    t.pending = s.pending := by
  unfold execLockTimeout
  try dsimp only
  (repeat' split) <;> simp

end Sys2Proof.Machine
end

