-- ==== Sys2Proof/Laws/KeepsAirExchange.lean ====
section
/-!
SUPPORT. What each operation of Machine/AirExchange.lean leaves as it was.
-/

namespace Sys2Proof.Machine

@[simp] theorem State.withdrawAck_keeps (s : State) (id : Nat) : let t := State.withdrawAck s id
    t.staged = s.staged ∧ t.captured = s.captured ∧ t.hostData = s.hostData ∧ t.sys = s.sys ∧ t.irq = s.irq ∧
    t.grn = s.grn ∧ t.ntb = s.ntb ∧ t.car = s.car ∧ t.hst = s.hst ∧ t.tim = s.tim ∧ t.eth = s.eth ∧ t.twn = s.twn ∧
    t.tst = s.tst ∧ t.aon = s.aon ∧ t.otp = s.otp ∧ t.nvm = s.nvm ∧ t.free = s.free ∧ t.out = s.out ∧
    t.pending = s.pending := by
  simp [State.withdrawAck]

@[simp] theorem State.buildAck_keeps (s : State) (u : UlItem) (e : Option Entry) : let t := State.buildAck s u e
    t.regs = s.regs ∧ t.staged = s.staged ∧ t.captured = s.captured ∧ t.hostData = s.hostData ∧ t.irq = s.irq ∧
    t.feL = s.feL ∧ t.feH = s.feH ∧ t.feI = s.feI ∧ t.grn = s.grn ∧ t.phy = s.phy ∧ t.ntb = s.ntb ∧ t.car = s.car ∧
    t.hst = s.hst ∧ t.tim = s.tim ∧ t.eth = s.eth ∧ t.twn = s.twn ∧ t.tst = s.tst ∧ t.aon = s.aon ∧ t.otp = s.otp ∧
    t.nvm = s.nvm ∧ t.free = s.free ∧ t.out = s.out ∧ t.pending = s.pending := by
  unfold State.buildAck
  try dsimp only
  (repeat' split) <;> simp

@[simp] theorem State.deliver_keeps (s : State) (u : UlItem) (h : BitVec 18) : let t := State.deliver s u h
    t.staged = s.staged ∧ t.captured = s.captured ∧ t.hostData = s.hostData ∧ t.feL = s.feL ∧ t.feH = s.feH ∧
    t.feI = s.feI ∧ t.grn = s.grn ∧ t.phy = s.phy ∧ t.ntb = s.ntb ∧ t.sch = s.sch ∧ t.hst = s.hst ∧ t.key = s.key ∧
    t.tim = s.tim ∧ t.eth = s.eth ∧ t.twn = s.twn ∧ t.tst = s.tst ∧ t.aon = s.aon ∧ t.otp = s.otp ∧ t.nvm = s.nvm ∧
    t.out = s.out ∧ t.pending = s.pending := by
  simp [State.deliver]

@[simp] theorem State.nodeAck_keeps (s : State) (u : UlItem) (h : BitVec 18) : let t := State.nodeAck s u h
    t.staged = s.staged ∧ t.captured = s.captured ∧ t.hostData = s.hostData ∧ t.feL = s.feL ∧ t.feH = s.feH ∧
    t.feI = s.feI ∧ t.grn = s.grn ∧ t.phy = s.phy ∧ t.key = s.key ∧ t.tim = s.tim ∧ t.eth = s.eth ∧ t.twn = s.twn ∧
    t.tst = s.tst ∧ t.aon = s.aon ∧ t.otp = s.otp ∧ t.nvm = s.nvm ∧ t.out = s.out ∧ t.pending = s.pending := by
  unfold State.nodeAck
  try dsimp only
  (repeat' split) <;> simp

@[simp] theorem State.contactFrame_keeps (s : State) (u : UlItem) (h : BitVec 18) : let t := State.contactFrame s u h
    t.staged = s.staged ∧ t.captured = s.captured ∧ t.hostData = s.hostData ∧ t.feL = s.feL ∧ t.feH = s.feH ∧
    t.feI = s.feI ∧ t.grn = s.grn ∧ t.phy = s.phy ∧ t.hst = s.hst ∧ t.key = s.key ∧ t.tim = s.tim ∧ t.eth = s.eth ∧
    t.twn = s.twn ∧ t.tst = s.tst ∧ t.aon = s.aon ∧ t.otp = s.otp ∧ t.nvm = s.nvm ∧ t.out = s.out ∧
    t.pending = s.pending := by
  unfold State.contactFrame
  try dsimp only
  (repeat' split) <;> simp

@[simp] theorem State.classifyHit_keeps (s : State) (u : UlItem) (c : EntryCopy) : let t := State.classifyHit s u c
    t.staged = s.staged ∧ t.captured = s.captured ∧ t.hostData = s.hostData ∧ t.grn = s.grn ∧ t.tim = s.tim ∧
    t.eth = s.eth ∧ t.twn = s.twn ∧ t.tst = s.tst ∧ t.aon = s.aon ∧ t.otp = s.otp ∧ t.nvm = s.nvm ∧ t.out = s.out ∧
    t.pending = s.pending := by
  unfold State.classifyHit
  try dsimp only
  (repeat' split) <;> simp

@[simp] theorem State.classifyMiss_keeps (s : State) (u : UlItem) : let t := State.classifyMiss s u
    t.staged = s.staged ∧ t.captured = s.captured ∧ t.hostData = s.hostData ∧ t.feL = s.feL ∧ t.feH = s.feH ∧
    t.feI = s.feI ∧ t.grn = s.grn ∧ t.phy = s.phy ∧ t.ntb = s.ntb ∧ t.hst = s.hst ∧ t.tim = s.tim ∧ t.eth = s.eth ∧
    t.twn = s.twn ∧ t.tst = s.tst ∧ t.aon = s.aon ∧ t.otp = s.otp ∧ t.nvm = s.nvm ∧ t.out = s.out ∧
    t.pending = s.pending := by
  simp [State.classifyMiss]

@[simp] theorem execUlClassify_keeps (s : State) : let t := Outcome.get (execUlClassify s) s
    t.staged = s.staged ∧ t.captured = s.captured ∧ t.hostData = s.hostData ∧ t.grn = s.grn ∧ t.tim = s.tim ∧
    t.eth = s.eth ∧ t.twn = s.twn ∧ t.tst = s.tst ∧ t.aon = s.aon ∧ t.otp = s.otp ∧ t.nvm = s.nvm ∧ t.out = s.out ∧
    t.pending = s.pending := by
  unfold execUlClassify
  try dsimp only
  (repeat' split) <;> simp

@[simp] theorem State.joinFail_keeps (s : State) : let t := State.joinFail s
    t.staged = s.staged ∧ t.captured = s.captured ∧ t.hostData = s.hostData ∧ t.feL = s.feL ∧ t.feH = s.feH ∧
    t.feI = s.feI ∧ t.grn = s.grn ∧ t.phy = s.phy ∧ t.ntb = s.ntb ∧ t.sch = s.sch ∧ t.car = s.car ∧ t.hst = s.hst ∧
    t.key = s.key ∧ t.tim = s.tim ∧ t.eth = s.eth ∧ t.twn = s.twn ∧ t.tst = s.tst ∧ t.aon = s.aon ∧ t.otp = s.otp ∧
    t.nvm = s.nvm ∧ t.free = s.free ∧ t.out = s.out ∧ t.pending = s.pending := by
  simp [State.joinFail]

@[simp] theorem State.joinPut_keeps (s : State) (u : UlItem) (j : List Byte) : let t := State.joinPut s u j
    t.staged = s.staged ∧ t.captured = s.captured ∧ t.hostData = s.hostData ∧ t.feL = s.feL ∧ t.feH = s.feH ∧
    t.feI = s.feI ∧ t.grn = s.grn ∧ t.sch = s.sch ∧ t.hst = s.hst ∧ t.key = s.key ∧ t.tim = s.tim ∧ t.eth = s.eth ∧
    t.twn = s.twn ∧ t.tst = s.tst ∧ t.aon = s.aon ∧ t.otp = s.otp ∧ t.nvm = s.nvm ∧ t.out = s.out ∧
    t.pending = s.pending := by
  unfold State.joinPut
  try dsimp only
  (repeat' split) <;> simp

@[simp] theorem execJoinInsert_keeps (s : State) : let t := Outcome.get (execJoinInsert s) s
    t.staged = s.staged ∧ t.captured = s.captured ∧ t.hostData = s.hostData ∧ t.feL = s.feL ∧ t.feH = s.feH ∧
    t.feI = s.feI ∧ t.grn = s.grn ∧ t.hst = s.hst ∧ t.key = s.key ∧ t.tim = s.tim ∧ t.eth = s.eth ∧ t.twn = s.twn ∧
    t.tst = s.tst ∧ t.aon = s.aon ∧ t.otp = s.otp ∧ t.nvm = s.nvm ∧ t.out = s.out ∧ t.pending = s.pending := by
  unfold execJoinInsert
  try dsimp only
  (repeat' split) <;> simp

@[simp] theorem execAckWindowClose_keeps (handle : BitVec 18) (s : State) : let t := Outcome.get (execAckWindowClose handle s) s
    t.staged = s.staged ∧ t.captured = s.captured ∧ t.hostData = s.hostData ∧ t.feL = s.feL ∧ t.feH = s.feH ∧
    t.feI = s.feI ∧ t.grn = s.grn ∧ t.phy = s.phy ∧ t.key = s.key ∧ t.tim = s.tim ∧ t.eth = s.eth ∧ t.twn = s.twn ∧
    t.tst = s.tst ∧ t.aon = s.aon ∧ t.otp = s.otp ∧ t.nvm = s.nvm ∧ t.out = s.out ∧ t.pending = s.pending := by
  unfold execAckWindowClose
  try dsimp only
  (repeat' split) <;> simp

@[simp] theorem State.trimBeacons_keeps (s : State) (n : Nat) : let t := State.trimBeacons s n
    t.staged = s.staged ∧ t.captured = s.captured ∧ t.hostData = s.hostData ∧ t.feL = s.feL ∧ t.feH = s.feH ∧
    t.feI = s.feI ∧ t.grn = s.grn ∧ t.phy = s.phy ∧ t.ntb = s.ntb ∧ t.sch = s.sch ∧ t.key = s.key ∧ t.tim = s.tim ∧
    t.eth = s.eth ∧ t.twn = s.twn ∧ t.tst = s.tst ∧ t.aon = s.aon ∧ t.otp = s.otp ∧ t.nvm = s.nvm ∧
    t.free = s.free ∧ t.out = s.out ∧ t.pending = s.pending := by
  induction n generalizing s with
  | zero => simp [State.trimBeacons]
  | succ n ih => simp only [State.trimBeacons]; (repeat' split) <;> simp [ih]

@[simp] theorem State.sendBeacon_keeps (s : State) (slot first : Nat) (start : Bool) : let t := State.sendBeacon s slot first start
    t.staged = s.staged ∧ t.captured = s.captured ∧ t.hostData = s.hostData ∧ t.feL = s.feL ∧ t.feH = s.feH ∧
    t.feI = s.feI ∧ t.grn = s.grn ∧ t.phy = s.phy ∧ t.ntb = s.ntb ∧ t.tim = s.tim ∧ t.eth = s.eth ∧ t.twn = s.twn ∧
    t.tst = s.tst ∧ t.aon = s.aon ∧ t.otp = s.otp ∧ t.nvm = s.nvm ∧ t.out = s.out ∧ t.pending = s.pending := by
  simp [State.sendBeacon]

@[simp] theorem execBeaconDispatch_keeps (slot : Fin 8) (s : State) : let t := Outcome.get (execBeaconDispatch slot s) s
    t.staged = s.staged ∧ t.captured = s.captured ∧ t.hostData = s.hostData ∧ t.feL = s.feL ∧ t.feH = s.feH ∧
    t.feI = s.feI ∧ t.grn = s.grn ∧ t.phy = s.phy ∧ t.ntb = s.ntb ∧ t.tim = s.tim ∧ t.eth = s.eth ∧ t.twn = s.twn ∧
    t.tst = s.tst ∧ t.aon = s.aon ∧ t.otp = s.otp ∧ t.nvm = s.nvm ∧ t.out = s.out ∧ t.pending = s.pending := by
  simp [execBeaconDispatch]

@[simp] theorem execMcBlockDispatch_keeps (sess : Fin 8) (s : State) : let t := Outcome.get (execMcBlockDispatch sess s) s
    t.staged = s.staged ∧ t.captured = s.captured ∧ t.hostData = s.hostData ∧ t.sys = s.sys ∧ t.irq = s.irq ∧
    t.feL = s.feL ∧ t.feH = s.feH ∧ t.feI = s.feI ∧ t.grn = s.grn ∧ t.phy = s.phy ∧ t.ntb = s.ntb ∧ t.hst = s.hst ∧
    t.tim = s.tim ∧ t.eth = s.eth ∧ t.twn = s.twn ∧ t.tst = s.tst ∧ t.aon = s.aon ∧ t.otp = s.otp ∧ t.nvm = s.nvm ∧
    t.free = s.free ∧ t.out = s.out ∧ t.pending = s.pending := by
  unfold execMcBlockDispatch
  try dsimp only
  (repeat' split) <;> simp

@[simp] theorem State.abortOne_keeps (s : State) (h : BitVec 18) (seq : BitVec 16) : let t := (State.abortOne s h seq).2
    t.staged = s.staged ∧ t.captured = s.captured ∧ t.hostData = s.hostData ∧ t.grn = s.grn ∧ t.tim = s.tim ∧
    t.eth = s.eth ∧ t.twn = s.twn ∧ t.tst = s.tst ∧ t.aon = s.aon ∧ t.otp = s.otp ∧ t.nvm = s.nvm ∧ t.out = s.out ∧
    t.pending = s.pending := by
  unfold State.abortOne
  try dsimp only
  (repeat' split) <;> simp

@[simp] theorem State.abortFrames_keeps (s : State) (h : BitVec 18) (seqs : List (BitVec 16)) : let t := (State.abortFrames s h seqs).2
    t.staged = s.staged ∧ t.captured = s.captured ∧ t.hostData = s.hostData ∧ t.grn = s.grn ∧ t.tim = s.tim ∧
    t.eth = s.eth ∧ t.twn = s.twn ∧ t.tst = s.tst ∧ t.aon = s.aon ∧ t.otp = s.otp ∧ t.nvm = s.nvm ∧ t.out = s.out ∧
    t.pending = s.pending := by
  simp [State.abortFrames]

@[simp] theorem State.abortTable_keeps (s : State) (seq : BitVec 16) : let t := (State.abortTable s seq).2
    t.staged = s.staged ∧ t.captured = s.captured ∧ t.hostData = s.hostData ∧ t.feL = s.feL ∧ t.feH = s.feH ∧
    t.feI = s.feI ∧ t.grn = s.grn ∧ t.phy = s.phy ∧ t.sch = s.sch ∧ t.car = s.car ∧ t.hst = s.hst ∧ t.key = s.key ∧
    t.tim = s.tim ∧ t.twn = s.twn ∧ t.tst = s.tst ∧ t.aon = s.aon ∧ t.otp = s.otp ∧ t.nvm = s.nvm ∧
    t.free = s.free ∧ t.pending = s.pending := by
  simp [State.abortTable]

@[simp] theorem State.abortRun_keeps (s : State) : let t := State.abortRun s
    t.staged = s.staged ∧ t.captured = s.captured ∧ t.hostData = s.hostData ∧ t.grn = s.grn ∧ t.tim = s.tim ∧
    t.twn = s.twn ∧ t.tst = s.tst ∧ t.aon = s.aon ∧ t.otp = s.otp ∧ t.nvm = s.nvm ∧ t.pending = s.pending := by
  unfold State.abortRun
  try dsimp only
  (repeat' split) <;> simp

@[simp] theorem State.abtCmd_keeps (s : State) (v : Nat) : let t := State.abtCmd s v
    t.staged = s.staged ∧ t.captured = s.captured ∧ t.hostData = s.hostData ∧ t.grn = s.grn ∧ t.tim = s.tim ∧
    t.twn = s.twn ∧ t.tst = s.tst ∧ t.aon = s.aon ∧ t.otp = s.otp ∧ t.nvm = s.nvm ∧ t.pending = s.pending := by
  simp [State.abtCmd]

@[simp] theorem execAbtFrame_keeps (s : State) : let t := Outcome.get (execAbtFrame s) s
    t.staged = s.staged ∧ t.captured = s.captured ∧ t.hostData = s.hostData ∧ t.grn = s.grn ∧ t.tim = s.tim ∧
    t.twn = s.twn ∧ t.tst = s.tst ∧ t.aon = s.aon ∧ t.otp = s.otp ∧ t.nvm = s.nvm ∧ t.pending = s.pending := by
  simp [execAbtFrame]

@[simp] theorem execAbtNode_keeps (s : State) : let t := Outcome.get (execAbtNode s) s
    t.staged = s.staged ∧ t.captured = s.captured ∧ t.hostData = s.hostData ∧ t.grn = s.grn ∧ t.tim = s.tim ∧
    t.twn = s.twn ∧ t.tst = s.tst ∧ t.aon = s.aon ∧ t.otp = s.otp ∧ t.nvm = s.nvm ∧ t.pending = s.pending := by
  simp [execAbtNode]

@[simp] theorem execAbtTable_keeps (s : State) : let t := Outcome.get (execAbtTable s) s
    t.staged = s.staged ∧ t.captured = s.captured ∧ t.hostData = s.hostData ∧ t.grn = s.grn ∧ t.tim = s.tim ∧
    t.twn = s.twn ∧ t.tst = s.tst ∧ t.aon = s.aon ∧ t.otp = s.otp ∧ t.nvm = s.nvm ∧ t.pending = s.pending := by
  simp [execAbtTable]

end Sys2Proof.Machine
end

