-- ==== Sys2Proof/Laws/KeepsKeys.lean ====
section
/-!
SUPPORT. What each operation of Machine/Keys.lean leaves as it was.
-/

namespace Sys2Proof.Machine

@[simp] theorem State.authFail_keeps (s : State) (u : UlItem) (f : Fld) : let t := State.authFail s u f
    t.staged = s.staged ∧ t.captured = s.captured ∧ t.hostData = s.hostData ∧ t.sys = s.sys ∧ t.irq = s.irq ∧
    t.grn = s.grn ∧ t.ntb = s.ntb ∧ t.car = s.car ∧ t.hst = s.hst ∧ t.tim = s.tim ∧ t.eth = s.eth ∧ t.twn = s.twn ∧
    t.tst = s.tst ∧ t.aon = s.aon ∧ t.otp = s.otp ∧ t.nvm = s.nvm ∧ t.free = s.free ∧ t.out = s.out ∧
    t.pending = s.pending := by
  simp [State.authFail]

@[simp] theorem execKeyUlCheck_keeps (s : State) : let t := Outcome.get (execKeyUlCheck s) s
    t.staged = s.staged ∧ t.captured = s.captured ∧ t.hostData = s.hostData ∧ t.sys = s.sys ∧ t.irq = s.irq ∧
    t.grn = s.grn ∧ t.ntb = s.ntb ∧ t.car = s.car ∧ t.hst = s.hst ∧ t.tim = s.tim ∧ t.eth = s.eth ∧ t.twn = s.twn ∧
    t.tst = s.tst ∧ t.aon = s.aon ∧ t.otp = s.otp ∧ t.nvm = s.nvm ∧ t.free = s.free ∧ t.out = s.out ∧
    t.pending = s.pending := by
  unfold execKeyUlCheck
  try dsimp only
  (repeat' split) <;> simp

@[simp] theorem State.reserve_keeps (s : State) (sgen : BitVec 16) (epoch : Byte) (block : Nat) : let t := State.reserve s sgen epoch block
    t.staged = s.staged ∧ t.captured = s.captured ∧ t.hostData = s.hostData ∧ t.sys = s.sys ∧ t.irq = s.irq ∧
    t.feL = s.feL ∧ t.feH = s.feH ∧ t.feI = s.feI ∧ t.grn = s.grn ∧ t.phy = s.phy ∧ t.ntb = s.ntb ∧ t.sch = s.sch ∧
    t.car = s.car ∧ t.hst = s.hst ∧ t.key = s.key ∧ t.tim = s.tim ∧ t.eth = s.eth ∧ t.twn = s.twn ∧ t.tst = s.tst ∧
    t.aon = s.aon ∧ t.otp = s.otp ∧ t.free = s.free ∧ t.out = s.out ∧ t.pending = s.pending := by
  simp [State.reserve]

@[simp] theorem State.takeFc_keeps (s : State) : let t := (State.takeFc s).2
    t.staged = s.staged ∧ t.captured = s.captured ∧ t.hostData = s.hostData ∧ t.feL = s.feL ∧ t.feH = s.feH ∧
    t.feI = s.feI ∧ t.grn = s.grn ∧ t.phy = s.phy ∧ t.ntb = s.ntb ∧ t.sch = s.sch ∧ t.car = s.car ∧ t.hst = s.hst ∧
    t.key = s.key ∧ t.tim = s.tim ∧ t.eth = s.eth ∧ t.twn = s.twn ∧ t.tst = s.tst ∧ t.aon = s.aon ∧ t.otp = s.otp ∧
    t.free = s.free ∧ t.out = s.out ∧ t.pending = s.pending := by
  simp [State.takeFc]

@[simp] theorem execKeySecure_keeps (s : State) : let t := Outcome.get (execKeySecure s) s
    t.staged = s.staged ∧ t.captured = s.captured ∧ t.hostData = s.hostData ∧ t.grn = s.grn ∧ t.tim = s.tim ∧
    t.eth = s.eth ∧ t.twn = s.twn ∧ t.tst = s.tst ∧ t.aon = s.aon ∧ t.otp = s.otp ∧ t.out = s.out ∧
    t.pending = s.pending := by
  unfold execKeySecure
  try dsimp only
  (repeat' split) <;> simp

@[simp] theorem State.writeStore_keeps (s : State) (k : Option Key) (st : KeyStore) : let t := State.writeStore s k st
    t.regs = s.regs ∧ t.staged = s.staged ∧ t.captured = s.captured ∧ t.hostData = s.hostData ∧ t.sys = s.sys ∧
    t.irq = s.irq ∧ t.feL = s.feL ∧ t.feH = s.feH ∧ t.feI = s.feI ∧ t.grn = s.grn ∧ t.phy = s.phy ∧ t.ntb = s.ntb ∧
    t.sch = s.sch ∧ t.car = s.car ∧ t.hst = s.hst ∧ t.tim = s.tim ∧ t.eth = s.eth ∧ t.twn = s.twn ∧ t.tst = s.tst ∧
    t.otp = s.otp ∧ t.free = s.free ∧ t.out = s.out ∧ t.pending = s.pending := by
  unfold State.writeStore
  try dsimp only
  (repeat' split) <;> simp

@[simp] theorem State.changeEpoch_keeps (s : State) (st : KeyStore) : let t := State.changeEpoch s st
    t.staged = s.staged ∧ t.captured = s.captured ∧ t.hostData = s.hostData ∧ t.sys = s.sys ∧ t.irq = s.irq ∧
    t.feL = s.feL ∧ t.feH = s.feH ∧ t.feI = s.feI ∧ t.grn = s.grn ∧ t.phy = s.phy ∧ t.ntb = s.ntb ∧ t.sch = s.sch ∧
    t.car = s.car ∧ t.hst = s.hst ∧ t.tim = s.tim ∧ t.eth = s.eth ∧ t.twn = s.twn ∧ t.tst = s.tst ∧ t.otp = s.otp ∧
    t.free = s.free ∧ t.out = s.out ∧ t.pending = s.pending := by
  simp [State.changeEpoch]

@[simp] theorem State.epochCmd_keeps (s : State) : let t := State.epochCmd s
    t.staged = s.staged ∧ t.captured = s.captured ∧ t.hostData = s.hostData ∧ t.sys = s.sys ∧ t.irq = s.irq ∧
    t.feL = s.feL ∧ t.feH = s.feH ∧ t.feI = s.feI ∧ t.grn = s.grn ∧ t.phy = s.phy ∧ t.ntb = s.ntb ∧ t.sch = s.sch ∧
    t.car = s.car ∧ t.hst = s.hst ∧ t.tim = s.tim ∧ t.eth = s.eth ∧ t.twn = s.twn ∧ t.tst = s.tst ∧ t.otp = s.otp ∧
    t.free = s.free ∧ t.out = s.out ∧ t.pending = s.pending := by
  simp [State.epochCmd]

@[simp] theorem execEpochCmd_keeps (s : State) : let t := Outcome.get (execEpochCmd s) s
    t.staged = s.staged ∧ t.captured = s.captured ∧ t.hostData = s.hostData ∧ t.irq = s.irq ∧ t.feL = s.feL ∧
    t.feH = s.feH ∧ t.feI = s.feI ∧ t.grn = s.grn ∧ t.phy = s.phy ∧ t.ntb = s.ntb ∧ t.sch = s.sch ∧ t.car = s.car ∧
    t.hst = s.hst ∧ t.tim = s.tim ∧ t.eth = s.eth ∧ t.twn = s.twn ∧ t.tst = s.tst ∧ t.otp = s.otp ∧
    t.free = s.free ∧ t.out = s.out ∧ t.pending = s.pending := by
  simp [execEpochCmd]

@[simp] theorem execEpochComplete_keeps (s : State) : let t := Outcome.get (execEpochComplete s) s
    t.staged = s.staged ∧ t.captured = s.captured ∧ t.hostData = s.hostData ∧ t.feL = s.feL ∧ t.feH = s.feH ∧
    t.feI = s.feI ∧ t.grn = s.grn ∧ t.phy = s.phy ∧ t.ntb = s.ntb ∧ t.sch = s.sch ∧ t.car = s.car ∧ t.hst = s.hst ∧
    t.tim = s.tim ∧ t.eth = s.eth ∧ t.twn = s.twn ∧ t.tst = s.tst ∧ t.aon = s.aon ∧ t.otp = s.otp ∧ t.nvm = s.nvm ∧
    t.free = s.free ∧ t.out = s.out ∧ t.pending = s.pending := by
  simp [execEpochComplete]

@[simp] theorem execGraceExpire_keeps (s : State) : let t := Outcome.get (execGraceExpire s) s
    t.regs = s.regs ∧ t.staged = s.staged ∧ t.captured = s.captured ∧ t.hostData = s.hostData ∧ t.sys = s.sys ∧
    t.irq = s.irq ∧ t.feL = s.feL ∧ t.feH = s.feH ∧ t.feI = s.feI ∧ t.grn = s.grn ∧ t.phy = s.phy ∧ t.ntb = s.ntb ∧
    t.sch = s.sch ∧ t.car = s.car ∧ t.hst = s.hst ∧ t.tim = s.tim ∧ t.eth = s.eth ∧ t.twn = s.twn ∧ t.tst = s.tst ∧
    t.aon = s.aon ∧ t.otp = s.otp ∧ t.nvm = s.nvm ∧ t.free = s.free ∧ t.out = s.out ∧ t.pending = s.pending := by
  simp [execGraceExpire]

@[simp] theorem State.zeroise_keeps (s : State) : let t := State.zeroise s
    t.staged = s.staged ∧ t.captured = s.captured ∧ t.hostData = s.hostData ∧ t.sys = s.sys ∧ t.irq = s.irq ∧
    t.feL = s.feL ∧ t.feH = s.feH ∧ t.feI = s.feI ∧ t.grn = s.grn ∧ t.phy = s.phy ∧ t.ntb = s.ntb ∧ t.sch = s.sch ∧
    t.car = s.car ∧ t.hst = s.hst ∧ t.tim = s.tim ∧ t.eth = s.eth ∧ t.twn = s.twn ∧ t.tst = s.tst ∧ t.otp = s.otp ∧
    t.nvm = s.nvm ∧ t.free = s.free ∧ t.out = s.out ∧ t.pending = s.pending := by
  simp [State.zeroise]

@[simp] theorem State.eraseCopies_keeps (s : State) : let t := State.eraseCopies s
    t.regs = s.regs ∧ t.staged = s.staged ∧ t.captured = s.captured ∧ t.hostData = s.hostData ∧ t.sys = s.sys ∧
    t.irq = s.irq ∧ t.feL = s.feL ∧ t.feH = s.feH ∧ t.feI = s.feI ∧ t.grn = s.grn ∧ t.phy = s.phy ∧ t.ntb = s.ntb ∧
    t.sch = s.sch ∧ t.car = s.car ∧ t.hst = s.hst ∧ t.key = s.key ∧ t.tim = s.tim ∧ t.eth = s.eth ∧ t.twn = s.twn ∧
    t.tst = s.tst ∧ t.aon = s.aon ∧ t.otp = s.otp ∧ t.free = s.free ∧ t.out = s.out ∧ t.pending = s.pending := by
  simp [State.eraseCopies]

@[simp] theorem State.blowLc_keeps (s : State) (bits : BitVec 5) : let t := State.blowLc s bits
    t.regs = s.regs ∧ t.staged = s.staged ∧ t.captured = s.captured ∧ t.hostData = s.hostData ∧ t.sys = s.sys ∧
    t.irq = s.irq ∧ t.feL = s.feL ∧ t.feH = s.feH ∧ t.feI = s.feI ∧ t.grn = s.grn ∧ t.phy = s.phy ∧ t.ntb = s.ntb ∧
    t.sch = s.sch ∧ t.car = s.car ∧ t.hst = s.hst ∧ t.key = s.key ∧ t.tim = s.tim ∧ t.eth = s.eth ∧ t.twn = s.twn ∧
    t.tst = s.tst ∧ t.aon = s.aon ∧ t.nvm = s.nvm ∧ t.free = s.free ∧ t.out = s.out ∧ t.pending = s.pending := by
  simp [State.blowLc]

@[simp] theorem State.transition_keeps (s : State) (bits : BitVec 5) : let t := State.transition s bits
    t.free = s.free ∧ t.out = s.out ∧ t.pending = s.pending := by
  simp [State.transition]

@[simp] theorem State.kuReply_keeps (s : State) (r : ReplyTo) (status reason : Byte) : let t := State.kuReply s r status reason
    t.staged = s.staged ∧ t.captured = s.captured ∧ t.hostData = s.hostData ∧ t.feL = s.feL ∧ t.feH = s.feH ∧
    t.feI = s.feI ∧ t.grn = s.grn ∧ t.phy = s.phy ∧ t.ntb = s.ntb ∧ t.sch = s.sch ∧ t.key = s.key ∧ t.tim = s.tim ∧
    t.twn = s.twn ∧ t.tst = s.tst ∧ t.aon = s.aon ∧ t.otp = s.otp ∧ t.nvm = s.nvm ∧ t.pending = s.pending := by
  unfold State.kuReply
  try dsimp only
  (repeat' split) <;> simp

@[simp] theorem State.kuRefuse_keeps (s : State) (r : ReplyTo) (reason : Byte) : let t := State.kuRefuse s r reason
    t.staged = s.staged ∧ t.captured = s.captured ∧ t.hostData = s.hostData ∧ t.feL = s.feL ∧ t.feH = s.feH ∧
    t.feI = s.feI ∧ t.grn = s.grn ∧ t.phy = s.phy ∧ t.ntb = s.ntb ∧ t.sch = s.sch ∧ t.key = s.key ∧ t.tim = s.tim ∧
    t.twn = s.twn ∧ t.tst = s.tst ∧ t.aon = s.aon ∧ t.otp = s.otp ∧ t.nvm = s.nvm ∧ t.pending = s.pending := by
  simp [State.kuRefuse]

@[simp] theorem State.kuPost_keeps (s : State) (r : ReplyTo) (m : KuMsg) : let t := State.kuPost s r m
    t.staged = s.staged ∧ t.captured = s.captured ∧ t.hostData = s.hostData ∧ t.feL = s.feL ∧ t.feH = s.feH ∧
    t.feI = s.feI ∧ t.grn = s.grn ∧ t.phy = s.phy ∧ t.ntb = s.ntb ∧ t.sch = s.sch ∧ t.tim = s.tim ∧ t.twn = s.twn ∧
    t.tst = s.tst ∧ t.aon = s.aon ∧ t.otp = s.otp ∧ t.nvm = s.nvm ∧ t.pending = s.pending := by
  simp [State.kuPost]

@[simp] theorem State.advanceKu_keeps (s : State) (ctr : Nat) : let t := State.advanceKu s ctr
    t.regs = s.regs ∧ t.staged = s.staged ∧ t.captured = s.captured ∧ t.hostData = s.hostData ∧ t.sys = s.sys ∧
    t.irq = s.irq ∧ t.feL = s.feL ∧ t.feH = s.feH ∧ t.feI = s.feI ∧ t.grn = s.grn ∧ t.phy = s.phy ∧ t.ntb = s.ntb ∧
    t.sch = s.sch ∧ t.car = s.car ∧ t.hst = s.hst ∧ t.key = s.key ∧ t.tim = s.tim ∧ t.eth = s.eth ∧ t.twn = s.twn ∧
    t.tst = s.tst ∧ t.aon = s.aon ∧ t.nvm = s.nvm ∧ t.free = s.free ∧ t.out = s.out ∧ t.pending = s.pending := by
  simp [State.advanceKu]

@[simp] theorem State.kuDone_keeps (s : State) (r : ReplyTo) : let t := State.kuDone s r
    t.staged = s.staged ∧ t.captured = s.captured ∧ t.hostData = s.hostData ∧ t.feL = s.feL ∧ t.feH = s.feH ∧
    t.feI = s.feI ∧ t.grn = s.grn ∧ t.phy = s.phy ∧ t.ntb = s.ntb ∧ t.sch = s.sch ∧ t.key = s.key ∧ t.tim = s.tim ∧
    t.twn = s.twn ∧ t.tst = s.tst ∧ t.otp = s.otp ∧ t.nvm = s.nvm ∧ t.pending = s.pending := by
  simp [State.kuDone]

@[simp] theorem State.applyDeploy_keeps (s : State) (r : ReplyTo) (m : KuMsg) : let t := State.applyDeploy s r m
    t.pending = s.pending := by
  simp [State.applyDeploy]

@[simp] theorem State.applyKeys_keeps (s : State) (r : ReplyTo) (m : KuMsg) : let t := State.applyKeys s r m
    t.staged = s.staged ∧ t.captured = s.captured ∧ t.hostData = s.hostData ∧ t.feL = s.feL ∧ t.feH = s.feH ∧
    t.feI = s.feI ∧ t.grn = s.grn ∧ t.phy = s.phy ∧ t.ntb = s.ntb ∧ t.sch = s.sch ∧ t.tim = s.tim ∧ t.twn = s.twn ∧
    t.tst = s.tst ∧ t.pending = s.pending := by
  simp [State.applyKeys]

@[simp] theorem State.applyMove_keeps (s : State) (r : ReplyTo) (m : KuMsg) (bits : BitVec 5) : let t := State.applyMove s r m bits
    t.pending = s.pending := by
  simp [State.applyMove]

@[simp] theorem State.kuRun_staged (s : State) (kind : Byte) (f : State → ReplyTo → KuMsg → State) (h : ∀ t r m, (f t r m).staged = t.staged) :
    (State.kuRun s kind f).staged = s.staged := by
  unfold State.kuRun
  try dsimp only
  (repeat' split) <;> simp [h]

@[simp] theorem State.kuRun_captured (s : State) (kind : Byte) (f : State → ReplyTo → KuMsg → State) (h : ∀ t r m, (f t r m).captured = t.captured) :
    (State.kuRun s kind f).captured = s.captured := by
  unfold State.kuRun
  try dsimp only
  (repeat' split) <;> simp [h]

@[simp] theorem State.kuRun_hostData (s : State) (kind : Byte) (f : State → ReplyTo → KuMsg → State) (h : ∀ t r m, (f t r m).hostData = t.hostData) :
    (State.kuRun s kind f).hostData = s.hostData := by
  unfold State.kuRun
  try dsimp only
  (repeat' split) <;> simp [h]

@[simp] theorem State.kuRun_feL (s : State) (kind : Byte) (f : State → ReplyTo → KuMsg → State) (h : ∀ t r m, (f t r m).feL = t.feL) :
    (State.kuRun s kind f).feL = s.feL := by
  unfold State.kuRun
  try dsimp only
  (repeat' split) <;> simp [h]

@[simp] theorem State.kuRun_feH (s : State) (kind : Byte) (f : State → ReplyTo → KuMsg → State) (h : ∀ t r m, (f t r m).feH = t.feH) :
    (State.kuRun s kind f).feH = s.feH := by
  unfold State.kuRun
  try dsimp only
  (repeat' split) <;> simp [h]

@[simp] theorem State.kuRun_feI (s : State) (kind : Byte) (f : State → ReplyTo → KuMsg → State) (h : ∀ t r m, (f t r m).feI = t.feI) :
    (State.kuRun s kind f).feI = s.feI := by
  unfold State.kuRun
  try dsimp only
  (repeat' split) <;> simp [h]

@[simp] theorem State.kuRun_grn (s : State) (kind : Byte) (f : State → ReplyTo → KuMsg → State) (h : ∀ t r m, (f t r m).grn = t.grn) :
    (State.kuRun s kind f).grn = s.grn := by
  unfold State.kuRun
  try dsimp only
  (repeat' split) <;> simp [h]

@[simp] theorem State.kuRun_phy (s : State) (kind : Byte) (f : State → ReplyTo → KuMsg → State) (h : ∀ t r m, (f t r m).phy = t.phy) :
    (State.kuRun s kind f).phy = s.phy := by
  unfold State.kuRun
  try dsimp only
  (repeat' split) <;> simp [h]

@[simp] theorem State.kuRun_ntb (s : State) (kind : Byte) (f : State → ReplyTo → KuMsg → State) (h : ∀ t r m, (f t r m).ntb = t.ntb) :
    (State.kuRun s kind f).ntb = s.ntb := by
  unfold State.kuRun
  try dsimp only
  (repeat' split) <;> simp [h]

@[simp] theorem State.kuRun_sch (s : State) (kind : Byte) (f : State → ReplyTo → KuMsg → State) (h : ∀ t r m, (f t r m).sch = t.sch) :
    (State.kuRun s kind f).sch = s.sch := by
  unfold State.kuRun
  try dsimp only
  (repeat' split) <;> simp [h]

@[simp] theorem State.kuRun_tim (s : State) (kind : Byte) (f : State → ReplyTo → KuMsg → State) (h : ∀ t r m, (f t r m).tim = t.tim) :
    (State.kuRun s kind f).tim = s.tim := by
  unfold State.kuRun
  try dsimp only
  (repeat' split) <;> simp [h]

@[simp] theorem State.kuRun_twn (s : State) (kind : Byte) (f : State → ReplyTo → KuMsg → State) (h : ∀ t r m, (f t r m).twn = t.twn) :
    (State.kuRun s kind f).twn = s.twn := by
  unfold State.kuRun
  try dsimp only
  (repeat' split) <;> simp [h]

@[simp] theorem State.kuRun_tst (s : State) (kind : Byte) (f : State → ReplyTo → KuMsg → State) (h : ∀ t r m, (f t r m).tst = t.tst) :
    (State.kuRun s kind f).tst = s.tst := by
  unfold State.kuRun
  try dsimp only
  (repeat' split) <;> simp [h]

@[simp] theorem State.kuRun_aon (s : State) (kind : Byte) (f : State → ReplyTo → KuMsg → State) (h : ∀ t r m, (f t r m).aon = t.aon) :
    (State.kuRun s kind f).aon = s.aon := by
  unfold State.kuRun
  try dsimp only
  (repeat' split) <;> simp [h]

@[simp] theorem State.kuRun_otp (s : State) (kind : Byte) (f : State → ReplyTo → KuMsg → State) (h : ∀ t r m, (f t r m).otp = t.otp) :
    (State.kuRun s kind f).otp = s.otp := by
  unfold State.kuRun
  try dsimp only
  (repeat' split) <;> simp [h]

@[simp] theorem State.kuRun_nvm (s : State) (kind : Byte) (f : State → ReplyTo → KuMsg → State) (h : ∀ t r m, (f t r m).nvm = t.nvm) :
    (State.kuRun s kind f).nvm = s.nvm := by
  unfold State.kuRun
  try dsimp only
  (repeat' split) <;> simp [h]

@[simp] theorem State.kuRun_pending (s : State) (kind : Byte) (f : State → ReplyTo → KuMsg → State) (h : ∀ t r m, (f t r m).pending = t.pending) :
    (State.kuRun s kind f).pending = s.pending := by
  unfold State.kuRun
  try dsimp only
  (repeat' split) <;> simp [h]

@[simp] theorem execKuDeploy_keeps (s : State) : let t := Outcome.get (execKuDeploy s) s
    t.pending = s.pending := by
  simp [execKuDeploy]

@[simp] theorem execKuKeys_keeps (s : State) : let t := Outcome.get (execKuKeys s) s
    t.staged = s.staged ∧ t.captured = s.captured ∧ t.hostData = s.hostData ∧ t.feL = s.feL ∧ t.feH = s.feH ∧
    t.feI = s.feI ∧ t.grn = s.grn ∧ t.phy = s.phy ∧ t.ntb = s.ntb ∧ t.sch = s.sch ∧ t.tim = s.tim ∧ t.twn = s.twn ∧
    t.tst = s.tst ∧ t.pending = s.pending := by
  simp [execKuKeys]

@[simp] theorem execKuRmaAuth_keeps (s : State) : let t := Outcome.get (execKuRmaAuth s) s
    t.pending = s.pending := by
  simp [execKuRmaAuth]

@[simp] theorem execKuScrap_keeps (s : State) : let t := Outcome.get (execKuScrap s) s
    t.pending = s.pending := by
  simp [execKuScrap]

end Sys2Proof.Machine
end

