-- ==== Sys2Proof/Laws/KeepsSessions.lean ====
section
/-!
SUPPORT. What each operation of Machine/Sessions.lean leaves as it was.
-/

namespace Sys2Proof.Machine

@[simp] theorem State.setStg_keeps (s : State) (v : BitVec 8) : let t := State.setStg s v
    t.regs = s.regs ∧ t.staged = s.staged ∧ t.captured = s.captured ∧ t.hostData = s.hostData ∧ t.sys = s.sys ∧
    t.irq = s.irq ∧ t.feL = s.feL ∧ t.feH = s.feH ∧ t.feI = s.feI ∧ t.grn = s.grn ∧ t.phy = s.phy ∧ t.ntb = s.ntb ∧
    t.sch = s.sch ∧ t.car = s.car ∧ t.hst = s.hst ∧ t.key = s.key ∧ t.tim = s.tim ∧ t.eth = s.eth ∧ t.twn = s.twn ∧
    t.tst = s.tst ∧ t.aon = s.aon ∧ t.otp = s.otp ∧ t.free = s.free ∧ t.out = s.out ∧ t.pending = s.pending := by
  simp [State.setStg]

@[simp] theorem State.respond_keeps (s : State) (r : ReplyTo) (bytes : List Byte) : let t := State.respond s r bytes
    t.staged = s.staged ∧ t.captured = s.captured ∧ t.hostData = s.hostData ∧ t.feL = s.feL ∧ t.feH = s.feH ∧
    t.feI = s.feI ∧ t.grn = s.grn ∧ t.phy = s.phy ∧ t.ntb = s.ntb ∧ t.sch = s.sch ∧ t.key = s.key ∧ t.tim = s.tim ∧
    t.twn = s.twn ∧ t.tst = s.tst ∧ t.aon = s.aon ∧ t.otp = s.otp ∧ t.nvm = s.nvm ∧ t.pending = s.pending := by
  unfold State.respond
  try dsimp only
  (repeat' split) <;> simp

@[simp] theorem State.answer_keeps (s : State) (r : ReplyTo) (rec : SessRec) (status reason owner : Byte) (value : Nat) : let t := State.answer s r rec status reason owner value
    t.staged = s.staged ∧ t.captured = s.captured ∧ t.hostData = s.hostData ∧ t.feL = s.feL ∧ t.feH = s.feH ∧
    t.feI = s.feI ∧ t.grn = s.grn ∧ t.phy = s.phy ∧ t.ntb = s.ntb ∧ t.sch = s.sch ∧ t.key = s.key ∧ t.tim = s.tim ∧
    t.twn = s.twn ∧ t.tst = s.tst ∧ t.aon = s.aon ∧ t.otp = s.otp ∧ t.nvm = s.nvm ∧ t.pending = s.pending := by
  unfold State.answer
  try dsimp only
  (repeat' split) <;> simp

@[simp] theorem State.sessRefuse_keeps (s : State) (r : ReplyTo) (rec : SessRec) (reason : Byte) : let t := State.sessRefuse s r rec reason
    t.staged = s.staged ∧ t.captured = s.captured ∧ t.hostData = s.hostData ∧ t.feL = s.feL ∧ t.feH = s.feH ∧
    t.feI = s.feI ∧ t.grn = s.grn ∧ t.phy = s.phy ∧ t.ntb = s.ntb ∧ t.sch = s.sch ∧ t.key = s.key ∧ t.tim = s.tim ∧
    t.twn = s.twn ∧ t.tst = s.tst ∧ t.aon = s.aon ∧ t.otp = s.otp ∧ t.nvm = s.nvm ∧ t.pending = s.pending := by
  simp [State.sessRefuse]

@[simp] theorem State.sessDrain_keeps (s : State) (n : Nat) : let t := State.sessDrain s n
    t.staged = s.staged ∧ t.captured = s.captured ∧ t.hostData = s.hostData ∧ t.feL = s.feL ∧ t.feH = s.feH ∧
    t.feI = s.feI ∧ t.grn = s.grn ∧ t.phy = s.phy ∧ t.ntb = s.ntb ∧ t.sch = s.sch ∧ t.key = s.key ∧ t.tim = s.tim ∧
    t.twn = s.twn ∧ t.tst = s.tst ∧ t.aon = s.aon ∧ t.otp = s.otp ∧ t.nvm = s.nvm ∧ t.pending = s.pending := by
  induction n generalizing s with
  | zero => simp [State.sessDrain]
  | succ n ih => simp only [State.sessDrain]; (repeat' split) <;> simp [ih]

@[simp] theorem State.sessPost_keeps (s : State) (r : ReplyTo) (rec : SessRec) : let t := State.sessPost s r rec
    t.staged = s.staged ∧ t.captured = s.captured ∧ t.hostData = s.hostData ∧ t.feL = s.feL ∧ t.feH = s.feH ∧
    t.feI = s.feI ∧ t.grn = s.grn ∧ t.phy = s.phy ∧ t.ntb = s.ntb ∧ t.sch = s.sch ∧ t.key = s.key ∧ t.tim = s.tim ∧
    t.twn = s.twn ∧ t.tst = s.tst ∧ t.aon = s.aon ∧ t.otp = s.otp ∧ t.nvm = s.nvm ∧ t.pending = s.pending := by
  simp [State.sessPost]

@[simp] theorem State.sessRun_staged (s : State) (op : Byte) (f : State → ReplyTo → SessRec → State) (h : ∀ t r m, (f t r m).staged = t.staged) :
    (State.sessRun s op f).staged = s.staged := by
  unfold State.sessRun
  try dsimp only
  (repeat' split) <;> simp [h]

@[simp] theorem State.sessRun_captured (s : State) (op : Byte) (f : State → ReplyTo → SessRec → State) (h : ∀ t r m, (f t r m).captured = t.captured) :
    (State.sessRun s op f).captured = s.captured := by
  unfold State.sessRun
  try dsimp only
  (repeat' split) <;> simp [h]

@[simp] theorem State.sessRun_hostData (s : State) (op : Byte) (f : State → ReplyTo → SessRec → State) (h : ∀ t r m, (f t r m).hostData = t.hostData) :
    (State.sessRun s op f).hostData = s.hostData := by
  unfold State.sessRun
  try dsimp only
  (repeat' split) <;> simp [h]

@[simp] theorem State.sessRun_feL (s : State) (op : Byte) (f : State → ReplyTo → SessRec → State) (h : ∀ t r m, (f t r m).feL = t.feL) :
    (State.sessRun s op f).feL = s.feL := by
  unfold State.sessRun
  try dsimp only
  (repeat' split) <;> simp [h]

@[simp] theorem State.sessRun_feH (s : State) (op : Byte) (f : State → ReplyTo → SessRec → State) (h : ∀ t r m, (f t r m).feH = t.feH) :
    (State.sessRun s op f).feH = s.feH := by
  unfold State.sessRun
  try dsimp only
  (repeat' split) <;> simp [h]

@[simp] theorem State.sessRun_feI (s : State) (op : Byte) (f : State → ReplyTo → SessRec → State) (h : ∀ t r m, (f t r m).feI = t.feI) :
    (State.sessRun s op f).feI = s.feI := by
  unfold State.sessRun
  try dsimp only
  (repeat' split) <;> simp [h]

@[simp] theorem State.sessRun_grn (s : State) (op : Byte) (f : State → ReplyTo → SessRec → State) (h : ∀ t r m, (f t r m).grn = t.grn) :
    (State.sessRun s op f).grn = s.grn := by
  unfold State.sessRun
  try dsimp only
  (repeat' split) <;> simp [h]

@[simp] theorem State.sessRun_phy (s : State) (op : Byte) (f : State → ReplyTo → SessRec → State) (h : ∀ t r m, (f t r m).phy = t.phy) :
    (State.sessRun s op f).phy = s.phy := by
  unfold State.sessRun
  try dsimp only
  (repeat' split) <;> simp [h]

@[simp] theorem State.sessRun_ntb (s : State) (op : Byte) (f : State → ReplyTo → SessRec → State) (h : ∀ t r m, (f t r m).ntb = t.ntb) :
    (State.sessRun s op f).ntb = s.ntb := by
  unfold State.sessRun
  try dsimp only
  (repeat' split) <;> simp [h]

@[simp] theorem State.sessRun_sch (s : State) (op : Byte) (f : State → ReplyTo → SessRec → State) (h : ∀ t r m, (f t r m).sch = t.sch) :
    (State.sessRun s op f).sch = s.sch := by
  unfold State.sessRun
  try dsimp only
  (repeat' split) <;> simp [h]

@[simp] theorem State.sessRun_key (s : State) (op : Byte) (f : State → ReplyTo → SessRec → State) (h : ∀ t r m, (f t r m).key = t.key) :
    (State.sessRun s op f).key = s.key := by
  unfold State.sessRun
  try dsimp only
  (repeat' split) <;> simp [h]

@[simp] theorem State.sessRun_tim (s : State) (op : Byte) (f : State → ReplyTo → SessRec → State) (h : ∀ t r m, (f t r m).tim = t.tim) :
    (State.sessRun s op f).tim = s.tim := by
  unfold State.sessRun
  try dsimp only
  (repeat' split) <;> simp [h]

@[simp] theorem State.sessRun_twn (s : State) (op : Byte) (f : State → ReplyTo → SessRec → State) (h : ∀ t r m, (f t r m).twn = t.twn) :
    (State.sessRun s op f).twn = s.twn := by
  unfold State.sessRun
  try dsimp only
  (repeat' split) <;> simp [h]

@[simp] theorem State.sessRun_tst (s : State) (op : Byte) (f : State → ReplyTo → SessRec → State) (h : ∀ t r m, (f t r m).tst = t.tst) :
    (State.sessRun s op f).tst = s.tst := by
  unfold State.sessRun
  try dsimp only
  (repeat' split) <;> simp [h]

@[simp] theorem State.sessRun_aon (s : State) (op : Byte) (f : State → ReplyTo → SessRec → State) (h : ∀ t r m, (f t r m).aon = t.aon) :
    (State.sessRun s op f).aon = s.aon := by
  unfold State.sessRun
  try dsimp only
  (repeat' split) <;> simp [h]

@[simp] theorem State.sessRun_otp (s : State) (op : Byte) (f : State → ReplyTo → SessRec → State) (h : ∀ t r m, (f t r m).otp = t.otp) :
    (State.sessRun s op f).otp = s.otp := by
  unfold State.sessRun
  try dsimp only
  (repeat' split) <;> simp [h]

@[simp] theorem State.sessRun_nvm (s : State) (op : Byte) (f : State → ReplyTo → SessRec → State) (h : ∀ t r m, (f t r m).nvm = t.nvm) :
    (State.sessRun s op f).nvm = s.nvm := by
  unfold State.sessRun
  try dsimp only
  (repeat' split) <;> simp [h]

@[simp] theorem State.sessRun_pending (s : State) (op : Byte) (f : State → ReplyTo → SessRec → State) (h : ∀ t r m, (f t r m).pending = t.pending) :
    (State.sessRun s op f).pending = s.pending := by
  unfold State.sessRun
  try dsimp only
  (repeat' split) <;> simp [h]

@[simp] theorem State.endSess_keeps (s : State) (x : Sess) (completed : Bool) : let t := State.endSess s x completed
    t.staged = s.staged ∧ t.captured = s.captured ∧ t.hostData = s.hostData ∧ t.feL = s.feL ∧ t.feH = s.feH ∧
    t.feI = s.feI ∧ t.grn = s.grn ∧ t.phy = s.phy ∧ t.ntb = s.ntb ∧ t.sch = s.sch ∧ t.car = s.car ∧ t.hst = s.hst ∧
    t.key = s.key ∧ t.tim = s.tim ∧ t.eth = s.eth ∧ t.twn = s.twn ∧ t.tst = s.tst ∧ t.aon = s.aon ∧ t.otp = s.otp ∧
    t.nvm = s.nvm ∧ t.free = s.free ∧ t.out = s.out ∧ t.pending = s.pending := by
  simp [State.endSess]

@[simp] theorem State.openHeader_keeps (s : State) : let t := State.openHeader s
    t.regs = s.regs ∧ t.staged = s.staged ∧ t.captured = s.captured ∧ t.hostData = s.hostData ∧ t.sys = s.sys ∧
    t.irq = s.irq ∧ t.feL = s.feL ∧ t.feH = s.feH ∧ t.feI = s.feI ∧ t.grn = s.grn ∧ t.phy = s.phy ∧ t.ntb = s.ntb ∧
    t.sch = s.sch ∧ t.car = s.car ∧ t.hst = s.hst ∧ t.key = s.key ∧ t.tim = s.tim ∧ t.eth = s.eth ∧ t.twn = s.twn ∧
    t.tst = s.tst ∧ t.aon = s.aon ∧ t.otp = s.otp ∧ t.free = s.free ∧ t.out = s.out ∧ t.pending = s.pending := by
  simp [State.openHeader]

@[simp] theorem State.sessOpen_keeps (s : State) (r : ReplyTo) (rec : SessRec) : let t := State.sessOpen s r rec
    t.staged = s.staged ∧ t.captured = s.captured ∧ t.hostData = s.hostData ∧ t.feL = s.feL ∧ t.feH = s.feH ∧
    t.feI = s.feI ∧ t.grn = s.grn ∧ t.phy = s.phy ∧ t.ntb = s.ntb ∧ t.sch = s.sch ∧ t.key = s.key ∧ t.tim = s.tim ∧
    t.twn = s.twn ∧ t.tst = s.tst ∧ t.aon = s.aon ∧ t.otp = s.otp ∧ t.pending = s.pending := by
  unfold State.sessOpen
  try dsimp only
  (repeat' split) <;> simp

@[simp] theorem State.sessData_keeps (s : State) (readBackOk : Bool) (r : ReplyTo) (rec : SessRec) : let t := State.sessData s readBackOk r rec
    t.staged = s.staged ∧ t.captured = s.captured ∧ t.hostData = s.hostData ∧ t.feL = s.feL ∧ t.feH = s.feH ∧
    t.feI = s.feI ∧ t.grn = s.grn ∧ t.phy = s.phy ∧ t.ntb = s.ntb ∧ t.sch = s.sch ∧ t.key = s.key ∧ t.tim = s.tim ∧
    t.twn = s.twn ∧ t.tst = s.tst ∧ t.aon = s.aon ∧ t.otp = s.otp ∧ t.pending = s.pending := by
  unfold State.sessData
  try dsimp only
  (repeat' split) <;> simp

@[simp] theorem State.sessCommit_keeps (s : State) (r : ReplyTo) (rec : SessRec) : let t := State.sessCommit s r rec
    t.staged = s.staged ∧ t.captured = s.captured ∧ t.hostData = s.hostData ∧ t.feL = s.feL ∧ t.feH = s.feH ∧
    t.feI = s.feI ∧ t.grn = s.grn ∧ t.phy = s.phy ∧ t.ntb = s.ntb ∧ t.sch = s.sch ∧ t.key = s.key ∧ t.tim = s.tim ∧
    t.twn = s.twn ∧ t.tst = s.tst ∧ t.aon = s.aon ∧ t.otp = s.otp ∧ t.pending = s.pending := by
  unfold State.sessCommit
  try dsimp only
  (repeat' split) <;> simp

@[simp] theorem State.sessAbort_keeps (s : State) (r : ReplyTo) (rec : SessRec) : let t := State.sessAbort s r rec
    t.staged = s.staged ∧ t.captured = s.captured ∧ t.hostData = s.hostData ∧ t.feL = s.feL ∧ t.feH = s.feH ∧
    t.feI = s.feI ∧ t.grn = s.grn ∧ t.phy = s.phy ∧ t.ntb = s.ntb ∧ t.sch = s.sch ∧ t.key = s.key ∧ t.tim = s.tim ∧
    t.twn = s.twn ∧ t.tst = s.tst ∧ t.aon = s.aon ∧ t.otp = s.otp ∧ t.nvm = s.nvm ∧ t.pending = s.pending := by
  unfold State.sessAbort
  try dsimp only
  (repeat' split) <;> simp

@[simp] theorem execSessionOpen_keeps (s : State) : let t := Outcome.get (execSessionOpen s) s
    t.staged = s.staged ∧ t.captured = s.captured ∧ t.hostData = s.hostData ∧ t.feL = s.feL ∧ t.feH = s.feH ∧
    t.feI = s.feI ∧ t.grn = s.grn ∧ t.phy = s.phy ∧ t.ntb = s.ntb ∧ t.sch = s.sch ∧ t.key = s.key ∧ t.tim = s.tim ∧
    t.twn = s.twn ∧ t.tst = s.tst ∧ t.aon = s.aon ∧ t.otp = s.otp ∧ t.pending = s.pending := by
  simp [execSessionOpen]

@[simp] theorem execSessionData_keeps (readBackOk : Bool) (s : State) : let t := Outcome.get (execSessionData readBackOk s) s
    t.staged = s.staged ∧ t.captured = s.captured ∧ t.hostData = s.hostData ∧ t.feL = s.feL ∧ t.feH = s.feH ∧
    t.feI = s.feI ∧ t.grn = s.grn ∧ t.phy = s.phy ∧ t.ntb = s.ntb ∧ t.sch = s.sch ∧ t.key = s.key ∧ t.tim = s.tim ∧
    t.twn = s.twn ∧ t.tst = s.tst ∧ t.aon = s.aon ∧ t.otp = s.otp ∧ t.pending = s.pending := by
  simp [execSessionData]

@[simp] theorem execSessionCommit_keeps (s : State) : let t := Outcome.get (execSessionCommit s) s
    t.staged = s.staged ∧ t.captured = s.captured ∧ t.hostData = s.hostData ∧ t.feL = s.feL ∧ t.feH = s.feH ∧
    t.feI = s.feI ∧ t.grn = s.grn ∧ t.phy = s.phy ∧ t.ntb = s.ntb ∧ t.sch = s.sch ∧ t.key = s.key ∧ t.tim = s.tim ∧
    t.twn = s.twn ∧ t.tst = s.tst ∧ t.aon = s.aon ∧ t.otp = s.otp ∧ t.pending = s.pending := by
  simp [execSessionCommit]

@[simp] theorem execSessionAbort_keeps (s : State) : let t := Outcome.get (execSessionAbort s) s
    t.staged = s.staged ∧ t.captured = s.captured ∧ t.hostData = s.hostData ∧ t.feL = s.feL ∧ t.feH = s.feH ∧
    t.feI = s.feI ∧ t.grn = s.grn ∧ t.phy = s.phy ∧ t.ntb = s.ntb ∧ t.sch = s.sch ∧ t.key = s.key ∧ t.tim = s.tim ∧
    t.twn = s.twn ∧ t.tst = s.tst ∧ t.aon = s.aon ∧ t.otp = s.otp ∧ t.nvm = s.nvm ∧ t.pending = s.pending := by
  simp [execSessionAbort]

@[simp] theorem execSessionIdleExpire_keeps (s : State) : let t := Outcome.get (execSessionIdleExpire s) s
    t.staged = s.staged ∧ t.captured = s.captured ∧ t.hostData = s.hostData ∧ t.feL = s.feL ∧ t.feH = s.feH ∧
    t.feI = s.feI ∧ t.grn = s.grn ∧ t.phy = s.phy ∧ t.ntb = s.ntb ∧ t.sch = s.sch ∧ t.car = s.car ∧ t.hst = s.hst ∧
    t.key = s.key ∧ t.tim = s.tim ∧ t.eth = s.eth ∧ t.twn = s.twn ∧ t.tst = s.tst ∧ t.aon = s.aon ∧ t.otp = s.otp ∧
    t.nvm = s.nvm ∧ t.free = s.free ∧ t.out = s.out ∧ t.pending = s.pending := by
  unfold execSessionIdleExpire
  try dsimp only
  (repeat' split) <;> simp

@[simp] theorem State.updKill_keeps (s : State) : let t := State.updKill s
    t.staged = s.staged ∧ t.captured = s.captured ∧ t.hostData = s.hostData ∧ t.feL = s.feL ∧ t.feH = s.feH ∧
    t.feI = s.feI ∧ t.grn = s.grn ∧ t.phy = s.phy ∧ t.ntb = s.ntb ∧ t.sch = s.sch ∧ t.car = s.car ∧ t.hst = s.hst ∧
    t.key = s.key ∧ t.tim = s.tim ∧ t.eth = s.eth ∧ t.twn = s.twn ∧ t.tst = s.tst ∧ t.aon = s.aon ∧ t.otp = s.otp ∧
    t.nvm = s.nvm ∧ t.free = s.free ∧ t.out = s.out ∧ t.pending = s.pending := by
  unfold State.updKill
  try dsimp only
  (repeat' split) <;> simp

@[simp] theorem execUpdKill_keeps (s : State) : let t := Outcome.get (execUpdKill s) s
    t.staged = s.staged ∧ t.captured = s.captured ∧ t.hostData = s.hostData ∧ t.feL = s.feL ∧ t.feH = s.feH ∧
    t.feI = s.feI ∧ t.grn = s.grn ∧ t.phy = s.phy ∧ t.ntb = s.ntb ∧ t.sch = s.sch ∧ t.car = s.car ∧ t.hst = s.hst ∧
    t.key = s.key ∧ t.tim = s.tim ∧ t.eth = s.eth ∧ t.twn = s.twn ∧ t.tst = s.tst ∧ t.aon = s.aon ∧ t.otp = s.otp ∧
    t.nvm = s.nvm ∧ t.free = s.free ∧ t.out = s.out ∧ t.pending = s.pending := by
  simp [execUpdKill]

@[simp] theorem State.attFail_keeps (s : State) (r : ReplyTo) (stat : Nat) (status reason : Byte) : let t := State.attFail s r stat status reason
    t.staged = s.staged ∧ t.captured = s.captured ∧ t.hostData = s.hostData ∧ t.feL = s.feL ∧ t.feH = s.feH ∧
    t.feI = s.feI ∧ t.grn = s.grn ∧ t.phy = s.phy ∧ t.ntb = s.ntb ∧ t.sch = s.sch ∧ t.key = s.key ∧ t.tim = s.tim ∧
    t.twn = s.twn ∧ t.tst = s.tst ∧ t.aon = s.aon ∧ t.otp = s.otp ∧ t.nvm = s.nvm ∧ t.pending = s.pending := by
  simp [State.attFail]

@[simp] theorem State.takeLeaf_keeps (s : State) : let t := (State.takeLeaf s).2
    t.staged = s.staged ∧ t.captured = s.captured ∧ t.hostData = s.hostData ∧ t.feL = s.feL ∧ t.feH = s.feH ∧
    t.feI = s.feI ∧ t.grn = s.grn ∧ t.phy = s.phy ∧ t.ntb = s.ntb ∧ t.sch = s.sch ∧ t.car = s.car ∧ t.hst = s.hst ∧
    t.key = s.key ∧ t.tim = s.tim ∧ t.eth = s.eth ∧ t.twn = s.twn ∧ t.tst = s.tst ∧ t.aon = s.aon ∧
    t.free = s.free ∧ t.out = s.out ∧ t.pending = s.pending := by
  simp [State.takeLeaf]

@[simp] theorem State.attStart_keeps (s : State) (r : ReplyTo) (rec : SessRec) : let t := State.attStart s r rec
    t.staged = s.staged ∧ t.captured = s.captured ∧ t.hostData = s.hostData ∧ t.feL = s.feL ∧ t.feH = s.feH ∧
    t.feI = s.feI ∧ t.grn = s.grn ∧ t.phy = s.phy ∧ t.ntb = s.ntb ∧ t.sch = s.sch ∧ t.tim = s.tim ∧ t.twn = s.twn ∧
    t.tst = s.tst ∧ t.aon = s.aon ∧ t.pending = s.pending := by
  unfold State.attStart
  try dsimp only
  (repeat' split) <;> simp

@[simp] theorem execAttest_keeps (s : State) : let t := Outcome.get (execAttest s) s
    t.staged = s.staged ∧ t.captured = s.captured ∧ t.hostData = s.hostData ∧ t.feL = s.feL ∧ t.feH = s.feH ∧
    t.feI = s.feI ∧ t.grn = s.grn ∧ t.phy = s.phy ∧ t.ntb = s.ntb ∧ t.sch = s.sch ∧ t.tim = s.tim ∧ t.twn = s.twn ∧
    t.tst = s.tst ∧ t.aon = s.aon ∧ t.pending = s.pending := by
  simp [execAttest]

@[simp] theorem execAttSignDone_keeps (s : State) : let t := Outcome.get (execAttSignDone s) s
    t.staged = s.staged ∧ t.captured = s.captured ∧ t.hostData = s.hostData ∧ t.feL = s.feL ∧ t.feH = s.feH ∧
    t.feI = s.feI ∧ t.grn = s.grn ∧ t.phy = s.phy ∧ t.ntb = s.ntb ∧ t.sch = s.sch ∧ t.tim = s.tim ∧ t.twn = s.twn ∧
    t.tst = s.tst ∧ t.aon = s.aon ∧ t.otp = s.otp ∧ t.nvm = s.nvm ∧ t.pending = s.pending := by
  unfold execAttSignDone
  try dsimp only
  (repeat' split) <;> simp

@[simp] theorem execAttTokenTick_keeps (s : State) : let t := Outcome.get (execAttTokenTick s) s
    t.staged = s.staged ∧ t.captured = s.captured ∧ t.hostData = s.hostData ∧ t.sys = s.sys ∧ t.irq = s.irq ∧
    t.feL = s.feL ∧ t.feH = s.feH ∧ t.feI = s.feI ∧ t.grn = s.grn ∧ t.phy = s.phy ∧ t.ntb = s.ntb ∧ t.sch = s.sch ∧
    t.car = s.car ∧ t.hst = s.hst ∧ t.key = s.key ∧ t.tim = s.tim ∧ t.eth = s.eth ∧ t.twn = s.twn ∧ t.tst = s.tst ∧
    t.aon = s.aon ∧ t.otp = s.otp ∧ t.nvm = s.nvm ∧ t.free = s.free ∧ t.out = s.out ∧ t.pending = s.pending := by
  simp [execAttTokenTick]

@[simp] theorem execAttKeygen_keeps (s : State) : let t := Outcome.get (execAttKeygen s) s
    t.regs = s.regs ∧ t.staged = s.staged ∧ t.captured = s.captured ∧ t.hostData = s.hostData ∧ t.sys = s.sys ∧
    t.irq = s.irq ∧ t.feL = s.feL ∧ t.feH = s.feH ∧ t.feI = s.feI ∧ t.grn = s.grn ∧ t.phy = s.phy ∧ t.ntb = s.ntb ∧
    t.sch = s.sch ∧ t.car = s.car ∧ t.hst = s.hst ∧ t.tim = s.tim ∧ t.eth = s.eth ∧ t.twn = s.twn ∧ t.tst = s.tst ∧
    t.aon = s.aon ∧ t.out = s.out ∧ t.pending = s.pending := by
  unfold execAttKeygen
  try dsimp only
  (repeat' split) <;> simp

@[simp] theorem execAttCacheRebuildDone_keeps (s : State) : let t := Outcome.get (execAttCacheRebuildDone s) s
    t.staged = s.staged ∧ t.captured = s.captured ∧ t.hostData = s.hostData ∧ t.sys = s.sys ∧ t.irq = s.irq ∧
    t.feL = s.feL ∧ t.feH = s.feH ∧ t.feI = s.feI ∧ t.grn = s.grn ∧ t.phy = s.phy ∧ t.ntb = s.ntb ∧ t.sch = s.sch ∧
    t.car = s.car ∧ t.hst = s.hst ∧ t.key = s.key ∧ t.tim = s.tim ∧ t.eth = s.eth ∧ t.twn = s.twn ∧ t.tst = s.tst ∧
    t.aon = s.aon ∧ t.otp = s.otp ∧ t.free = s.free ∧ t.out = s.out ∧ t.pending = s.pending := by
  simp [execAttCacheRebuildDone]

@[simp] theorem State.latchTamper_keeps (s : State) (src : BitVec 6) (when_ : BitVec 2) (kop : Bool) : let t := State.latchTamper s src when_ kop
    t.staged = s.staged ∧ t.captured = s.captured ∧ t.hostData = s.hostData ∧ t.sys = s.sys ∧ t.feL = s.feL ∧
    t.feH = s.feH ∧ t.feI = s.feI ∧ t.grn = s.grn ∧ t.phy = s.phy ∧ t.ntb = s.ntb ∧ t.sch = s.sch ∧ t.car = s.car ∧
    t.hst = s.hst ∧ t.key = s.key ∧ t.tim = s.tim ∧ t.eth = s.eth ∧ t.twn = s.twn ∧ t.tst = s.tst ∧ t.otp = s.otp ∧
    t.nvm = s.nvm ∧ t.free = s.free ∧ t.pending = s.pending := by
  simp [State.latchTamper]

@[simp] theorem State.abortKeyOp_keeps (s : State) : let t := State.abortKeyOp s
    t.staged = s.staged ∧ t.captured = s.captured ∧ t.hostData = s.hostData ∧ t.grn = s.grn ∧ t.tim = s.tim ∧
    t.eth = s.eth ∧ t.twn = s.twn ∧ t.tst = s.tst ∧ t.aon = s.aon ∧ t.otp = s.otp ∧ t.nvm = s.nvm ∧ t.out = s.out ∧
    t.pending = s.pending := by
  unfold State.abortKeyOp
  try dsimp only
  (repeat' split) <;> simp

@[simp] theorem State.abandonSign_keeps (s : State) : let t := State.abandonSign s
    t.staged = s.staged ∧ t.captured = s.captured ∧ t.hostData = s.hostData ∧ t.feL = s.feL ∧ t.feH = s.feH ∧
    t.feI = s.feI ∧ t.grn = s.grn ∧ t.phy = s.phy ∧ t.ntb = s.ntb ∧ t.sch = s.sch ∧ t.tim = s.tim ∧ t.twn = s.twn ∧
    t.tst = s.tst ∧ t.aon = s.aon ∧ t.otp = s.otp ∧ t.nvm = s.nvm ∧ t.pending = s.pending := by
  unfold State.abandonSign
  try dsimp only
  (repeat' split) <;> simp

@[simp] theorem execTamperEvent_keeps (src : BitVec 6) (keyOp : Bool) (s : State) : let t := Outcome.get (execTamperEvent src keyOp s) s
    t.pending = s.pending := by
  simp [execTamperEvent]

end Sys2Proof.Machine
end

