-- ==== Sys2Proof/Laws/KeepsBackhaul.lean ====
section
/-!
SUPPORT. What each operation of Machine/Backhaul.lean leaves as it was.
-/

namespace Sys2Proof.Machine

@[simp] theorem State.setLink_keeps (s : State) (p : EPort) (up los : Bool) : let t := State.setLink s p up los
    t.staged = s.staged ∧ t.captured = s.captured ∧ t.hostData = s.hostData ∧ t.feL = s.feL ∧ t.feH = s.feH ∧
    t.feI = s.feI ∧ t.grn = s.grn ∧ t.phy = s.phy ∧ t.ntb = s.ntb ∧ t.sch = s.sch ∧ t.car = s.car ∧ t.hst = s.hst ∧
    t.key = s.key ∧ t.tim = s.tim ∧ t.eth = s.eth ∧ t.twn = s.twn ∧ t.tst = s.tst ∧ t.aon = s.aon ∧ t.otp = s.otp ∧
    t.nvm = s.nvm ∧ t.free = s.free ∧ t.out = s.out ∧ t.pending = s.pending := by
  simp [State.setLink]

@[simp] theorem execLinkChange_keeps (p : EPort) (up los : Bool) (s : State) : let t := Outcome.get (execLinkChange p up los s) s
    t.staged = s.staged ∧ t.captured = s.captured ∧ t.hostData = s.hostData ∧ t.feL = s.feL ∧ t.feH = s.feH ∧
    t.feI = s.feI ∧ t.grn = s.grn ∧ t.phy = s.phy ∧ t.ntb = s.ntb ∧ t.sch = s.sch ∧ t.car = s.car ∧ t.hst = s.hst ∧
    t.key = s.key ∧ t.tim = s.tim ∧ t.eth = s.eth ∧ t.twn = s.twn ∧ t.tst = s.tst ∧ t.aon = s.aon ∧ t.otp = s.otp ∧
    t.nvm = s.nvm ∧ t.free = s.free ∧ t.out = s.out ∧ t.pending = s.pending := by
  simp [execLinkChange]

@[simp] theorem State.correct_keeps (s : State) (f : EthFrame) (p : PtpFrame) : let t := (State.correct s f p).2.2
    t.staged = s.staged ∧ t.captured = s.captured ∧ t.hostData = s.hostData ∧ t.feL = s.feL ∧ t.feH = s.feH ∧
    t.feI = s.feI ∧ t.grn = s.grn ∧ t.phy = s.phy ∧ t.ntb = s.ntb ∧ t.sch = s.sch ∧ t.car = s.car ∧ t.hst = s.hst ∧
    t.key = s.key ∧ t.tim = s.tim ∧ t.eth = s.eth ∧ t.twn = s.twn ∧ t.tst = s.tst ∧ t.aon = s.aon ∧ t.otp = s.otp ∧
    t.nvm = s.nvm ∧ t.free = s.free ∧ t.out = s.out ∧ t.pending = s.pending := by
  simp [State.correct]

@[simp] theorem State.forward_keeps (s : State) (p : EPort) (f : EthFrame) : let t := State.forward s p f
    t.staged = s.staged ∧ t.captured = s.captured ∧ t.hostData = s.hostData ∧ t.feL = s.feL ∧ t.feH = s.feH ∧
    t.feI = s.feI ∧ t.grn = s.grn ∧ t.phy = s.phy ∧ t.ntb = s.ntb ∧ t.sch = s.sch ∧ t.car = s.car ∧ t.hst = s.hst ∧
    t.key = s.key ∧ t.tim = s.tim ∧ t.eth = s.eth ∧ t.twn = s.twn ∧ t.tst = s.tst ∧ t.aon = s.aon ∧ t.otp = s.otp ∧
    t.nvm = s.nvm ∧ t.free = s.free ∧ t.pending = s.pending := by
  unfold State.forward
  try dsimp only
  (repeat' split) <;> simp

@[simp] theorem State.fragment_keeps (s : State) (f : Frag) : let t := State.fragment s f
    t.staged = s.staged ∧ t.captured = s.captured ∧ t.hostData = s.hostData ∧ t.sys = s.sys ∧ t.irq = s.irq ∧
    t.feL = s.feL ∧ t.feH = s.feH ∧ t.feI = s.feI ∧ t.grn = s.grn ∧ t.phy = s.phy ∧ t.ntb = s.ntb ∧ t.sch = s.sch ∧
    t.car = s.car ∧ t.hst = s.hst ∧ t.key = s.key ∧ t.tim = s.tim ∧ t.twn = s.twn ∧ t.tst = s.tst ∧ t.aon = s.aon ∧
    t.otp = s.otp ∧ t.nvm = s.nvm ∧ t.free = s.free ∧ t.out = s.out ∧ t.pending = s.pending := by
  unfold State.fragment
  try dsimp only
  (repeat' split) <;> simp

@[simp] theorem execReassemblyTimeout_keeps (id : Word) (s : State) : let t := Outcome.get (execReassemblyTimeout id s) s
    t.staged = s.staged ∧ t.captured = s.captured ∧ t.hostData = s.hostData ∧ t.sys = s.sys ∧ t.irq = s.irq ∧
    t.feL = s.feL ∧ t.feH = s.feH ∧ t.feI = s.feI ∧ t.grn = s.grn ∧ t.phy = s.phy ∧ t.ntb = s.ntb ∧ t.sch = s.sch ∧
    t.car = s.car ∧ t.hst = s.hst ∧ t.key = s.key ∧ t.tim = s.tim ∧ t.twn = s.twn ∧ t.tst = s.tst ∧ t.aon = s.aon ∧
    t.otp = s.otp ∧ t.nvm = s.nvm ∧ t.free = s.free ∧ t.out = s.out ∧ t.pending = s.pending := by
  simp [execReassemblyTimeout]

@[simp] theorem State.offerEp_keeps (s : State) (p : EPort) (f : EthFrame) : let t := State.offerEp s p f
    t.staged = s.staged ∧ t.captured = s.captured ∧ t.hostData = s.hostData ∧ t.sys = s.sys ∧ t.irq = s.irq ∧
    t.feL = s.feL ∧ t.feH = s.feH ∧ t.feI = s.feI ∧ t.grn = s.grn ∧ t.phy = s.phy ∧ t.ntb = s.ntb ∧ t.sch = s.sch ∧
    t.car = s.car ∧ t.hst = s.hst ∧ t.key = s.key ∧ t.tim = s.tim ∧ t.twn = s.twn ∧ t.tst = s.tst ∧ t.aon = s.aon ∧
    t.otp = s.otp ∧ t.nvm = s.nvm ∧ t.free = s.free ∧ t.pending = s.pending := by
  unfold State.offerEp
  try dsimp only
  (repeat' split) <;> simp

@[simp] theorem execBridgeRx_keeps (p : EPort) (f : EthFrame) (s : State) : let t := Outcome.get (execBridgeRx p f s) s
    t.staged = s.staged ∧ t.captured = s.captured ∧ t.hostData = s.hostData ∧ t.feL = s.feL ∧ t.feH = s.feH ∧
    t.feI = s.feI ∧ t.grn = s.grn ∧ t.phy = s.phy ∧ t.ntb = s.ntb ∧ t.sch = s.sch ∧ t.car = s.car ∧ t.hst = s.hst ∧
    t.key = s.key ∧ t.tim = s.tim ∧ t.twn = s.twn ∧ t.tst = s.tst ∧ t.aon = s.aon ∧ t.otp = s.otp ∧ t.nvm = s.nvm ∧
    t.free = s.free ∧ t.pending = s.pending := by
  simp [execBridgeRx]

@[simp] theorem State.infoReply_keeps (s : State) (d : Dgram) : let t := State.infoReply s d
    t.staged = s.staged ∧ t.captured = s.captured ∧ t.hostData = s.hostData ∧ t.sys = s.sys ∧ t.irq = s.irq ∧
    t.feL = s.feL ∧ t.feH = s.feH ∧ t.feI = s.feI ∧ t.grn = s.grn ∧ t.phy = s.phy ∧ t.ntb = s.ntb ∧ t.sch = s.sch ∧
    t.car = s.car ∧ t.hst = s.hst ∧ t.key = s.key ∧ t.tim = s.tim ∧ t.twn = s.twn ∧ t.tst = s.tst ∧ t.aon = s.aon ∧
    t.otp = s.otp ∧ t.nvm = s.nvm ∧ t.free = s.free ∧ t.pending = s.pending := by
  unfold State.infoReply
  try dsimp only
  (repeat' split) <;> simp

@[simp] theorem State.trimOut_keeps (s : State) (n : Nat := (s.sysQ 0x22).items.length) : let t := State.trimOut s n
    t.staged = s.staged ∧ t.captured = s.captured ∧ t.hostData = s.hostData ∧ t.feL = s.feL ∧ t.feH = s.feH ∧
    t.feI = s.feI ∧ t.grn = s.grn ∧ t.phy = s.phy ∧ t.ntb = s.ntb ∧ t.sch = s.sch ∧ t.hst = s.hst ∧ t.key = s.key ∧
    t.tim = s.tim ∧ t.eth = s.eth ∧ t.twn = s.twn ∧ t.tst = s.tst ∧ t.aon = s.aon ∧ t.otp = s.otp ∧ t.nvm = s.nvm ∧
    t.free = s.free ∧ t.out = s.out ∧ t.pending = s.pending := by
  induction n generalizing s with
  | zero => simp [State.trimOut]
  | succ n ih => simp only [State.trimOut]; (repeat' split) <;> simp [ih]

@[simp] theorem State.ackOut_keeps (s : State) (ack : Word) : let t := State.ackOut s ack
    t.staged = s.staged ∧ t.captured = s.captured ∧ t.hostData = s.hostData ∧ t.feL = s.feL ∧ t.feH = s.feH ∧
    t.feI = s.feI ∧ t.grn = s.grn ∧ t.phy = s.phy ∧ t.ntb = s.ntb ∧ t.sch = s.sch ∧ t.hst = s.hst ∧ t.key = s.key ∧
    t.tim = s.tim ∧ t.twn = s.twn ∧ t.tst = s.tst ∧ t.aon = s.aon ∧ t.otp = s.otp ∧ t.nvm = s.nvm ∧
    t.free = s.free ∧ t.out = s.out ∧ t.pending = s.pending := by
  simp [State.ackOut]

@[simp] theorem State.tunSeq_keeps (s : State) (d : Dgram) (room : Bool) : let t := (State.tunSeq s d room).2
    t.staged = s.staged ∧ t.captured = s.captured ∧ t.hostData = s.hostData ∧ t.feL = s.feL ∧ t.feH = s.feH ∧
    t.feI = s.feI ∧ t.grn = s.grn ∧ t.phy = s.phy ∧ t.ntb = s.ntb ∧ t.sch = s.sch ∧ t.hst = s.hst ∧ t.key = s.key ∧
    t.tim = s.tim ∧ t.twn = s.twn ∧ t.tst = s.tst ∧ t.aon = s.aon ∧ t.otp = s.otp ∧ t.nvm = s.nvm ∧
    t.free = s.free ∧ t.out = s.out ∧ t.pending = s.pending := by
  simp [State.tunSeq]

@[simp] theorem State.dgDrain_keeps (s : State) (n : Nat) : let t := State.dgDrain s n
    t.staged = s.staged ∧ t.captured = s.captured ∧ t.hostData = s.hostData ∧ t.feL = s.feL ∧ t.feH = s.feH ∧
    t.feI = s.feI ∧ t.grn = s.grn ∧ t.phy = s.phy ∧ t.ntb = s.ntb ∧ t.sch = s.sch ∧ t.hst = s.hst ∧ t.key = s.key ∧
    t.tim = s.tim ∧ t.twn = s.twn ∧ t.tst = s.tst ∧ t.aon = s.aon ∧ t.otp = s.otp ∧ t.nvm = s.nvm ∧
    t.free = s.free ∧ t.out = s.out ∧ t.pending = s.pending := by
  induction n generalizing s with
  | zero => simp [State.dgDrain]
  | succ n ih => simp only [State.dgDrain]; (repeat' split) <;> simp [ih]

@[simp] theorem State.dgKeep_keeps (s : State) (ok : Bool) (d : Dgram) : let t := State.dgKeep s ok d
    t.staged = s.staged ∧ t.captured = s.captured ∧ t.hostData = s.hostData ∧ t.feL = s.feL ∧ t.feH = s.feH ∧
    t.feI = s.feI ∧ t.grn = s.grn ∧ t.phy = s.phy ∧ t.ntb = s.ntb ∧ t.sch = s.sch ∧ t.hst = s.hst ∧ t.key = s.key ∧
    t.tim = s.tim ∧ t.twn = s.twn ∧ t.tst = s.tst ∧ t.aon = s.aon ∧ t.otp = s.otp ∧ t.nvm = s.nvm ∧ t.out = s.out ∧
    t.pending = s.pending := by
  simp [State.dgKeep]

@[simp] theorem State.dgReject_keeps (s : State) (f : Fld) : let t := State.dgReject s f
    t.staged = s.staged ∧ t.captured = s.captured ∧ t.hostData = s.hostData ∧ t.feL = s.feL ∧ t.feH = s.feH ∧
    t.feI = s.feI ∧ t.grn = s.grn ∧ t.phy = s.phy ∧ t.ntb = s.ntb ∧ t.sch = s.sch ∧ t.car = s.car ∧ t.hst = s.hst ∧
    t.key = s.key ∧ t.tim = s.tim ∧ t.eth = s.eth ∧ t.twn = s.twn ∧ t.tst = s.tst ∧ t.aon = s.aon ∧ t.otp = s.otp ∧
    t.nvm = s.nvm ∧ t.free = s.free ∧ t.out = s.out ∧ t.pending = s.pending := by
  simp [State.dgReject]

@[simp] theorem execDatagramRx_keeps (d : Dgram) (s : State) : let t := Outcome.get (execDatagramRx d s) s
    t.staged = s.staged ∧ t.captured = s.captured ∧ t.hostData = s.hostData ∧ t.feL = s.feL ∧ t.feH = s.feH ∧
    t.feI = s.feI ∧ t.grn = s.grn ∧ t.phy = s.phy ∧ t.ntb = s.ntb ∧ t.sch = s.sch ∧ t.hst = s.hst ∧ t.key = s.key ∧
    t.tim = s.tim ∧ t.twn = s.twn ∧ t.tst = s.tst ∧ t.aon = s.aon ∧ t.otp = s.otp ∧ t.nvm = s.nvm ∧
    t.pending = s.pending := by
  unfold execDatagramRx
  try dsimp only
  (repeat' split) <;> simp

@[simp] theorem State.dgPop_keeps (s : State) : let t := State.dgPop s
    t.regs = s.regs ∧ t.staged = s.staged ∧ t.captured = s.captured ∧ t.hostData = s.hostData ∧ t.sys = s.sys ∧
    t.irq = s.irq ∧ t.feL = s.feL ∧ t.feH = s.feH ∧ t.feI = s.feI ∧ t.grn = s.grn ∧ t.phy = s.phy ∧ t.ntb = s.ntb ∧
    t.sch = s.sch ∧ t.car = s.car ∧ t.hst = s.hst ∧ t.key = s.key ∧ t.tim = s.tim ∧ t.twn = s.twn ∧ t.tst = s.tst ∧
    t.aon = s.aon ∧ t.otp = s.otp ∧ t.nvm = s.nvm ∧ t.free = s.free ∧ t.out = s.out ∧ t.pending = s.pending := by
  simp [State.dgPop]

@[simp] theorem execMgtSession_keeps (s : State) : let t := Outcome.get (execMgtSession s) s
    t.staged = s.staged ∧ t.captured = s.captured ∧ t.hostData = s.hostData ∧ t.feL = s.feL ∧ t.feH = s.feH ∧
    t.feI = s.feI ∧ t.grn = s.grn ∧ t.phy = s.phy ∧ t.ntb = s.ntb ∧ t.sch = s.sch ∧ t.key = s.key ∧ t.tim = s.tim ∧
    t.twn = s.twn ∧ t.tst = s.tst ∧ t.aon = s.aon ∧ t.otp = s.otp ∧ t.nvm = s.nvm ∧ t.pending = s.pending := by
  unfold execMgtSession
  try dsimp only
  (repeat' split) <;> simp

@[simp] theorem execMgtKeyUpdate_keeps (s : State) : let t := Outcome.get (execMgtKeyUpdate s) s
    t.staged = s.staged ∧ t.captured = s.captured ∧ t.hostData = s.hostData ∧ t.feL = s.feL ∧ t.feH = s.feH ∧
    t.feI = s.feI ∧ t.grn = s.grn ∧ t.phy = s.phy ∧ t.ntb = s.ntb ∧ t.sch = s.sch ∧ t.tim = s.tim ∧ t.twn = s.twn ∧
    t.tst = s.tst ∧ t.aon = s.aon ∧ t.otp = s.otp ∧ t.nvm = s.nvm ∧ t.pending = s.pending := by
  unfold execMgtKeyUpdate
  try dsimp only
  (repeat' split) <;> simp

@[simp] theorem State.tunSend_keeps (s : State) (type dir : Byte) (seq : Word) (payload : List Byte) : let t := State.tunSend s type dir seq payload
    t.regs = s.regs ∧ t.staged = s.staged ∧ t.captured = s.captured ∧ t.hostData = s.hostData ∧ t.sys = s.sys ∧
    t.irq = s.irq ∧ t.feL = s.feL ∧ t.feH = s.feH ∧ t.feI = s.feI ∧ t.grn = s.grn ∧ t.phy = s.phy ∧ t.ntb = s.ntb ∧
    t.sch = s.sch ∧ t.car = s.car ∧ t.hst = s.hst ∧ t.key = s.key ∧ t.tim = s.tim ∧ t.eth = s.eth ∧ t.twn = s.twn ∧
    t.tst = s.tst ∧ t.aon = s.aon ∧ t.otp = s.otp ∧ t.nvm = s.nvm ∧ t.free = s.free ∧ t.pending = s.pending := by
  unfold State.tunSend
  try dsimp only
  (repeat' split) <;> simp

@[simp] theorem execTunDown_keeps (s : State) : let t := Outcome.get (execTunDown s) s
    t.staged = s.staged ∧ t.captured = s.captured ∧ t.hostData = s.hostData ∧ t.feL = s.feL ∧ t.feH = s.feH ∧
    t.feI = s.feI ∧ t.grn = s.grn ∧ t.phy = s.phy ∧ t.key = s.key ∧ t.tim = s.tim ∧ t.twn = s.twn ∧ t.tst = s.tst ∧
    t.aon = s.aon ∧ t.otp = s.otp ∧ t.nvm = s.nvm ∧ t.out = s.out ∧ t.pending = s.pending := by
  unfold execTunDown
  try dsimp only
  (repeat' split) <;> simp

@[simp] theorem execTunTable_keeps (s : State) : let t := Outcome.get (execTunTable s) s
    t.staged = s.staged ∧ t.captured = s.captured ∧ t.hostData = s.hostData ∧ t.feL = s.feL ∧ t.feH = s.feH ∧
    t.feI = s.feI ∧ t.grn = s.grn ∧ t.phy = s.phy ∧ t.sch = s.sch ∧ t.hst = s.hst ∧ t.key = s.key ∧ t.tim = s.tim ∧
    t.twn = s.twn ∧ t.tst = s.tst ∧ t.aon = s.aon ∧ t.otp = s.otp ∧ t.nvm = s.nvm ∧ t.free = s.free ∧
    t.pending = s.pending := by
  unfold execTunTable
  try dsimp only
  (repeat' split) <;> simp

@[simp] theorem execTunAckRx_keeps (s : State) : let t := Outcome.get (execTunAckRx s) s
    t.staged = s.staged ∧ t.captured = s.captured ∧ t.hostData = s.hostData ∧ t.feL = s.feL ∧ t.feH = s.feH ∧
    t.feI = s.feI ∧ t.grn = s.grn ∧ t.phy = s.phy ∧ t.ntb = s.ntb ∧ t.sch = s.sch ∧ t.hst = s.hst ∧ t.key = s.key ∧
    t.tim = s.tim ∧ t.twn = s.twn ∧ t.tst = s.tst ∧ t.aon = s.aon ∧ t.otp = s.otp ∧ t.nvm = s.nvm ∧
    t.free = s.free ∧ t.out = s.out ∧ t.pending = s.pending := by
  unfold execTunAckRx
  try dsimp only
  (repeat' split) <;> simp

@[simp] theorem execTunAckSend_keeps (s : State) : let t := Outcome.get (execTunAckSend s) s
    t.regs = s.regs ∧ t.staged = s.staged ∧ t.captured = s.captured ∧ t.hostData = s.hostData ∧ t.sys = s.sys ∧
    t.irq = s.irq ∧ t.feL = s.feL ∧ t.feH = s.feH ∧ t.feI = s.feI ∧ t.grn = s.grn ∧ t.phy = s.phy ∧ t.ntb = s.ntb ∧
    t.sch = s.sch ∧ t.car = s.car ∧ t.hst = s.hst ∧ t.key = s.key ∧ t.tim = s.tim ∧ t.twn = s.twn ∧ t.tst = s.tst ∧
    t.aon = s.aon ∧ t.otp = s.otp ∧ t.nvm = s.nvm ∧ t.free = s.free ∧ t.pending = s.pending := by
  simp [execTunAckSend]

@[simp] theorem State.tunData_keeps (s : State) (type : Byte) (payload : List Byte) : let t := State.tunData s type payload
    t.staged = s.staged ∧ t.captured = s.captured ∧ t.hostData = s.hostData ∧ t.feL = s.feL ∧ t.feH = s.feH ∧
    t.feI = s.feI ∧ t.grn = s.grn ∧ t.phy = s.phy ∧ t.ntb = s.ntb ∧ t.sch = s.sch ∧ t.hst = s.hst ∧ t.key = s.key ∧
    t.tim = s.tim ∧ t.twn = s.twn ∧ t.tst = s.tst ∧ t.aon = s.aon ∧ t.otp = s.otp ∧ t.nvm = s.nvm ∧
    t.pending = s.pending := by
  simp [State.tunData]

@[simp] theorem execTunDrain_keeps (s : State) : let t := Outcome.get (execTunDrain s) s
    t.staged = s.staged ∧ t.captured = s.captured ∧ t.hostData = s.hostData ∧ t.feL = s.feL ∧ t.feH = s.feH ∧
    t.feI = s.feI ∧ t.grn = s.grn ∧ t.phy = s.phy ∧ t.ntb = s.ntb ∧ t.sch = s.sch ∧ t.hst = s.hst ∧ t.key = s.key ∧
    t.tim = s.tim ∧ t.twn = s.twn ∧ t.tst = s.tst ∧ t.aon = s.aon ∧ t.otp = s.otp ∧ t.nvm = s.nvm ∧
    t.pending = s.pending := by
  unfold execTunDrain
  try dsimp only
  (repeat' split) <;> simp

@[simp] theorem State.tunResend_keeps (s : State) (it : QItem) : let t := State.tunResend s it
    t.regs = s.regs ∧ t.staged = s.staged ∧ t.captured = s.captured ∧ t.hostData = s.hostData ∧ t.sys = s.sys ∧
    t.irq = s.irq ∧ t.feL = s.feL ∧ t.feH = s.feH ∧ t.feI = s.feI ∧ t.grn = s.grn ∧ t.phy = s.phy ∧ t.ntb = s.ntb ∧
    t.sch = s.sch ∧ t.car = s.car ∧ t.hst = s.hst ∧ t.key = s.key ∧ t.tim = s.tim ∧ t.eth = s.eth ∧ t.twn = s.twn ∧
    t.tst = s.tst ∧ t.aon = s.aon ∧ t.otp = s.otp ∧ t.nvm = s.nvm ∧ t.free = s.free ∧ t.pending = s.pending := by
  unfold State.tunResend
  try dsimp only
  (repeat' split) <;> simp

@[simp] theorem execTunRtoExpire_keeps (s : State) : let t := Outcome.get (execTunRtoExpire s) s
    t.staged = s.staged ∧ t.captured = s.captured ∧ t.hostData = s.hostData ∧ t.feL = s.feL ∧ t.feH = s.feH ∧
    t.feI = s.feI ∧ t.grn = s.grn ∧ t.phy = s.phy ∧ t.ntb = s.ntb ∧ t.sch = s.sch ∧ t.car = s.car ∧ t.hst = s.hst ∧
    t.key = s.key ∧ t.tim = s.tim ∧ t.twn = s.twn ∧ t.tst = s.tst ∧ t.aon = s.aon ∧ t.otp = s.otp ∧ t.nvm = s.nvm ∧
    t.free = s.free ∧ t.pending = s.pending := by
  simp [execTunRtoExpire]

@[simp] theorem State.mbxCmd_staged (s : State) (f : State → ReplyTo → State) (h : ∀ t r, (f t r).staged = t.staged) :
    (State.mbxCmd s f).staged = s.staged := by
  unfold State.mbxCmd
  try dsimp only
  (repeat' split) <;> simp [h]

@[simp] theorem State.mbxCmd_captured (s : State) (f : State → ReplyTo → State) (h : ∀ t r, (f t r).captured = t.captured) :
    (State.mbxCmd s f).captured = s.captured := by
  unfold State.mbxCmd
  try dsimp only
  (repeat' split) <;> simp [h]

@[simp] theorem State.mbxCmd_hostData (s : State) (f : State → ReplyTo → State) (h : ∀ t r, (f t r).hostData = t.hostData) :
    (State.mbxCmd s f).hostData = s.hostData := by
  unfold State.mbxCmd
  try dsimp only
  (repeat' split) <;> simp [h]

@[simp] theorem State.mbxCmd_sys (s : State) (f : State → ReplyTo → State) (h : ∀ t r, (f t r).sys = t.sys) :
    (State.mbxCmd s f).sys = s.sys := by
  unfold State.mbxCmd
  try dsimp only
  (repeat' split) <;> simp [h]

@[simp] theorem State.mbxCmd_irq (s : State) (f : State → ReplyTo → State) (h : ∀ t r, (f t r).irq = t.irq) :
    (State.mbxCmd s f).irq = s.irq := by
  unfold State.mbxCmd
  try dsimp only
  (repeat' split) <;> simp [h]

@[simp] theorem State.mbxCmd_feL (s : State) (f : State → ReplyTo → State) (h : ∀ t r, (f t r).feL = t.feL) :
    (State.mbxCmd s f).feL = s.feL := by
  unfold State.mbxCmd
  try dsimp only
  (repeat' split) <;> simp [h]

@[simp] theorem State.mbxCmd_feH (s : State) (f : State → ReplyTo → State) (h : ∀ t r, (f t r).feH = t.feH) :
    (State.mbxCmd s f).feH = s.feH := by
  unfold State.mbxCmd
  try dsimp only
  (repeat' split) <;> simp [h]

@[simp] theorem State.mbxCmd_feI (s : State) (f : State → ReplyTo → State) (h : ∀ t r, (f t r).feI = t.feI) :
    (State.mbxCmd s f).feI = s.feI := by
  unfold State.mbxCmd
  try dsimp only
  (repeat' split) <;> simp [h]

@[simp] theorem State.mbxCmd_grn (s : State) (f : State → ReplyTo → State) (h : ∀ t r, (f t r).grn = t.grn) :
    (State.mbxCmd s f).grn = s.grn := by
  unfold State.mbxCmd
  try dsimp only
  (repeat' split) <;> simp [h]

@[simp] theorem State.mbxCmd_phy (s : State) (f : State → ReplyTo → State) (h : ∀ t r, (f t r).phy = t.phy) :
    (State.mbxCmd s f).phy = s.phy := by
  unfold State.mbxCmd
  try dsimp only
  (repeat' split) <;> simp [h]

@[simp] theorem State.mbxCmd_ntb (s : State) (f : State → ReplyTo → State) (h : ∀ t r, (f t r).ntb = t.ntb) :
    (State.mbxCmd s f).ntb = s.ntb := by
  unfold State.mbxCmd
  try dsimp only
  (repeat' split) <;> simp [h]

@[simp] theorem State.mbxCmd_sch (s : State) (f : State → ReplyTo → State) (h : ∀ t r, (f t r).sch = t.sch) :
    (State.mbxCmd s f).sch = s.sch := by
  unfold State.mbxCmd
  try dsimp only
  (repeat' split) <;> simp [h]

@[simp] theorem State.mbxCmd_car (s : State) (f : State → ReplyTo → State) (h : ∀ t r, (f t r).car = t.car) :
    (State.mbxCmd s f).car = s.car := by
  unfold State.mbxCmd
  try dsimp only
  (repeat' split) <;> simp [h]

@[simp] theorem State.mbxCmd_key (s : State) (f : State → ReplyTo → State) (h : ∀ t r, (f t r).key = t.key) :
    (State.mbxCmd s f).key = s.key := by
  unfold State.mbxCmd
  try dsimp only
  (repeat' split) <;> simp [h]

@[simp] theorem State.mbxCmd_tim (s : State) (f : State → ReplyTo → State) (h : ∀ t r, (f t r).tim = t.tim) :
    (State.mbxCmd s f).tim = s.tim := by
  unfold State.mbxCmd
  try dsimp only
  (repeat' split) <;> simp [h]

@[simp] theorem State.mbxCmd_eth (s : State) (f : State → ReplyTo → State) (h : ∀ t r, (f t r).eth = t.eth) :
    (State.mbxCmd s f).eth = s.eth := by
  unfold State.mbxCmd
  try dsimp only
  (repeat' split) <;> simp [h]

@[simp] theorem State.mbxCmd_twn (s : State) (f : State → ReplyTo → State) (h : ∀ t r, (f t r).twn = t.twn) :
    (State.mbxCmd s f).twn = s.twn := by
  unfold State.mbxCmd
  try dsimp only
  (repeat' split) <;> simp [h]

@[simp] theorem State.mbxCmd_tst (s : State) (f : State → ReplyTo → State) (h : ∀ t r, (f t r).tst = t.tst) :
    (State.mbxCmd s f).tst = s.tst := by
  unfold State.mbxCmd
  try dsimp only
  (repeat' split) <;> simp [h]

@[simp] theorem State.mbxCmd_aon (s : State) (f : State → ReplyTo → State) (h : ∀ t r, (f t r).aon = t.aon) :
    (State.mbxCmd s f).aon = s.aon := by
  unfold State.mbxCmd
  try dsimp only
  (repeat' split) <;> simp [h]

@[simp] theorem State.mbxCmd_otp (s : State) (f : State → ReplyTo → State) (h : ∀ t r, (f t r).otp = t.otp) :
    (State.mbxCmd s f).otp = s.otp := by
  unfold State.mbxCmd
  try dsimp only
  (repeat' split) <;> simp [h]

@[simp] theorem State.mbxCmd_nvm (s : State) (f : State → ReplyTo → State) (h : ∀ t r, (f t r).nvm = t.nvm) :
    (State.mbxCmd s f).nvm = s.nvm := by
  unfold State.mbxCmd
  try dsimp only
  (repeat' split) <;> simp [h]

@[simp] theorem State.mbxCmd_free (s : State) (f : State → ReplyTo → State) (h : ∀ t r, (f t r).free = t.free) :
    (State.mbxCmd s f).free = s.free := by
  unfold State.mbxCmd
  try dsimp only
  (repeat' split) <;> simp [h]

@[simp] theorem State.mbxCmd_out (s : State) (f : State → ReplyTo → State) (h : ∀ t r, (f t r).out = t.out) :
    (State.mbxCmd s f).out = s.out := by
  unfold State.mbxCmd
  try dsimp only
  (repeat' split) <;> simp [h]

@[simp] theorem State.mbxCmd_pending (s : State) (f : State → ReplyTo → State) (h : ∀ t r, (f t r).pending = t.pending) :
    (State.mbxCmd s f).pending = s.pending := by
  unfold State.mbxCmd
  try dsimp only
  (repeat' split) <;> simp [h]

@[simp] theorem execMbxSession_keeps (r : SessRec) (s : State) : let t := Outcome.get (execMbxSession r s) s
    t.staged = s.staged ∧ t.captured = s.captured ∧ t.hostData = s.hostData ∧ t.feL = s.feL ∧ t.feH = s.feH ∧
    t.feI = s.feI ∧ t.grn = s.grn ∧ t.phy = s.phy ∧ t.ntb = s.ntb ∧ t.sch = s.sch ∧ t.key = s.key ∧ t.tim = s.tim ∧
    t.twn = s.twn ∧ t.tst = s.tst ∧ t.aon = s.aon ∧ t.otp = s.otp ∧ t.nvm = s.nvm ∧ t.pending = s.pending := by
  simp [execMbxSession]

@[simp] theorem execMbxKeyUpdate_keeps (m : KuMsg) (s : State) : let t := Outcome.get (execMbxKeyUpdate m s) s
    t.staged = s.staged ∧ t.captured = s.captured ∧ t.hostData = s.hostData ∧ t.feL = s.feL ∧ t.feH = s.feH ∧
    t.feI = s.feI ∧ t.grn = s.grn ∧ t.phy = s.phy ∧ t.ntb = s.ntb ∧ t.sch = s.sch ∧ t.tim = s.tim ∧ t.twn = s.twn ∧
    t.tst = s.tst ∧ t.aon = s.aon ∧ t.otp = s.otp ∧ t.nvm = s.nvm ∧ t.pending = s.pending := by
  simp [execMbxKeyUpdate]

end Sys2Proof.Machine
end

