-- ==== Sys2Proof/Laws/KeepsTst.lean ====
section
/-!
SUPPORT. What each operation of Machine/Tst.lean leaves as it was.
-/

namespace Sys2Proof.Machine

@[simp] theorem State.logFull_keeps (s : State) : let t := State.logFull s
    t.staged = s.staged ∧ t.captured = s.captured ∧ t.hostData = s.hostData ∧ t.feL = s.feL ∧ t.feH = s.feH ∧
    t.feI = s.feI ∧ t.grn = s.grn ∧ t.phy = s.phy ∧ t.ntb = s.ntb ∧ t.sch = s.sch ∧ t.car = s.car ∧ t.hst = s.hst ∧
    t.key = s.key ∧ t.tim = s.tim ∧ t.eth = s.eth ∧ t.twn = s.twn ∧ t.tst = s.tst ∧ t.aon = s.aon ∧ t.otp = s.otp ∧
    t.nvm = s.nvm ∧ t.free = s.free ∧ t.out = s.out ∧ t.pending = s.pending := by
  simp [State.logFull]

@[simp] theorem State.logRepair_keeps (s : State) (kind src mac index : Nat) : let t := State.logRepair s kind src mac index
    t.staged = s.staged ∧ t.captured = s.captured ∧ t.hostData = s.hostData ∧ t.feL = s.feL ∧ t.feH = s.feH ∧
    t.feI = s.feI ∧ t.grn = s.grn ∧ t.phy = s.phy ∧ t.ntb = s.ntb ∧ t.sch = s.sch ∧ t.car = s.car ∧ t.hst = s.hst ∧
    t.key = s.key ∧ t.tim = s.tim ∧ t.eth = s.eth ∧ t.twn = s.twn ∧ t.tst = s.tst ∧ t.aon = s.aon ∧ t.otp = s.otp ∧
    t.free = s.free ∧ t.out = s.out ∧ t.pending = s.pending := by
  simp [State.logRepair]

@[simp] theorem State.logFault_keeps (s : State) (isl cause : Nat) : let t := State.logFault s isl cause
    t.staged = s.staged ∧ t.captured = s.captured ∧ t.hostData = s.hostData ∧ t.feL = s.feL ∧ t.feH = s.feH ∧
    t.feI = s.feI ∧ t.grn = s.grn ∧ t.phy = s.phy ∧ t.ntb = s.ntb ∧ t.sch = s.sch ∧ t.car = s.car ∧ t.hst = s.hst ∧
    t.key = s.key ∧ t.tim = s.tim ∧ t.eth = s.eth ∧ t.twn = s.twn ∧ t.tst = s.tst ∧ t.aon = s.aon ∧ t.otp = s.otp ∧
    t.free = s.free ∧ t.out = s.out ∧ t.pending = s.pending := by
  simp [State.logFault]

@[simp] theorem State.mapRepairs_keeps (s : State) (l : List Repair) : let t := State.mapRepairs s l
    t.staged = s.staged ∧ t.captured = s.captured ∧ t.hostData = s.hostData ∧ t.feL = s.feL ∧ t.feH = s.feH ∧
    t.feI = s.feI ∧ t.grn = s.grn ∧ t.phy = s.phy ∧ t.ntb = s.ntb ∧ t.sch = s.sch ∧ t.car = s.car ∧ t.hst = s.hst ∧
    t.key = s.key ∧ t.tim = s.tim ∧ t.eth = s.eth ∧ t.twn = s.twn ∧ t.aon = s.aon ∧ t.otp = s.otp ∧ t.nvm = s.nvm ∧
    t.free = s.free ∧ t.out = s.out ∧ t.pending = s.pending := by
  simp [State.mapRepairs]

@[simp] theorem State.logRepairs_keeps (s : State) (l : List Repair) : let t := State.logRepairs s l
    t.staged = s.staged ∧ t.captured = s.captured ∧ t.hostData = s.hostData ∧ t.feL = s.feL ∧ t.feH = s.feH ∧
    t.feI = s.feI ∧ t.grn = s.grn ∧ t.phy = s.phy ∧ t.ntb = s.ntb ∧ t.sch = s.sch ∧ t.car = s.car ∧ t.hst = s.hst ∧
    t.key = s.key ∧ t.tim = s.tim ∧ t.eth = s.eth ∧ t.twn = s.twn ∧ t.tst = s.tst ∧ t.aon = s.aon ∧ t.otp = s.otp ∧
    t.free = s.free ∧ t.out = s.out ∧ t.pending = s.pending := by
  simp [State.logRepairs]

@[simp] theorem State.logUnrep_keeps (s : State) (f : MacroFault) (src : Nat) : let t := State.logUnrep s f src
    t.staged = s.staged ∧ t.captured = s.captured ∧ t.hostData = s.hostData ∧ t.feL = s.feL ∧ t.feH = s.feH ∧
    t.feI = s.feI ∧ t.grn = s.grn ∧ t.phy = s.phy ∧ t.ntb = s.ntb ∧ t.sch = s.sch ∧ t.car = s.car ∧ t.hst = s.hst ∧
    t.key = s.key ∧ t.tim = s.tim ∧ t.eth = s.eth ∧ t.twn = s.twn ∧ t.tst = s.tst ∧ t.aon = s.aon ∧ t.otp = s.otp ∧
    t.free = s.free ∧ t.out = s.out ∧ t.pending = s.pending := by
  simp [State.logUnrep]

@[simp] theorem State.bistDone_keeps (s : State) (found : Bool) : let t := State.bistDone s found
    t.staged = s.staged ∧ t.captured = s.captured ∧ t.hostData = s.hostData ∧ t.feL = s.feL ∧ t.feH = s.feH ∧
    t.feI = s.feI ∧ t.grn = s.grn ∧ t.phy = s.phy ∧ t.ntb = s.ntb ∧ t.sch = s.sch ∧ t.car = s.car ∧ t.hst = s.hst ∧
    t.key = s.key ∧ t.tim = s.tim ∧ t.eth = s.eth ∧ t.twn = s.twn ∧ t.tst = s.tst ∧ t.aon = s.aon ∧ t.otp = s.otp ∧
    t.nvm = s.nvm ∧ t.free = s.free ∧ t.out = s.out ∧ t.pending = s.pending := by
  simp [State.bistDone]

@[simp] theorem State.bistMem_keeps (s : State) (g : BitVec 4) (faults : List MacroFault) : let t := State.bistMem s g faults
    t.staged = s.staged ∧ t.captured = s.captured ∧ t.hostData = s.hostData ∧ t.feL = s.feL ∧ t.feH = s.feH ∧
    t.feI = s.feI ∧ t.grn = s.grn ∧ t.phy = s.phy ∧ t.ntb = s.ntb ∧ t.sch = s.sch ∧ t.car = s.car ∧ t.hst = s.hst ∧
    t.key = s.key ∧ t.tim = s.tim ∧ t.eth = s.eth ∧ t.twn = s.twn ∧ t.aon = s.aon ∧ t.otp = s.otp ∧
    t.free = s.free ∧ t.out = s.out ∧ t.pending = s.pending := by
  simp [State.bistMem]

@[simp] theorem State.bistHalt_staged (s : State) (f : State → State) (h : ∀ t, (f t).staged = t.staged) :
    (State.bistHalt s f).staged = s.staged := by
  unfold State.bistHalt
  try dsimp only
  (repeat' split) <;> simp [h]

@[simp] theorem State.bistHalt_captured (s : State) (f : State → State) (h : ∀ t, (f t).captured = t.captured) :
    (State.bistHalt s f).captured = s.captured := by
  unfold State.bistHalt
  try dsimp only
  (repeat' split) <;> simp [h]

@[simp] theorem State.bistHalt_hostData (s : State) (f : State → State) (h : ∀ t, (f t).hostData = t.hostData) :
    (State.bistHalt s f).hostData = s.hostData := by
  unfold State.bistHalt
  try dsimp only
  (repeat' split) <;> simp [h]

@[simp] theorem State.bistHalt_irq (s : State) (f : State → State) (h : ∀ t, (f t).irq = t.irq) :
    (State.bistHalt s f).irq = s.irq := by
  unfold State.bistHalt
  try dsimp only
  (repeat' split) <;> simp [h]

@[simp] theorem State.bistHalt_feL (s : State) (f : State → State) (h : ∀ t, (f t).feL = t.feL) :
    (State.bistHalt s f).feL = s.feL := by
  unfold State.bistHalt
  try dsimp only
  (repeat' split) <;> simp [h]

@[simp] theorem State.bistHalt_feH (s : State) (f : State → State) (h : ∀ t, (f t).feH = t.feH) :
    (State.bistHalt s f).feH = s.feH := by
  unfold State.bistHalt
  try dsimp only
  (repeat' split) <;> simp [h]

@[simp] theorem State.bistHalt_feI (s : State) (f : State → State) (h : ∀ t, (f t).feI = t.feI) :
    (State.bistHalt s f).feI = s.feI := by
  unfold State.bistHalt
  try dsimp only
  (repeat' split) <;> simp [h]

@[simp] theorem State.bistHalt_grn (s : State) (f : State → State) (h : ∀ t, (f t).grn = t.grn) :
    (State.bistHalt s f).grn = s.grn := by
  unfold State.bistHalt
  try dsimp only
  (repeat' split) <;> simp [h]

@[simp] theorem State.bistHalt_phy (s : State) (f : State → State) (h : ∀ t, (f t).phy = t.phy) :
    (State.bistHalt s f).phy = s.phy := by
  unfold State.bistHalt
  try dsimp only
  (repeat' split) <;> simp [h]

@[simp] theorem State.bistHalt_ntb (s : State) (f : State → State) (h : ∀ t, (f t).ntb = t.ntb) :
    (State.bistHalt s f).ntb = s.ntb := by
  unfold State.bistHalt
  try dsimp only
  (repeat' split) <;> simp [h]

@[simp] theorem State.bistHalt_sch (s : State) (f : State → State) (h : ∀ t, (f t).sch = t.sch) :
    (State.bistHalt s f).sch = s.sch := by
  unfold State.bistHalt
  try dsimp only
  (repeat' split) <;> simp [h]

@[simp] theorem State.bistHalt_car (s : State) (f : State → State) (h : ∀ t, (f t).car = t.car) :
    (State.bistHalt s f).car = s.car := by
  unfold State.bistHalt
  try dsimp only
  (repeat' split) <;> simp [h]

@[simp] theorem State.bistHalt_hst (s : State) (f : State → State) (h : ∀ t, (f t).hst = t.hst) :
    (State.bistHalt s f).hst = s.hst := by
  unfold State.bistHalt
  try dsimp only
  (repeat' split) <;> simp [h]

@[simp] theorem State.bistHalt_key (s : State) (f : State → State) (h : ∀ t, (f t).key = t.key) :
    (State.bistHalt s f).key = s.key := by
  unfold State.bistHalt
  try dsimp only
  (repeat' split) <;> simp [h]

@[simp] theorem State.bistHalt_tim (s : State) (f : State → State) (h : ∀ t, (f t).tim = t.tim) :
    (State.bistHalt s f).tim = s.tim := by
  unfold State.bistHalt
  try dsimp only
  (repeat' split) <;> simp [h]

@[simp] theorem State.bistHalt_eth (s : State) (f : State → State) (h : ∀ t, (f t).eth = t.eth) :
    (State.bistHalt s f).eth = s.eth := by
  unfold State.bistHalt
  try dsimp only
  (repeat' split) <;> simp [h]

@[simp] theorem State.bistHalt_twn (s : State) (f : State → State) (h : ∀ t, (f t).twn = t.twn) :
    (State.bistHalt s f).twn = s.twn := by
  unfold State.bistHalt
  try dsimp only
  (repeat' split) <;> simp [h]

@[simp] theorem State.bistHalt_tst (s : State) (f : State → State) (h : ∀ t, (f t).tst = t.tst) :
    (State.bistHalt s f).tst = s.tst := by
  unfold State.bistHalt
  try dsimp only
  (repeat' split) <;> simp [h]

@[simp] theorem State.bistHalt_aon (s : State) (f : State → State) (h : ∀ t, (f t).aon = t.aon) :
    (State.bistHalt s f).aon = s.aon := by
  unfold State.bistHalt
  try dsimp only
  (repeat' split) <;> simp [h]

@[simp] theorem State.bistHalt_otp (s : State) (f : State → State) (h : ∀ t, (f t).otp = t.otp) :
    (State.bistHalt s f).otp = s.otp := by
  unfold State.bistHalt
  try dsimp only
  (repeat' split) <;> simp [h]

@[simp] theorem State.bistHalt_nvm (s : State) (f : State → State) (h : ∀ t, (f t).nvm = t.nvm) :
    (State.bistHalt s f).nvm = s.nvm := by
  unfold State.bistHalt
  try dsimp only
  (repeat' split) <;> simp [h]

@[simp] theorem State.bistHalt_free (s : State) (f : State → State) (h : ∀ t, (f t).free = t.free) :
    (State.bistHalt s f).free = s.free := by
  unfold State.bistHalt
  try dsimp only
  (repeat' split) <;> simp [h]

@[simp] theorem State.bistHalt_out (s : State) (f : State → State) (h : ∀ t, (f t).out = t.out) :
    (State.bistHalt s f).out = s.out := by
  unfold State.bistHalt
  try dsimp only
  (repeat' split) <;> simp [h]

@[simp] theorem State.bistHalt_pending (s : State) (f : State → State) (h : ∀ t, (f t).pending = t.pending) :
    (State.bistHalt s f).pending = s.pending := by
  unfold State.bistHalt
  try dsimp only
  (repeat' split) <;> simp [h]

@[simp] theorem execBistMemory_keeps (grps : BitVec 4) (faults : List MacroFault) (s : State) : let t := Outcome.get (execBistMemory grps faults s) s
    t.staged = s.staged ∧ t.captured = s.captured ∧ t.hostData = s.hostData ∧ t.feL = s.feL ∧ t.feH = s.feH ∧
    t.feI = s.feI ∧ t.grn = s.grn ∧ t.phy = s.phy ∧ t.ntb = s.ntb ∧ t.sch = s.sch ∧ t.car = s.car ∧ t.hst = s.hst ∧
    t.key = s.key ∧ t.tim = s.tim ∧ t.eth = s.eth ∧ t.twn = s.twn ∧ t.aon = s.aon ∧ t.otp = s.otp ∧
    t.free = s.free ∧ t.out = s.out ∧ t.pending = s.pending := by
  simp [execBistMemory]

@[simp] theorem execBistLogic_keeps (grps : BitVec 4) (lbist : BitVec 16) (s : State) : let t := Outcome.get (execBistLogic grps lbist s) s
    t.staged = s.staged ∧ t.captured = s.captured ∧ t.hostData = s.hostData ∧ t.feL = s.feL ∧ t.feH = s.feH ∧
    t.feI = s.feI ∧ t.grn = s.grn ∧ t.phy = s.phy ∧ t.ntb = s.ntb ∧ t.sch = s.sch ∧ t.car = s.car ∧ t.hst = s.hst ∧
    t.key = s.key ∧ t.tim = s.tim ∧ t.eth = s.eth ∧ t.twn = s.twn ∧ t.tst = s.tst ∧ t.aon = s.aon ∧ t.otp = s.otp ∧
    t.nvm = s.nvm ∧ t.free = s.free ∧ t.out = s.out ∧ t.pending = s.pending := by
  simp [execBistLogic]

@[simp] theorem State.percPass_keeps (s : State) : let t := State.percPass s
    t.staged = s.staged ∧ t.captured = s.captured ∧ t.hostData = s.hostData ∧ t.sys = s.sys ∧ t.irq = s.irq ∧
    t.feL = s.feL ∧ t.feH = s.feH ∧ t.feI = s.feI ∧ t.grn = s.grn ∧ t.phy = s.phy ∧ t.ntb = s.ntb ∧ t.sch = s.sch ∧
    t.car = s.car ∧ t.hst = s.hst ∧ t.key = s.key ∧ t.tim = s.tim ∧ t.eth = s.eth ∧ t.twn = s.twn ∧ t.aon = s.aon ∧
    t.otp = s.otp ∧ t.nvm = s.nvm ∧ t.free = s.free ∧ t.out = s.out ∧ t.pending = s.pending := by
  simp [State.percPass]

@[simp] theorem execBistPercPass_keeps (s : State) : let t := Outcome.get (execBistPercPass s) s
    t.staged = s.staged ∧ t.captured = s.captured ∧ t.hostData = s.hostData ∧ t.irq = s.irq ∧ t.feL = s.feL ∧
    t.feH = s.feH ∧ t.feI = s.feI ∧ t.grn = s.grn ∧ t.phy = s.phy ∧ t.ntb = s.ntb ∧ t.sch = s.sch ∧ t.car = s.car ∧
    t.hst = s.hst ∧ t.key = s.key ∧ t.tim = s.tim ∧ t.eth = s.eth ∧ t.twn = s.twn ∧ t.aon = s.aon ∧ t.otp = s.otp ∧
    t.nvm = s.nvm ∧ t.free = s.free ∧ t.out = s.out ∧ t.pending = s.pending := by
  simp [execBistPercPass]

@[simp] theorem State.fuseCmd_keeps (s : State) : let t := State.fuseCmd s
    t.staged = s.staged ∧ t.captured = s.captured ∧ t.hostData = s.hostData ∧ t.sys = s.sys ∧ t.irq = s.irq ∧
    t.feL = s.feL ∧ t.feH = s.feH ∧ t.feI = s.feI ∧ t.grn = s.grn ∧ t.phy = s.phy ∧ t.ntb = s.ntb ∧ t.sch = s.sch ∧
    t.car = s.car ∧ t.hst = s.hst ∧ t.key = s.key ∧ t.tim = s.tim ∧ t.eth = s.eth ∧ t.twn = s.twn ∧ t.tst = s.tst ∧
    t.aon = s.aon ∧ t.nvm = s.nvm ∧ t.free = s.free ∧ t.out = s.out ∧ t.pending = s.pending := by
  simp [State.fuseCmd]

@[simp] theorem execFuse_keeps (s : State) : let t := Outcome.get (execFuse s) s
    t.staged = s.staged ∧ t.captured = s.captured ∧ t.hostData = s.hostData ∧ t.irq = s.irq ∧ t.feL = s.feL ∧
    t.feH = s.feH ∧ t.feI = s.feI ∧ t.grn = s.grn ∧ t.phy = s.phy ∧ t.ntb = s.ntb ∧ t.sch = s.sch ∧ t.car = s.car ∧
    t.hst = s.hst ∧ t.key = s.key ∧ t.tim = s.tim ∧ t.eth = s.eth ∧ t.twn = s.twn ∧ t.tst = s.tst ∧ t.aon = s.aon ∧
    t.nvm = s.nvm ∧ t.free = s.free ∧ t.out = s.out ∧ t.pending = s.pending := by
  simp [execFuse]

@[simp] theorem State.percNext_keeps (s : State) : let t := State.percNext s
    t.staged = s.staged ∧ t.captured = s.captured ∧ t.hostData = s.hostData ∧ t.feL = s.feL ∧ t.feH = s.feH ∧
    t.feI = s.feI ∧ t.grn = s.grn ∧ t.phy = s.phy ∧ t.ntb = s.ntb ∧ t.sch = s.sch ∧ t.car = s.car ∧ t.hst = s.hst ∧
    t.key = s.key ∧ t.tim = s.tim ∧ t.eth = s.eth ∧ t.twn = s.twn ∧ t.aon = s.aon ∧ t.otp = s.otp ∧ t.nvm = s.nvm ∧
    t.free = s.free ∧ t.out = s.out ∧ t.pending = s.pending := by
  unfold State.percNext
  try dsimp only
  (repeat' split) <;> simp

@[simp] theorem State.hurtAt_keeps (s : State) (pos : Nat) (u : Upset) : let t := State.hurtAt s pos u
    t.regs = s.regs ∧ t.staged = s.staged ∧ t.captured = s.captured ∧ t.hostData = s.hostData ∧ t.sys = s.sys ∧
    t.irq = s.irq ∧ t.feL = s.feL ∧ t.feH = s.feH ∧ t.feI = s.feI ∧ t.grn = s.grn ∧ t.phy = s.phy ∧ t.sch = s.sch ∧
    t.car = s.car ∧ t.hst = s.hst ∧ t.key = s.key ∧ t.tim = s.tim ∧ t.eth = s.eth ∧ t.twn = s.twn ∧ t.tst = s.tst ∧
    t.aon = s.aon ∧ t.otp = s.otp ∧ t.nvm = s.nvm ∧ t.free = s.free ∧ t.out = s.out ∧ t.pending = s.pending := by
  unfold State.hurtAt
  try dsimp only
  (repeat' split) <;> simp

@[simp] theorem State.hurtWords_keeps (s : State) (pos : Nat) (hurt : List Upset) : let t := State.hurtWords s pos hurt
    t.regs = s.regs ∧ t.staged = s.staged ∧ t.captured = s.captured ∧ t.hostData = s.hostData ∧ t.sys = s.sys ∧
    t.irq = s.irq ∧ t.feL = s.feL ∧ t.feH = s.feH ∧ t.feI = s.feI ∧ t.grn = s.grn ∧ t.phy = s.phy ∧ t.sch = s.sch ∧
    t.car = s.car ∧ t.hst = s.hst ∧ t.key = s.key ∧ t.tim = s.tim ∧ t.eth = s.eth ∧ t.twn = s.twn ∧ t.tst = s.tst ∧
    t.aon = s.aon ∧ t.otp = s.otp ∧ t.nvm = s.nvm ∧ t.free = s.free ∧ t.out = s.out ∧ t.pending = s.pending := by
  simp [State.hurtWords]

@[simp] theorem State.softError_keeps (s : State) (u : Upset) : let t := State.softError s u
    t.regs = s.regs ∧ t.staged = s.staged ∧ t.captured = s.captured ∧ t.hostData = s.hostData ∧ t.sys = s.sys ∧
    t.irq = s.irq ∧ t.feL = s.feL ∧ t.feH = s.feH ∧ t.feI = s.feI ∧ t.grn = s.grn ∧ t.ntb = s.ntb ∧ t.sch = s.sch ∧
    t.hst = s.hst ∧ t.key = s.key ∧ t.tim = s.tim ∧ t.eth = s.eth ∧ t.twn = s.twn ∧ t.tst = s.tst ∧ t.aon = s.aon ∧
    t.otp = s.otp ∧ t.nvm = s.nvm ∧ t.free = s.free ∧ t.out = s.out ∧ t.pending = s.pending := by
  unfold State.softError
  try dsimp only
  (repeat' split) <;> simp

@[simp] theorem execPercSlice_keeps (faults : List MacroFault) (hurt : List Upset) (s : State) : let t := Outcome.get (execPercSlice faults hurt s) s
    t.staged = s.staged ∧ t.captured = s.captured ∧ t.hostData = s.hostData ∧ t.feL = s.feL ∧ t.feH = s.feH ∧
    t.feI = s.feI ∧ t.grn = s.grn ∧ t.sch = s.sch ∧ t.hst = s.hst ∧ t.key = s.key ∧ t.tim = s.tim ∧ t.eth = s.eth ∧
    t.twn = s.twn ∧ t.aon = s.aon ∧ t.otp = s.otp ∧ t.free = s.free ∧ t.out = s.out ∧ t.pending = s.pending := by
  simp [execPercSlice]

@[simp] theorem execPercCutoff_keeps (s : State) : let t := Outcome.get (execPercCutoff s) s
    t.staged = s.staged ∧ t.captured = s.captured ∧ t.hostData = s.hostData ∧ t.feL = s.feL ∧ t.feH = s.feH ∧
    t.feI = s.feI ∧ t.grn = s.grn ∧ t.phy = s.phy ∧ t.ntb = s.ntb ∧ t.sch = s.sch ∧ t.car = s.car ∧ t.hst = s.hst ∧
    t.key = s.key ∧ t.tim = s.tim ∧ t.eth = s.eth ∧ t.twn = s.twn ∧ t.aon = s.aon ∧ t.otp = s.otp ∧ t.nvm = s.nvm ∧
    t.free = s.free ∧ t.out = s.out ∧ t.pending = s.pending := by
  simp [execPercCutoff]

end Sys2Proof.Machine
end

