-- ==== Sys2Proof/Laws/Table.lean ====
section
/-!
SUPPORT. The node table where it holds an entry without error: the reads and writes of its entry, and the probe (R178,
R189, R196, R197).
-/

namespace Sys2Proof.Machine

theorem State.dirLoc_hasEntry (s : State) (h : BitVec 18) (loc : Nat) (e : Entry) (H : s.hasEntry h loc e) :
    s.dirLoc h = (some loc, s) := by
  obtain ⟨hl, hd, -, -⟩ := H
  simp [State.dirLoc, hd]
  exact hl

theorem State.slotOf_hasEntry (s : State) (h : BitVec 18) (loc : Nat) (e : Entry) (H : s.hasEntry h loc e) :
    s.slotOf h = some (loc, { entry := e, bad := false, perr := 0 }) := by
  simp [State.slotOf, s.dirLoc_hasEntry h loc e H, H.2.2.1, H.2.2.2]

theorem State.entry_hasEntry (s : State) (h : BitVec 18) (loc : Nat) (e : Entry) (H : s.hasEntry h loc e) :
    s.entry h = some e := by
  simp [State.entry, s.slotOf_hasEntry h loc e H]

theorem State.access_hasEntry (s : State) (h : BitVec 18) (loc : Nat) (e : Entry) (src : Nat) (H : s.hasEntry h loc e) :
    s.access h src = (some (loc, { entry := e, bad := false, perr := 0 }), s) := by
  simp [State.access, s.dirLoc_hasEntry h loc e H, H.2.2.1, H.2.2.2, State.checkWords]

theorem State.readEntry_hasEntry (s : State) (h : BitVec 18) (loc : Nat) (e : Entry) (H : s.hasEntry h loc e) :
    s.readEntry h = (some e, s) := by
  simp [State.readEntry, s.dirLoc_hasEntry h loc e H, H.2.2.1, H.2.2.2]

theorem State.updEntry_hasEntry (s : State) (h : BitVec 18) (loc : Nat) (e : Entry) (f : Entry → Entry)
    (H : s.hasEntry h loc e) :
    s.updEntry h f = { s with ntb.slots := mput s.ntb.slots loc { entry := f e, bad := false, perr := 0 } } := by
  simp [State.updEntry, s.access_hasEntry h loc e 5 H]

/-- An update that keeps the handle leaves the entry in place. -/
theorem State.hasEntry_updEntry (s : State) (h : BitVec 18) (loc : Nat) (e : Entry) (f : Entry → Entry)
    (H : s.hasEntry h loc e) (k : (f e).handle = e.handle) : (s.updEntry h f).hasEntry h loc (f e) := by
  rw [s.updEntry_hasEntry h loc e f H]
  exact ⟨H.1, H.2.1, mget_mput_same _ _ _, k.trans H.2.2.2⟩

theorem State.cmdSlot_hasEntry (s : State) (h : BitVec 18) (loc : Nat) (e : Entry) (H : s.hasEntry h loc e) :
    s.cmdSlot h = (some (loc, { entry := e, bad := false, perr := 0 }), s) := by
  simp [State.cmdSlot, s.dirLoc_hasEntry h loc e H, H.2.2.1, H.2.2.2, State.checkWords]

/-- A probe that meets no parity error finds what the table holds and changes nothing. -/
theorem State.probe_finds (s : State) (eui : Word64) (src : Nat) (r : Option Nat) (H : s.probeFinds eui r) :
    s.probe eui src = (r, s) := by
  have one : ∀ k ∈ s.probeLocs eui, s.probeAt eui src k = (decide (r = some k), s) := by
    intro k hk
    simp only [State.probeAt]
    cases hm : mget s.ntb.slots k with
    | none =>
      have : r ≠ some k := by
        intro h
        obtain ⟨-, sl, h1, -⟩ := H.2 k h
        rw [hm] at h1; cases h1
      simp [this]
    | some sl =>
      obtain ⟨hp, hu⟩ := H.1 k hk sl hm
      have back : r = some k → sl.bad = false ∧ sl.entry.eui = eui := by
        intro h
        obtain ⟨-, sl', h1, h2, h3⟩ := H.2 k h
        rw [hm] at h1; cases h1; exact ⟨h2, h3⟩
      have ok : s.checkWords k sl src = (true, s) := by simp [State.checkWords, hp]
      simp only [ok, Bool.true_and]
      by_cases hb : sl.bad = true
      · have : r ≠ some k := fun h => by have := (back h).1; rw [hb] at this; cases this
        simp [hb, this]
      · rw [if_neg hb]
        refine Prod.ext ?_ rfl
        exact decide_eq_decide.mpr ⟨fun h => hu (by simpa using hb) h, fun h => (back h).2⟩
  have fold : ∀ (l : List Nat) (q : Option Nat), (∀ k ∈ l, k ∈ s.probeLocs eui) →
      (q = none ∨ q = r) →
      (l.foldl (fun (r : Option Nat × State) loc =>
        let pr := r.2.probeAt eui src loc
        (if pr.1 && r.1.isNone then some loc else r.1, pr.2)) (q, s)) =
        (if q.isSome then q else if l.any (fun k => r = some k) then r else none, s) := by
    intro l
    induction l with
    | nil => intro q _ _; cases q <;> simp
    | cons k t ih =>
      intro q hl hq
      rw [List.foldl_cons]
      simp only [one k (hl k (List.mem_cons_self ..))]
      rw [ih _ (fun j hj => hl j (List.mem_cons_of_mem _ hj))]
      · cases q with
        | some x => simp
        | none =>
          by_cases h : r = some k
          · simp [h]
          · simp [h]
      · cases q with
        | some x => simpa using hq
        | none => by_cases h : r = some k <;> simp [h]
  unfold State.probe
  rw [fold _ none (fun k hk => hk) (.inl rfl)]
  cases r with
  | none => simp
  | some k =>
    have := (H.2 k rfl).1
    simp [this]

end Sys2Proof.Machine
end

