-- ==== Sys2Proof/Machine/Pcie.lean ====
section
/-!
DEFINITION. What the PCIe port presents (R381, R435): its identity, its configuration header and BAR2, as functions of the
state. Where the words of the header and of an MSI-X table entry stand is PCI Express's layout (log entry 9, PRESUMED).
-/

namespace Sys2Proof.Machine

/-- Vendor ID, Device ID, Revision ID and class code. -/
def pcieVendor : Nat := 0x1F6B
def pcieDevice : Nat := 0x9620
def pcieRevision : Nat := 0xB1
def pcieClass : Nat := 0x028000

/-- Sizes of BAR0 and BAR2 in bytes, MSI-X vectors, largest payload and read request in bytes. -/
def bar0Size : Nat := 0x10000
def bar2Size : Nat := 0x1000
def msixVectors : Nat := 16
def maxPayload : Nat := 256
def maxReadRequest : Nat := 512

/-- A base address as it reads back: the bits below the window's size are zero. -/
def barRead (size : Nat) (b : Word) : Nat := b.toNat / size * size

/-- The 32-bit word at offset `o` of the configuration header. -/
def State.configWord (s : State) (o : Nat) : Nat :=
  match o with
  | 0x00 => pcieVendor + 65536 * pcieDevice
  | 0x04 => 2 * b2n s.hst.pcie.mem + 4 * b2n s.hst.pcie.master
  | 0x08 => pcieRevision + 256 * pcieClass
  | 0x10 => barRead bar0Size s.hst.pcie.bar0
  | 0x18 => barRead bar2Size s.hst.pcie.bar2
  | 0x2C => s.rd Reg.HST_SSVID + 65536 * s.rd Reg.HST_SSID
  | _ => 0

/-- The 32-bit word at offset `o` of BAR2: the MSI-X table at 0x000, 16 bytes a vector, the PBA at 0x800. -/
def State.bar2Word (s : State) (o : Nat) : Nat :=
  if o = 0x800 then s.irq.pba.toNat
  else if o < 0x10 * msixVectors then
    let e := s.irq.table.getD (o / 16) (0, 0)
    match o % 16 / 4 with
    | 0 => e.1 % 2 ^ 32
    | 1 => e.1 / 2 ^ 32 % 2 ^ 32
    | 2 => e.2 % 2 ^ 32
    | _ => b2n (s.irq.vecMask.getLsbD (o / 16))
  else 0

end Sys2Proof.Machine
end

