-- ==== Sys2Proof/Machine/Pins.lean ====
section
/-!
DEFINITION. The pins of the package outside the front ends, as functions of the state (R37, R38, R40 to R42, R58, R79, R80,
R88). The pins of the front-end groups stand in Machine/FrontOps.lean.
-/

namespace Sys2Proof.Machine

/-- ALERT_N is driven low (R42); in reset and in the halted state it is released (R37, R79).
It stays low where the host clears THERM_WARN while the die is hot (R64). -/
def State.alertLow (s : State) : Bool :=
  s.up && !s.halted && (s.rd Reg.SYS_ISL_FLT_L ≠ 0 || s.rd Reg.SYS_ISL_FLT_H ≠ 0 || s.on Reg.SYS_THERM_WARN || s.sys.hotClear || s.on Reg.SYS_VBAT_LOST)

/-- RSTOUT_N is driven low: in reset, in a hold, and until the boot begins (R58). -/
def State.rstoutLow (s : State) : Bool := !s.up || s.rd Reg.SYS_BOOT_STAGE = 0

/-- PPS_OUT is high: for 1 ms from each whole second of a set time base (R41); in reset it is low (R37). -/
def State.ppsHigh (s : State) : Bool := s.up && s.on Reg.TIM_TIME_SET && s.sys.timeNs % 1000000000 < 1000000

/-- ETHx_TXDIS is driven low: from stage 8 on, for a port that is enabled and whose TX_OFF is 0 (R362); in service mode the
port stays as in reset (R80). -/
def State.txDisLow (s : State) (p : EPort) : Bool :=
  s.up && !s.halted && s.live && s.rd Reg.SYS_BOOT_STAGE ≠ 0xE &&
    match p with
    | .A => s.rd Reg.ETH_PORT_MODE_A ≠ 0 && !(s.rd Reg.ETH_TX_OFF).testBit 0
    | .B => s.rd Reg.ETH_PORT_MODE_B ≠ 0 && !(s.rd Reg.ETH_TX_OFF).testBit 1

/-- JTAG is active: in TEST and RMA (R40). In every other state TDO is high-Z. -/
def State.jtagActive (s : State) : Bool := s.rd Reg.SYS_LC_STATE = 1 || s.rd Reg.SYS_LC_STATE = 4

/-- The device is out of reset, is not halted and is not in service mode. -/
def State.serving (s : State) : Bool := s.up && !s.halted && s.rd Reg.SYS_BOOT_STAGE ≠ 0xE

/-- The NVM pins are driven (R37, R88): from stage 4 on, in service mode too; high-Z in reset, before stage 4 and in the halted state,
from the moment PORST_N falls (R55). -/
def State.nvmDriven (s : State) : Bool := s.up && !s.halted && 4 ≤ s.rd Reg.SYS_BOOT_STAGE

/-- The RF balls of a group are terminated, and its transmit balls have no output (R37, R88): in every phase before stage 8, in the
halted state and in service mode. -/
def State.rfTerminated (s : State) : Bool := !s.radioOn

/-- The lanes of a backhaul port leave electrical idle (R88, R362): from stage 8 on, outside service mode, on an enabled port. -/
def State.ethLaneOn (s : State) (p : EPort) : Bool :=
  s.serving && s.live && (match p with | .A => s.rd Reg.ETH_PORT_MODE_A ≠ 0 | .B => s.rd Reg.ETH_PORT_MODE_B ≠ 0)

/-- The lanes of the twin link leave electrical idle: once the registers are sealed, for one of a pair (R37, R390). -/
def State.twnLaneOn (s : State) : Bool := s.serving && s.live && s.on Reg.TWN_TW_EN && s.runs .TWN

/-- The PCIe lanes leave electrical idle (R37, R57, R79, R88, R462): in host mode, from stage 2 on, while PERST_N is high; in the
halted state too. -/
def State.pcieLaneOn (s : State) : Bool :=
  s.up && !s.sys.perst && !s.headless && !s.testMode && 2 ≤ s.rd Reg.SYS_BOOT_STAGE

/-- A claim drives XLOCK from C for 20 µs on the unit with TWIN_ID 0, for 10 µs on the other, and releases it for the sample
(R394). -/
def State.claimDrives (s : State) : Bool :=
  (s.twn.claiming || s.rd Reg.TWN_TW_STATE = 6) && !s.holds &&
    s.sys.uptime - s.twn.claimAt < if s.on Reg.SYS_TWIN_ID then 1250 else 2500

/-- XLOCK is driven low by this unit, by its claim or its hold (R88, R390, R394); in reset, in the halted state and in service
mode it is released. -/
def State.xlockLow (s : State) : Bool := s.serving && (s.holds || s.claimDrives)

/-- TDO may be driven: out of reset, with JTAG active (R37, R40). -/
def State.tdoDriven (s : State) : Bool := s.up && s.jtagActive

end Sys2Proof.Machine
end

