-- ==== Sys2Proof/WellFormed.lean ====
section
/-!
DEFINITION. Which commands are well formed: operands that the row's rule admits (a lane below 96, R128; aerial lists of
four, R134; 64 and 25 points, R114; descriptor and record
sizes, R182, R273). The operand types fix every other range.
-/

namespace Sys2Proof

/-- The well-formedness of a command. A command that is not well formed is no command of the table; its meaning is
defined all the same. -/
def Instr.wf : Instr → Bool
  | .edWindow _ p => p.length == 4
  | .nfWindowDone _ p => p.length == 4
  | .tuneSearchEnd _ _ c f _ => c.length == 64 && f.length == 25
  | .phrReport l _ _ => l < 96
  | .acqTimeout l => l < 96
  | .receptionEnd l r => l < 96 && r.rssi.length == 4
  | .txDescFetch _ d _ => d.length == 32
  | .tblDescFetch r => r.length == 64
  | .dmaError r => r.toNat ≤ 32
  | .eventLatch n => n.toNat < 192
  | .srcEnWrite n _ => n.toNat < 192
  | .pendClear c => c.src.toNat < 192
  | .tgtWrite n _ => n.toNat < 192
  | _ => true

end Sys2Proof
end

