-- ==== Sys2Proof/Tests/Slice0.lean ====
section
/-!
SUPPORT. Tests of this model: ill-formed commands refused, the worked examples of the spec, and for each obligation with
hypotheses a theorem `wit_<obligation>` that shows concrete states and operands which meet them, clause by clause.
-/

open Sys2Proof Sys2Proof.Machine

namespace Sys2Proof.Tests

set_option Elab.async false

/-! ### Ill-formed commands -/

/-- A reception of three RSSI values. -/
def badReception : Reception := { soft := [], mic := none, plain := [], rssi := [0, 0, 0], snr := 0, cfo := 0, tones := [] }

/-- One ill-formed command for each check of `Instr.wf`, each refused. -/
theorem test_ill_formed_refused : ([.edWindow 0 [0, 0, 0], .nfWindowDone 0 [], .phrReport 96 [] [], .acqTimeout 96,
    .receptionEnd 96 { badReception with rssi := [0, 0, 0, 0] }, .receptionEnd 0 badReception, .txDescFetch 0 [1] [],
    .tblDescFetch [1], .dmaError 33, .eventLatch 192, .srcEnWrite 192 true, .pendClear ⟨255, false⟩, .tgtWrite 192 0] :
    List Instr).all (fun i => !i.wf) = true := by decide +kernel

/-- Commands at the bound of each check are well formed. -/
theorem test_well_formed : ([.phrReport 95 [] [], .acqTimeout 95, .dmaError 32, .eventLatch 191, .mirrorCut] :
    List Instr).all Instr.wf = true := by decide +kernel

/-- The table gives no row bits: no word spells a command. -/
theorem test_no_table_words : decodeTableWord 0 0 = none ∧ decodeTableWord 64 0xFFFF = none := by decide

/-! ### States for tests -/

/-- The state after a command. -/
def after (c : Instr) (s : State) : State := Outcome.get (exec c s) s

/-- Set fields. -/
def sets (s : State) (l : List (Fld × Nat)) : State := l.foldl (fun (s : State) p => s.wr p.1 p.2) s

/-- A device in service: DEPLOYED, sealed, RUNNING, its time base set, the link up. -/
def tRun : State :=
  sets { State.reset with
    sys := { State.reset.sys with hold := .none, linkUp := true, meshRun := true, uptime := 10000000, timeNs := 5000000000 },
    key := { State.reset.key with lc := 3 } }
    [(Reg.SYS_BOOT_STAGE, 0xD), (Reg.SYS_SEAL, 1), (Reg.SYS_LC_STATE, 3), (Reg.KEY_KSTATE, 1), (Reg.TIM_TIME_SET, 1)]

/-- An entry that is ACTIVE under handle 5. -/
def tEntry : Entry :=
  { eui := 0x1122, handle := 5, state := .active, lock := false, hit := false, amark := false, gen := 1, chan := 0, opt := 0,
    mcs := 0, tl := false, tmap := 0, nlp := 1, pin := false, wheeled := false, qne := false, fcntUl := 10, dsnUl := 3,
    dsnDl := 0, ulSeq := 0, lastContact := 5000, clkOfs := 0, drift := 0, dNode := 0, g0 := 0, miss := 0, wakeInt := 1000,
    repeatLim := 3, wcls := 0, wakePhase := 0, mcGrp := 0, qHead := 0, qTail := 0 }

/-- Location 7 of the table holds an entry under its handle. -/
def withEntry (s : State) (e : Entry) (loc : Nat) : State :=
  { s with ntb := { s.ntb with slots := [(loc, ⟨e, false, 0⟩)], dir := [(e.handle.toNat, ⟨BitVec.ofNat 19 loc, false⟩)] } }

/-- A downlink frame that waits at a group. -/
def tTx : TxItem :=
  { kind := .dl, grp := .L, copy := ⟨5, 0, 0, 0, false, 0, 0, 1, 1, 0⟩, eui := 0x1122, seq := 1, idx := 0, gid := 0, epoch := 0,
    prio := 3, first := 5001000000, dur := 1000000, fence := false, host := true, secured := false, ready := true, start := false,
    ies := [], own := 0, body := [0], level := 0, key := none, ppdu := none, phase := .waiting }

/-- A burst of given frames on port 0. -/
def tBurst (l : List TxItem) : Burst :=
  { first := 5001000000, e := 5002000000, port := some 0, frames := l, search := none, paOn := none, trOn := 0, drvOn := 0, req := false,
    ramp := 10000, lead := 0, lag := 0, pwr := 0, aux := [], allow := true }

def withNvm (s : State) (l : List Host.Cell) : State := { s with nvm := { s.nvm with bytes := l } }

/-- A Bool form of `probeFinds`. -/
def finds (s : State) (eui : Word64) (r : Option Nat) : Bool :=
  (s.probeLocs eui).all (fun k => match mget s.ntb.slots k with
    | none => true
    | some sl => sl.perr = 0 && (sl.bad || sl.entry.eui ≠ eui || r = some k)) &&
  match r with
  | none => true
  | some k => (s.probeLocs eui).contains k && match mget s.ntb.slots k with
    | none => false
    | some sl => !sl.bad && sl.entry.eui = eui

theorem findsOk {s : State} {eui : Word64} {r : Option Nat} (h : finds s eui r = true) : s.probeFinds eui r := by
  simp only [finds, Bool.and_eq_true, List.all_eq_true] at h
  refine ⟨fun k hk sl hs => ?_, fun k hk => ?_⟩
  · have := h.1 k hk
    simp only [hs, Bool.and_eq_true, Bool.or_eq_true, decide_eq_true_eq] at this
    refine ⟨this.1, fun hb he => ?_⟩
    rcases this.2 with (h1 | h1) | h1
    · simp [hb] at h1
    · exact absurd he h1
    · exact h1
  · have h2 := h.2
    subst hk
    simp only [Bool.and_eq_true, List.contains_iff_mem] at h2
    refine ⟨h2.1, ?_⟩
    cases hm : mget s.ntb.slots k with
    | none => simp [hm] at h2
    | some sl => simp [hm] at h2; exact ⟨sl, rfl, by simpa using h2.2⟩
theorem optNone {α : Type} {o : Option α} {p : α → Prop} (h : o = none) : ∀ x, o = some x → p x := by
  intro x hx
  simp [h] at hx

/-! ### States of the witnesses -/

def wFe (x : GrpSt) : State :=
  { sets tRun [(Reg.FE_SYN_STATE .L, 3), (Reg.FE_GRP_EN .L, 1), (Reg.TWN_TW_HOLD, 1)] with feL := x }
def wCal : State := wFe { GrpSt.empty with cal := some ⟨0, false⟩, gap := true }
def wIdle : State := wFe GrpSt.empty
def wSyn (n : Nat) : State := wCal.wr (Reg.FE_SYN_STATE .L) n
def wFrm (p : Phase) : TxItem := { tTx with phase := p }
def wWait (p : Phase) : State := wFe { GrpSt.empty with wait := [wFrm p] }
def wNext : TxItem := { tTx with first := 5001500000 }
def wJoin : State := wFe { GrpSt.empty with burst := some (tBurst []), arrive := [wNext] }
def wAir (p : Phase) : State := wFe { GrpSt.empty with burst := some (tBurst [wFrm p]) }
def wNoCx (p : Phase) : State := (wAir p).wr (Reg.FE_COEX_EN .L) 0
def wReqd : Burst := { tBurst [] with req := true }
def wReqs : State := wFe { GrpSt.empty with burst := some wReqd, wait := [wNext] }
def wSearch : Burst := { tBurst [] with search := some 2, port := some 2 }
def wTune : State := wFe { GrpSt.empty with tune := some ⟨2, 0⟩, gap := true }
def wTone : State := wFe { GrpSt.empty with tune := some ⟨2, 0⟩, burst := some wSearch }
def wPlan (l : List (Nat × Word)) : State :=
  { wIdle with
    grn := { wIdle.grn with plan := l, live := l, nf := [(6, ⟨[100, 100, 100, 100], some 0⟩)] } }
def wGrn : State := wPlan [(5, 0x101F0000), (6, 0x103F0000)]
def wCap (c : CapChange) : State := { wGrn with grn := { wGrn.grn with cap := [(5000, c)] } }
def wScan : State := { wGrn with sch := { wGrn.sch with scan := some [4] } }
def wLane (e : Byte) (d : Bool) (len : Nat) : Lane :=
  { ent := e, opt := 0, metric := 50, since := 10000000, decoding := d, priv := false, aer := 15, mcs := 3, len := len, scr := 0, rsv := false }
def wLanes : State :=
  { (wPlan [(5, 0x101F0000), (6, 0x103F0000), (7, 0x101F0000)]) with
    grn := { (wPlan [(5, 0x101F0000), (6, 0x103F0000), (7, 0x101F0000)]).grn with lanes := [(0, wLane 7 false 0), (1, wLane 9 true 0)] } }
def wNoNf : State := { wGrn with grn := { wGrn.grn with nf := [] } }
def wQual : State := { wGrn with grn := { wGrn.grn with qual := [6] } }
def softOf (l : List Bool) : List Int := l.map (fun b => if b then 1 else -1)
def wSym (rate len : Nat) : List Int :=
  softOf (interleave 1 1 (encode (phrBits rate len 2) ++ List.replicate 24 false))
def wLate : State := { wLanes with grn := { wLanes.grn with late := [0] } }
def wMpdu (ack : Bool) : List Byte := [(if ack then 0x61 else 0x41), 0xE0, 4, 0x22, 0x11, 0, 0, 0, 0, 0, 0]
def wSoft (b : List Byte) : List (List Int) :=
  let c := encodeRate (mcsRate 3) (psduBits 0 (nDbps 0 3) (b ++ fcsOf true b))
  (chunks (mcsCbps 0 3) c.length c).map (fun x => softOf (interleave (mcsRep 3) (mcsMod 3).bits x))
def wRec (b : List Byte) : Reception :=
  { soft := wSoft b, mic := none, plain := [], rssi := [0, 0, 0, 0], snr := 0, cfo := 0, tones := [300] }
def wNoRec : Reception := { soft := [], mic := none, plain := [], rssi := [], snr := 0, cfo := 0, tones := [] }
def wDec (n : Nat) : State := { wGrn with grn := { wGrn.grn with lanes := [(3, wLane 5 true n)] } }
def wPsdu (ack : Bool) : Psdu :=
  { eui := 0x1122, fc := 0, dsn := 4, ackReq := ack, enhAck := false, level := 0, mic := none, ies := [], body := wMpdu ack }
def wUl (copy : Option EntryCopy) (ack : Bool) : UlItem :=
  { id := 3, grp := .L, rx := { endTime := 4999000000, chan := 5, opt := 0, mcs := 0, aerMask := 15, metric := 50, rssi := [0, 0, 0, 0], snr := 0, cfo := 0, priv := false },
    psdu := wPsdu ack, tones := [], copy := copy, ulSeq := 0, epoch := 0, auth := .unchecked, dup := false }
def wPhyUl : State := { tRun.wr Reg.PHY_TL_MODE 0 with phy := { tRun.phy with ul := [wUl none false] } }
def wPhyTx : State := { tRun with phy := { tRun.phy with tx := [tTx] } }
def wMap (u : Nat) : TMap := { TMap.zero with valid := true, users := u }
def wMaps (u : Nat) : State := { tRun with phy := { tRun.phy with tmaps := [(0, wMap u), (9, wMap 2)] } }
def wTab : State := withEntry tRun tEntry 18012
def wPw (gen : Byte) : PropWrite :=
  { handle := 5, gen := gen, tmap := 9, action := 0, chan := 0, last := 0, prop := TMap.zero }
def wPws (gen : Byte) : State := { wTab with phy := { wTab.phy with propWrites := [wPw gen] } }
def wNtbUl (s : State) : State := { s with ntb := { s.ntb with ul := [wUl none false] } }
def wNtbSby : State := ((wNtbUl wTab).wr Reg.TWN_TW_EN 1).wr Reg.TWN_TW_STATE 4
def wCmd (op flags : Byte) (eui : Byte) : TblCmd :=
  { seq := 40, bytes := [op, flags, 0x08, 0, 5, 0, 0, 7, 0, 0, 0, 0, 0, 0, 0, 0, eui] ++ List.replicate 47 0, tunnel := false, aborted := false }
def wCmdOn (s : State) (op flags : Byte) (eui : Byte) : State :=
  { s with
    ntb := { s.ntb with cmdQ := [wCmd op flags eui] } }
def wJoining : Entry := { tEntry with state := .joining }
def wJTab : State := withEntry tRun wJoining 18012
def wBusy : Entry := { tEntry with lock := true, qne := true }
def wBTab : State := withEntry tRun wBusy 18012
def wLook : TblCmd := { wCmd 6 0 0x22 with bytes := [6, 0, 0, 0, 0, 0, 0, 0, 0, 0, 0, 0, 0, 0, 0, 0, 0x22, 0x11] }
def wLk (s : State) : State := { s with ntb := { s.ntb with cmdQ := [wLook] } }
def wDown : State := { tRun with sys := { tRun.sys with linkUp := false } }
def wDone (t : Bool) : TblDone := { (wCmd 3 0 0).fail stREFUSED 4 with tunnel := t }
def wSlots (l : List (Nat × Slot)) : State :=
  { tRun with
    ntb := { tRun.ntb with slots := l, dir := l.map (fun p => (p.2.entry.handle.toNat, ⟨BitVec.ofNat 19 p.1, false⟩)) } }
def wStash : State := (wSlots [(stashLoc 4, ⟨tEntry, false, 0⟩)]).wr Reg.NTB_STASH_DRAIN 1
def wEnt (hit amark : Bool) : Entry := { tEntry with hit := hit, amark := amark }
def wSweep (h a : Bool) : State :=
  ((wSlots [(18012, ⟨wEnt h a, false, 0⟩)]).wr Reg.NTB_SWEEP_POS 18012).wr Reg.NTB_SWEEP_PER 1
def wSweepLast : State :=
  ((wSlots [(0x4000F, ⟨tEntry, false, 0⟩)]).wr Reg.NTB_SWEEP_POS 0x4000F).wr Reg.NTB_SWEEP_PER 1
def wCmp (h : Bool) : State := { wSweep h true with ntb := { (wSweep h true).ntb with sweepCmp := some 18012 } }
def wLocked : Entry := { tEntry with lock := true }
def wLocks : State :=
  { (wSlots [(18012, ⟨wLocked, false, 0⟩)]) with
    ntb := { (wSlots [(18012, ⟨wLocked, false, 0⟩)]).ntb with locks := [(5, 0)] } }
def tHdr (seq : BitVec 16) : Hdr :=
  { ikind := 0, wd := false, sendMap := false, handle := 5, prio := 3, tlpol := 0, ovr := false, seq := seq, ring := 0, desc := 0, expiry := 0,
    tries := 1, naks := 0, dsn := 0, skips := 0, smiss := false, ochan := 0, oopt := 0, omcs := 0, rx := none }
def wItem (seq : BitVec 16) : QItem := { hdr := some (tHdr seq), body := [1], cells := [0], enq := 0, note := .plain }
def wPurge : State :=
  { tRun with
    car := { tRun.car with purge := [5], orphans := [(5, { items := [wItem 1], read := 0, mark := 0, enqs := 1 })] } }
def wBucket (w : List WEvent) : State := { tRun with sch := { tRun.sch with lastBucket := some 5000, wheel := w } }
def wEv (ms : Nat) : WEvent := { handle := 5, wk := 0, p := 1000 * (ms : Int) }
def wDriftE : Entry := { tEntry with lastContact := 0, wakeInt := 1000, wakePhase := 1, dNode := 15, g0 := 255 }
def wDriftEv : WEvent := { handle := 5, wk := 5001, p := 5001000 }
def wDriftC : Entry := { wDriftE with chan := 5, wheeled := true }
def wDriftS : State :=
  withEntry { wGrn with sch := { wGrn.sch with lastBucket := some 5000, wheel := [wDriftEv] } } wDriftC 18012
def wOvf : State := { tRun with sch := { tRun.sch with ovf := [wEv 70000] } }
def wOld : Entry := { tEntry with lastContact := 5000 - 0x40000001 }
def wNoWake : Entry := { tEntry with wakeInt := 0 }
def wNoWakes : State := (withEntry tRun wNoWake 18012).wr Reg.SCH_PRED_HANDLE 5
def wNoNtb : State := (wTab.wr Reg.SCH_PRED_HANDLE 5).setRun .NTB false
def wSchUl (s : State) (u : UlItem) : State := { s with sch := { s.sch with ul := [u] } }
def wUlCopy (fc : Word) (dsn : Byte) : UlItem :=
  { wUl (some (tEntry.copy 4 11)) false with
    psdu := { wPsdu false with fc := fc, dsn := dsn } }
def wStby : State := ((wSchUl tRun (wUl none false)).wr Reg.TWN_TW_EN 1).wr Reg.TWN_TW_STATE 4
def wUnk : State := ((wSchUl tRun (wUl none false)).wr Reg.SCH_JOIN_AUTO 0).wr Reg.SCH_UNK_DELIVER 0
def wJoinUl : UlItem :=
  { wUl none true with
    psdu := { wPsdu true with ies := [(tRun.rd Reg.SCH_IE_JOIN_ID, [1, 2, 3, 4, 5, 6, 7, 8, 9])] } }
def wUnkJ : State := ((wSchUl tRun wJoinUl).wr Reg.SCH_JOIN_AUTO 1).wr Reg.SCH_UNK_DELIVER 0
def wJoinQ : State := { tRun with sch := { tRun.sch with joinQ := [wJoinUl] } }
def wTryQ (tries : Nat) : Hdr := { tHdr 1 with tries := tries }
def wTryItem (tries : Nat) : QItem := { wItem 1 with hdr := some (wTryQ tries) }
def wTry (tries : Nat) : State :=
  { wTab with
    car := { wTab.car with nodeQs := [(5, { items := [wTryItem tries], read := 1, mark := 0, enqs := 0 })] } }
def tTry : Try :=
  { kind := .dl, grp := .L, handle := 5, seq := 1, dsn := 3, chan := 5, idx := 0, first := 4990000000, dur := 1000000,
    committed := true, start := false, opp := false, rep := 3 }
def wWin : State := { wTry 1 with sch := { (wTry 1).sch with tries := [tTry] } }
def wBcn : State := ((wGrn.wrI Reg.SCH_BCN_CFG 2 1).wrI Reg.SCH_BCN_ENT 2 5).wr Reg.SYS_CAP_BANDS 7
def wBlock : QItem := { hdr := some { tHdr 0 with ikind := 3 }, body := [1], cells := [0], enq := 0, note := .plain }
def wMcQ : State :=
  { wGrn with
    car := { wGrn.car with sysQs := [(0x1A, { items := [wBlock], read := 0, mark := 0, enqs := 1 })] } }
def wMc : State := (((wMcQ.wrI Reg.SCH_MC_EN 2 1).wrI Reg.SCH_MC_ENT 2 5).wrI Reg.SCH_MC_BINT 2 100)
def wAbt : State := wTab.wr Reg.SYS_ABT_HANDLE 5
def wAbtF : State :=
  { (wAbt.wr Reg.SYS_ABT_SEQ 1) with
    car := { wAbt.car with nodeQs := [(5, { items := [wItem 1], read := 0, mark := 0, enqs := 0 })] } }
def wAbtCmd : State := (wCmdOn wTab 3 0 0).wr Reg.SYS_ABT_SEQ 40
def wRing (r : Nat) : State :=
  ((wTab.wrB Reg.HST_RING_EN 0 r 1).wrB Reg.HST_RING_PROD 0 r 2).wrB Reg.HST_RING_SIZE 0 r 8
def wDesc : List Byte :=
  [5, 0, 0, 0, 0, 0, 0, 0, 2, 0, 1, 0, 0, 0, 0, 0, 0, 0, 0, 0, 0, 0, 0, 0, 0, 0, 0, 0, 0, 0, 0, 0]
def wWaiting : WaitItem := { tgt := .node 5, hdr := tHdr 2, body := [1, 2] }
def wFull : State := wTab.wr Reg.CAR_TX_RSV 0xFFFF
def wAdmit : State := { wTab with car := { wTab.car with admitQ := [wWaiting] } }
def wQed : State :=
  { wTab with
    car := { wTab.car with nodeQs := [(5, { items := [wItem 1], read := 0, mark := 0, enqs := 1 })] } }
def wTxS (d : Option TxDone) (q : Option Word) : TxSlot :=
  { idx := 0, tgt := 0, handle := 5, hseq := 1, enqueued := true, done := d, tunSeq := q }
def wTxD : TxDone :=
  { status := stCOMPLETED, reason := 0, tries := 1, skips := 0, dsn := 3, hseq := 1, smiss := false }
def wCompl (d : Option TxDone) (q : Option Word) : State :=
  { wRing 0 with
    hst := { (wRing 0).hst with txSlots := [(0, wTxS d q)] } }
def wRxItem : QItem :=
  { hdr := some { tHdr 0 with ikind := 4, ring := 1 }, body := [7, 8], cells := [0], enq := 0, note := .plain }
def wSys (q : Nat) (it : QItem) : State :=
  { wRing 17 with
    car := { (wRing 17).car with sysQs := [(q, { items := [it], read := 0, mark := 0, enqs := 1 })] } }
def wEvItem : QItem :=
  { hdr := none, body := [7, 8, 9, 0, 0, 0, 0, 0, 0, 0, 0, 0, 0, 0, 0, 0], cells := [0], enq := 0, note := .plain }
def wStore : KeyStore := { KeyStore.empty with good := true, epoch := 9, left := 200, net := 77, sgen := 2 }
def wKey (s : State) : State := { s with aon := { s.aon with store := wStore } }
def wMic (m : Option Key) : UlItem := { wUl none false with psdu := { wPsdu false with mic := m, level := 5 } }
def wKeyUl (u : UlItem) : State := { wKey tRun with key := { tRun.key with ul := [u], prevEpoch := some (77, 8) } }
def wNoKey : State := (wKeyUl (wMic none)).wr Reg.KEY_KSTATE 2
def wLevel : UlItem := { wUl none false with psdu := { wPsdu false with level := 4 } }
def wMicE (e : Byte) : UlItem := wMic (some (.link 77 e 0x1122))
def wDl (f : Bool) : TxItem := { tTx with epoch := 9, fence := f }
def wSec (f : TxItem) : State := { wKey tRun with key := { tRun.key with tx := [f] } }
def wBeacon : TxItem := { tTx with kind := .beacon, gid := 0xFF }
def wBeaconG : TxItem := { tTx with kind := .beacon, gid := 3 }
def wStale : TxItem := { tTx with epoch := 8 }
def wExh : State := (wSec (wDl false)).wr Reg.KEY_FC_NEXT 0xFFFFFFFF
def wAhead : TxItem := { tTx with phase := .checked, secured := true, epoch := 8 }
def wChg (l : List TxItem) : State :=
  { wKey (wFe { GrpSt.empty with burst := some (tBurst l) }) with
    key := { tRun.key with epochPend := true, epochOld := some (77, 8), egress := 9 } }
def wDep : State :=
  { wKey tRun with
    key := { tRun.key with rawRoot := some 1, pufKey := some 3 },
    otp := { tRun.otp with lc0 := 7, lc1 := 7, lc2 := 7, ownerPub := some 6, ownerSet := 2, ownerRoot := some ⟨.slot 3 3, 8⟩ } }
def wProv : State :=
  { wKey tRun with
    key := { tRun.key with rawRoot := some 1, pufKey := some 3, lc := 2 },
    otp := { tRun.otp with lc0 := 3, lc1 := 3, lc2 := 3 } }
def tKu (s : State) (kind : Byte) : KuMsg :=
  let keys := leBytes 4 1 ++ leBytes 32 78 ++ [3, 1, 0, 0] ++ leBytes 32 5
  let plain := if kind = 1 then leBytes 64 6 ++ [2, 0, 0, 0] ++ leBytes 32 8 ++ keys else if kind = 2 then keys else []
  { bytes := [0x4F, 0x4B, 0x55, 0x4D, 2, kind] ++ leBytes 2 3 ++ leBytes 2 plain.length ++ [2, s.key.lc.setWidth 8, 0, 0, 0, 0] ++
      leBytes 32 s.devIdent.toNat ++ List.replicate 16 0 ++ plain ++ List.replicate 2692 0,
    terms := { plain := plain, signer := some 6, sealedUnder := s.key.rawRoot.map (fun r => Key.transport r s.key.lc s.devIdent) } }
def wTo : ReplyTo := { src := .management, ip := 0, port := 9, ver := 2 }
def wKu (s : State) (m : KuMsg) : State := { s with key := { s.key with msgQ := [(wTo, m)] } }
def wBad (kind : Byte) : KuMsg :=
  { bytes := [0, 0, 0, 0, 2, kind], terms := { plain := [], signer := none, sealedUnder := none } }
def wTmp : State :=
  { (wKey tRun).wr Reg.KEY_TAMPER_EN 0x3F with
    nvm := { tRun.nvm with copies := [⟨0, 1, none, wStore⟩] },
    key := { tRun.key with rawRoot := some 1, ul := [wUl none false] },
    otp := { tRun.otp with lc0 := 7, lc1 := 7, lc2 := 7 } }
def wTmpM : State := { wTmp with key := { wTmp.key with ul := [], msgQ := [(wTo, wBad 2)] } }
def wHeld (h : Hold) : State := { wTmp with sys := { wTmp.sys with hold := h } }
def tRecOf (op : Byte) (value : Nat) (data : List Byte) : SessRec :=
  { bytes := [op, 1, 7, 0, 0, 0, 4, 0] ++ leBytes 4 value ++ List.replicate 36 0 ++ data }
def tRec (op : Byte) : SessRec := tRecOf op 4096 []
def wMb : ReplyTo := { src := .mailbox, ip := 0, port := 0, ver := 3 }
def wSes (r : SessRec) (x : Option Sess) : State :=
  { tRun with
    sys := { tRun.sys with sessQ := [(wMb, r)], sess := x, sessNo := 7 } }
def tSess (len next : Nat) : Sess :=
  { src := .mailbox, num := 7, kind := 1, len := len, next := next, lastCrc := 0, answered := 0 }
def wBlk : SessRec := tRecOf 2 (crc32 [3, 0, 0, 0]).toNat [3, 0, 0, 0]
def wX : Sess := tSess 4 0
def cells (a : Nat) (l : List Byte) : List Host.Cell := (l.zipIdx.map (fun p => (⟨a + p.2, p.1⟩ : Host.Cell)))
def wCommit : State :=
  { wSes (tRec 3) (some (tSess 4096 1)) with
    nvm := { tRun.nvm with bytes := cells 0x810000 [0x4F, 0x49, 0x4D, 0x47, 1, 1, 0, 0, 0, 0, 0, 0, 0, 0x10, 0, 0] } }
def wShort : Sess := tSess 8192 1
def wOpen : State := { tRun with sys := { tRun.sys with sess := some wShort } }
def wKill (c : Nat) : State := { tRun with sys := { tRun.sys with commitAt := some c } }
def wAtt (seg : Nat) : State :=
  { sets (wSes (tRec 0x10) none) [(Reg.KEY_ATT_READY, 1), (Reg.KEY_ATT_LEFT, 100), (Reg.KEY_ATT_TOKENS, 16), (Reg.KEY_ATT_NEXT, seg)] with
    otp := { tRun.otp with attSeg := 3 } }
def tAtt : Attest := { reply := wTo, nonce := 0, leaf := 5 }
def wSign : State := { tRun with key := { tRun.key with attest := some tAtt } }
def wGen : State :=
  { tRun.wr Reg.SYS_BOOT_STAGE 6 with
    key := { tRun.key with lc := 2, rawRoot := some 1, pufKey := some 3 } }
def wCache : State :=
  { tRun with
    key := { tRun.key with slot4Ok := true }, otp := { tRun.otp with attRoot := some 4 } }
def tEv (src : Nat) : EventItem := { src := src, seq := 0 }
def wIrqQ (src : Nat) : State :=
  { tRun with
    irq := { tRun.irq with events := [tEv src], msixEn := true, vecMask := 0xFFFE } }
def wIrq (src : Nat) (en : Nat) (tgt : Nat) : State :=
  (((wIrqQ src).wrI Reg.IRQ_SRC_CTL_EN src en).wrI Reg.IRQ_SRC_CTL_TGT src tgt)
def wPend : State := (tRun.wrI Reg.IRQ_SRC_CTL_PEND 17 1).wrI Reg.IRQ_SRC_CTL_TGT 17 18
def wCore (b : Bool) : State := { wPend with irq := { wPend.irq with atCore := [(4, true), (17, b)] } }
def wLc : State := { tRun with otp := { tRun.otp with lc0 := 1 } }
def wHold (h : Hold) : State := { tRun with sys := { tRun.sys with hold := h } }
def wHl : State := tRun.wr Reg.SYS_BOOT_MODE 1
def wTest : State := (tRun.wr Reg.SYS_BOOT_MODE 2).wr Reg.SYS_LC_STATE 1
def wBoot (n : Nat) : State :=
  { State.reset.wr Reg.SYS_BOOT_STAGE n with
    sys := { State.reset.sys with hold := .none } }
def wStart (hold : Nat) : State := sets (wBoot 10) [(Reg.TIM_TIME_SET, 1), (Reg.SYS_START_HOLD, hold)]
def wCapd : State := { tRun with captured := [(0x7041, 9)] }
def tDom : DomSt := { DomSt.empty with master := some 0x77, ref := some (5000000500, 10000000), run := 4 }
def wDom (st port : Nat) (x : DomSt) : State :=
  { sets tRun [(Reg.ETH_EP_MAC, 2), (Reg.TIM_DOM_STATE .A, st), (Reg.TIM_MASTER_PORT .A, port)] with
    tim := { tRun.tim with domA := x } }
def wTrk : State := wDom 3 1 tDom
def wNoSrc : State := { tRun.wr Reg.TIM_SRC 1 with tim := { tRun.tim with holdF := 5, sel := some .A } }
def wNotSet (s : State) (p : Nat) : State :=
  sets s [(Reg.SYS_BOOT_STAGE, 10), (Reg.TIM_TIME_SET, 0), (Reg.SYS_TIME_POLICY, p)]
def tPtp (m : Word64) (dom : Byte) : PtpHdr :=
  { port := .A, version := 2, minor := 1, domain := dom, udp6 := false, master := m, seqId := 8, corr := 6 }
def tAnn : PtpAnn :=
  { prio1 := 0, clockClass := 6, accuracy := 0, variance := 0, prio2 := 0, gmId := 1, stepsRemoved := 0,
    utcOffset := 37, logInterval := 0 }
def tFor (p : EPort) (l : Nat) : Foreign := { id := 0x77, port := p, ann := tAnn, last := l, prev := none }
def wFor (l : Nat) : State := wDom 1 0 { DomSt.empty with foreign := [tFor .A l] }
def wTwo : State := wDom 3 1 { tDom with foreign := [tFor .A 5, tFor .B 6] }
def tSync (t1 : Option Int) : SyncSt := { seqId := 8, t2 := 5000000000, t1 := t1, corr := 2 }
def wSync (t1 : Option Int) : State := wDom 3 1 { tDom with sync := some (tSync t1), req := some (8, 5000000100) }
def wPorts : State := after (.linkChange .B true false) (after (.linkChange .A true false) tRun)
def tFrame (n : Nat) (p : EthPayload) : EthFrame :=
  { len := n, da := 1, sa := 2, vlans := [], fcsOk := true, egressBusy := false, fits := true, payload := p }
def tEvt : PtpFrame :=
  { version := 2, event := true, transport := 0, corr := 100, residence := 50, msgLen := 44, udpLen := 0,
    extHdr := false, udpSumZero := false }
def wReasm : State := { tRun with eth := { tRun.eth with reasm := [⟨9, [(0, 8, true)]⟩] } }
def tDgOf (port : Nat) (ver chan type : Byte) (seq ack : Word) (epoch : Byte) (tag : Option Key) (b : List Byte) : Dgram :=
  { port := port, srcIp := 9, srcPort := 10, tag := tag, ku := { plain := [], signer := none, sealedUnder := none },
    bytes := dgHeader ver chan type 0 0 seq ack b.length epoch ++ b ++ List.replicate 16 0 }
def wEp : State := { sets tRun [(Reg.ETH_EP_MAC, 2)] with key := { tRun.key with rawRoot := some 1 } }
def tMgOf (ver type : Byte) (tag : Option Key) : Dgram := tDgOf (wEp.rd Reg.ETH_MGT_PORT) ver 1 type 5 0 0 tag []
def tMg : Dgram := tMgOf 2 3 none
def tShortDg : Dgram := { tMg with bytes := tMg.bytes.take 47 }
def wZero : State := { wEp with key := { wEp.key with zeroised := true } }
def wMk : Key := .mgmt 1 3 0
def tTag : Dgram := tMgOf 2 3 (some wMk)
def tOdd : Dgram := tMgOf 2 9 (some wMk)
def wSeq : State := { wEp with eth := { wEp.eth with mgtRx := 5 } }
def wTun : State := (sets (wKey tRun) [(Reg.ETH_EP_MAC, 2), (Reg.SYS_BOOT_MODE, 1)]).wrI Reg.ETH_HE_IP6 0 1
def wTk : Key := .tunnel 77 9 0
def tTd (ty : Byte) (seq ack : Word) : Dgram :=
  tDgOf (wTun.rd Reg.ETH_TUN_PORT) 2 2 ty seq ack 9 (some wTk) (if ty = 0x1F then [] else 3 :: List.replicate 63 0)
def wReqItem (d : Dgram) : QItem :=
  { hdr := some { tHdr 0 with ikind := 6 }, body := d.payload, cells := [0], enq := 0, note := .request d }
def wReq (d : Dgram) : State :=
  { wEp with
    car := { wEp.car with sysQs := [(0x20, { items := [wReqItem d], read := 0, mark := 0, enqs := 1 })] } }
def tReq (ty : Byte) : Dgram := tMgOf 2 ty (some wMk)
def tOut : QItem :=
  { hdr := some { tHdr 0 with ikind := 7 }, body := [1], cells := [0], enq := 0, note := .tunnel 5 0x90 }
def wTd (d : Dgram) : State :=
  { sets wTun [(Reg.ETH_TUN_RX_NEXT, 4), (Reg.ETH_TUN_TX_NEXT, 6), (Reg.ETH_TUN_TX_ACKED, 1)] with
    eth := { wTun.eth with dgrams := [(true, d)] },
    car := { wTun.car with sysQs := [(0x22, { items := [tOut], read := 0, mark := 0, enqs := 1 })] } }
def wAckDue : State := { wTun with eth := { wTun.eth with ackDue := true } }
def wDrain (q : Nat) : State :=
  { wTun with
    car := { wTun.car with sysQs := [(q, { items := [if q < 0x12 then wRxItem else wEvItem], read := 0, mark := 0, enqs := 1 })] } }
def wRto : State :=
  { wTun with
    eth := { wTun.eth with rtoCnt := 2 },
    car := { wTun.car with sysQs := [(0x22, { items := [tOut], read := 0, mark := 0, enqs := 1 })] } }
def wTw (st hold : Nat) (x : TwnSt) : State :=
  { sets tRun [(Reg.TWN_TW_EN, 1), (Reg.TWN_TW_STATE, st), (Reg.TWN_TW_HOLD, hold), (Reg.TWN_TW_LINK, 1)] with
    twn := x }
def tHb (st : Byte) (ok : Bool) : Heartbeat :=
  { bytes := hbClose ([1, st, 0x22] ++ List.replicate 9 0 ++ leBytes 4 3 ++ leBytes 8 5000000000 ++ List.replicate 12 0) ++ (if ok then [] else [0]),
    timeSet := true, rate := 0 }
def tCyc (e : Bool) (f : Bool) (d r : Nat) : MirCycle :=
  { n := 1, cutMs := 4998, full := f, endSeen := e, declared := d, received := r, badCrc := 0, completesCopy := true,
    bytes := 64, slots := [], dir := [], nodeQs := [], sysQs := [], tmaps := [], regs := [], goneSlots := [],
    goneDir := [], goneQs := [], goneCells := [] }
def tEndRec : QItem := { hdr := none, body := [3], cells := [0], enq := 0, note := .mirror 1 }
def wSend : State :=
  { wTw 2 1 { TwnSt.empty with sending := [tCyc true true 0 0] } with
    car := { tRun.car with sysQs := [(0x28, { items := [tEndRec], read := 0, mark := 0, enqs := 1 })] } }
def wClm : State := { tRun with twn := { tRun.twn with claiming := true } }
def wClaim (f : BitVec 3) : State := wTw 6 0 { TwnSt.empty with from_ := f }
def wTko : State := wTw 6 1 { TwnSt.empty with from_ := 4 }
def wAct : State := wTw 2 1 { TwnSt.empty with joined := true, base := some ⟨[], [], [], [], []⟩ }
def wFullAct : State := wTw 2 1 { TwnSt.empty with joined := true }
def wSel : State :=
  { wAct with
    car := { wAct.car with sysQs := [(0, { items := [{ tEndRec with cells := List.range 8193 }], read := 0, mark := 0, enqs := 1 })] } }
def wSby : State := wTw 4 0 { TwnSt.empty with copied := true }
theorem heldRoom : 1024 + ((cycleFrames (tCyc false true 3 1) (cycleRecords (tCyc false true 3 1) [])).dropLast.map
    (fun r => cellsOf r.2.length)).sum ≤ wSby.dropReceived.freeCells := by
  have h : ((cycleFrames (tCyc false true 3 1) (cycleRecords (tCyc false true 3 1) [])).dropLast.map
      (fun r => cellsOf r.2.length)).sum = cellsOf (16 + (openBody 8 []).length) := by
    have e : cycleRecords (tCyc false true 3 1) [] = [regsRec []] := by rfl
    rw [e]
    have l : (mirRecord 2 8 (tCyc false true 3 1).n 0 false (openBody 8 [])).length = 16 + (openBody 8 []).length := by
      simp [mirRecord, leBytes]; omega
    simp only [cycleFrames, regsRec, List.map_cons, List.map_nil, List.cons_append, List.nil_append, List.dropLast_cons_cons, List.dropLast_singleton,
      List.flatMap_nil, List.sum_cons, List.sum_nil]
    exact congrArg cellsOf l
  have h8 : (openBody 8 []).length ≤ 1024 := by simp [openBody]
  have hf : wSby.dropReceived.freeCells = 65536 := by decide +kernel
  rw [h, hf]
  unfold cellsOf ceilDiv
  omega
def wFault : MacroFault := { mac := 5, rows := [1], cols := [], retestOk := false }
def wHalt : State := sets tRun [(Reg.SYS_BOOT_STAGE, 3), (Reg.SYS_BOOT_MODE, 2), (Reg.SYS_LC_STATE, 1)]
def wLab : State := (tRun.wr Reg.SYS_LC_STATE 4).wr Reg.TST_PERC_EN 1
def tRep : Repair := ⟨5, false, 1, 2⟩
def wLabR : State := { wLab with tst := { wLab.tst with repairs := [tRep] } }
def wGood : MacroFault := { wFault with retestOk := true }
def wStop (l : List Nat) : State := { tRun.setRun .PHY false with sys := { tRun.sys with fltCount := l } }
def wPub : State :=
  { tRun.wr Reg.SYS_REC_STATE 2 with
    sys := { tRun.sys with fences := [⟨2, 0, 5, 9⟩], fltCount := [6] } }
def wFnc : State := { tRun with sys := { tRun.sys with fenceList := [⟨5, 9, 1⟩] } }
def wTick : State := { tRun with sys := { tRun.sys with meshRun := true, timeFrac := 5 } }
def wLost : State := { wBoot 0 with aon := { Aon.blank with lost := true } }
def wLcs (a b : BitVec 5) : State := { wBoot 1 with otp := { Otp.blank with lc0 := a, lc1 := b, lc2 := b } }
def wTst2 : State := sets (wBoot 2) [(Reg.SYS_BOOT_MODE, 2), (Reg.SYS_LC_STATE, 1)]
def wHdr : State := { wBoot 3 with nvm := { Nvm.erased with bytes := cells 0 (nvmMagic ++ [1]) } }
def wImg (base : Nat) (kind arb ty : Byte) : List Host.Cell :=
  cells base ([0x4F, 0x49, 0x4D, 0x47, 1, kind, arb, 0, 0, 0, 0, 0, 0, 0x10, 0, 0]) ++ [⟨base + 0x30, ty⟩, ⟨base + 0x34, 0⟩, ⟨base + 0x35, 0⟩]
def wOk : Verdict := ⟨true, true⟩
def wStg (l : List Host.Cell) : State := { wBoot 4 with nvm := { Nvm.erased with bytes := ⟨0x100, 0x3F⟩ :: l } }
def wFw (arb : Byte) : State :=
  { wBoot 5 with
    nvm := { Nvm.erased with bytes := wImg 0x10000 1 arb 2 },
    otp := { Otp.blank with arb := 3, helper := some 3, provRoot := some ⟨.slot 3 1, 5⟩ },
    key := { (wBoot 5).key with lc := 2, captured := true } }
def wMove : State := { wFw 3 with nvm := { (wFw 3).nvm with kuMove := some 0b01100 } }
def wSt7 (latch : Bool) : State :=
  { wBoot 6 with
    aon := { Aon.blank with latch := latch, store := wStore }, key := { (wBoot 6).key with lc := 3 } }
def wTwo8 : State := (wBoot 8).wr (Reg.FE_GRP_EN .H) 1

/-! ### Worked examples of the spec -/

/-- "A host write of 45 µs reads back as 32 µs, and a write of 0 µs reads back as 2 µs … 5,000 reads back as 4,095" (00_scope). -/
theorem test_clamps : (Reg.FE_RAMP .H).clamp.apply 45 = 32 ∧ (Reg.FE_RAMP .H).clamp.apply 0 = 2 ∧
    (after (.regWrite 0x6011 0x13) (after (.regWrite 0x6010 0x88) tRun)).rd Reg.PHY_TMAP_IDX = 4095 := by decide +kernel

/-- The records of the configuration example of 03_startup_and_image: SET TEMP_WARN, SET TIME_ACQ_MAX, SETBITS START_HOLD. -/
def exCfg : State := withNvm State.reset (
  cells 0x1011000 [0x40, 0x03, 0x01, 0x64, 0x30, 0x05, 0x01, 0x32, 0x20, 0x05, 0x02, 0x02, 0x00, 0x00, 0xFF, 0x00])

theorem test_config_records : exCfg.cfgParse 0x1010000 0x1010 4 0x1000 =
    some [.put 0x034 1 0x64, .put 0x053 1 0x32, .put 0x052 2 0x02] := by decide +kernel

/-- "The word is 0x141A4010 … FOFS = +16, GROUP = 0b01, OPT_MASK = 0b1010, EN = 1, PRIV = 0, ED_THR = 0x14" (05). -/
theorem test_plan_word : (tRun.planClamp 0x2C 0x141A4010).toNat = 0x141A4010 ∧ planFofs 0x141A4010 = 16 ∧
    Grp.ofCode (bits 0x141A4010 14 2) = .H ∧ planOpts 0x141A4010 = 0b1010 ∧ planEn 0x141A4010 = true ∧
    planPriv 0x141A4010 = false := by decide +kernel

/-- The collision of 05: at 310 µs lane 0x11 is pre-empted; at 1,700 µs, with every lane busy, a detection is dropped. -/
def exColl (t : Nat) (dec : Bool) : State :=
  let s := wPlan [(0x2C, 0x141A0010)]
  { s with
    sys := { s.sys with uptime := t },
    grn := { s.grn with lanes := (List.range 96).map (fun n =>
      (n, if n = 0x11 then { wLane 0x2C dec 0 with opt := 1, metric := 0x0E } else wLane 0x2C true 0)) } }

theorem test_preemption : let t := after (.detection 0x2C 1 0x2D) (exColl 10038750 false)
    (mget t.grn.lanes 0x11).map (fun l => l.metric) = some 0x2D ∧ t.rd Reg.GRN_FALSE_START = 1 ∧
    t.rd Reg.GRN_DET_CNT = 1 := by decide +kernel

theorem test_lane_overflow : let t := after (.detection 0x2C 1 0x32) (exColl 10212500 true)
    t.grn.lanes = (exColl 10212500 true).grn.lanes ∧ t.rd Reg.GRN_LANE_OVF = 1 := by decide +kernel

/-- "−112.5 dBm … v = 55" (05), on an aerial. -/
theorem test_noise_floor : ((mget (after (.nfWindowDone 5 [-112500, 0, 0, 0]) wGrn).grn.nf 5).map (fun n => n.vals.headD 0)) =
    some 55 := by decide +kernel

/-- "6 off, 10 QPSK, 20 16-QAM, 12 64-QAM: N_CBPS = 172, N_DBPS = 86"; the map 0x2B7 of N_DBPS 82 fits (06). -/
def exSlot : PropSlot :=
  { handle := 0x1A2F3, first := 0, n := 4, chan := 0x2C, opt := 1, gen := 0, last := 0,
    snr := List.replicate 6 17 ++ List.replicate 10 24 ++ List.replicate 20 36 ++ List.replicate 12 48 }

def exTones : State :=
  let s := sets tRun [(Reg.PHY_TL_RATE, 0), (Reg.PHY_TL_MARGIN, 0x0C), (Reg.PHY_TL_SLACK, 2)]
  { s with phy := { s.phy with tmaps := [(0x2B7, TMap.make (List.replicate 6 0 ++ List.replicate 10 2 ++ List.replicate 24 3 ++
      List.replicate 8 4 ++ List.replicate 48 0) 1 false false true)] } }

theorem test_proposal : (exTones.proposal exSlot).nCbps = 172 ∧ (exTones.proposal exSlot).nDbps = 86 ∧
    exTones.bestFit (exTones.proposal exSlot) = some 0x2B7 := by decide +kernel

/-- "42 symbols, 5,040 µs; 30 symbols, 3,600 µs"; an acknowledgement of 21 bytes lasts 1,440 µs (06). -/
theorem test_airtime : airNs (phrSyms 1) 200 (nDbps 1 3) = 5040000 ∧ airNs (phrSyms 1 + tmhSyms 1) 200 82 = 3600000 ∧
    airNs (phrSyms 1) 21 (nDbps 1 3) = 1440000 := by decide +kernel

/-- The same two airtimes, counted in the PPDUs that PHY builds (06). -/
def exMap : TMap := TMap.make (List.replicate 6 0 ++ List.replicate 10 2 ++ List.replicate 24 3 ++ List.replicate 8 4 ++
  List.replicate 48 0) 1 false false true

theorem test_ppdu : (standardPpdu 1 3 0 (List.replicate 200 0x5A)).symbols = 42 ∧
    (loadedPpdu 1 0x2B7 exMap 0 (List.replicate 200 0x5A)).symbols = 30 := by decide +kernel

/-- A PHR that PHY builds checks at a receiver that hears it clean (R145, R149). -/
theorem test_phr_heard : decodePhr [wSym 3 200] = (phrBits 3 200 2).take 30 ∧ phrOk (decodePhr [wSym 3 200]) = true := by decide +kernel

/-- "class 0x2, ring 5, SEQ 0x0210" (01): STREAM_ID 0x2005, and an even number of ones (R17). -/
theorem test_tag : let w := (Tag.plain 2 5 0x210 0 0 .CAR).word
    w.toNat % 2 ^ 32 = 0x02102005 ∧ streamOf w = (2, 5) ∧ tagEven w = true := by decide +kernel

/-- The node of the worked wake prediction (08). -/
def exNode : Entry :=
  { tEntry with handle := 0x1A2F3, dNode := 3, g0 := 0x10, wcls := 9, wakeInt := 300000, wakePhase := 137250, repeatLim := 4,
                mcGrp := 0xFF, lastContact := 2705412, clkOfs := 1842, drift := -1180 }

/-- The entry after the contact of that example: words W6 to W10. -/
def exHeard : Entry := (contactUpd (sets tRun [(Reg.SCH_DRIFT_MIN, 60), (Reg.SCH_DRIFT_K, 2)]) exNode
  { time := 3605402998, rb := false, ver := 0 } 3605412316250).1

theorem test_contact : (exHeard.words.drop 6).take 5 = [0x003703A4, 0xFFFFDB9A, 0x0103FB55, 0x940493E0, 0xFF021822] := by
  decide +kernel

theorem test_wakes : nextWake exHeard (3605412316 + 20000000) = 12 ∧ wakeMs exHeard 12 = 3737250 ∧
    wakeP exHeard 3737250 = 3737260893 ∧ uncertainty exHeard (wakeDelta exHeard 3737250) = 3025 ∧
    wakeP exHeard 4037250 = 4037264478 ∧ uncertainty exHeard (wakeDelta exHeard 4037250) = 9325 ∧
    wakeP exHeard 4337250 = 4337268063 ∧ uncertainty exHeard (wakeDelta exHeard 4337250) = 15625 := by decide +kernel

/-- The descriptor of 10: the item takes two cells. -/
def exDesc : List Byte :=
  [0x00, 0xC0, 0x31, 0x7A, 0x04, 0, 0, 0, 0x28, 0, 0, 0x04, 0xF3, 0xA2, 0x01, 0, 0x01, 0x3C, 0x58, 0x02] ++
    List.replicate 12 0

theorem test_descriptor : let w := (tRun.readTx (exDesc.drop 8) 40 (List.replicate 40 7) true 5 0x210).2
    w.tgt = .node 0x1A2F3 ∧ w.hdr.prio = 4 ∧ w.hdr.tlpol = 0 ∧ w.hdr.ovr = false ∧ w.hdr.seq = 0x3C01 ∧ w.hdr.ring = 5 ∧
    w.hdr.desc = 0x210 ∧ w.body.length = 40 ∧ cellsOf w.body.length = 2 := by decide +kernel

/-- "COMPLETED, 0x00, 0x02, 0x91, 00 3C, 0x00, 0x80" (10). -/
theorem test_completion : TxDone.bytes ⟨stCOMPLETED, 0, 2, 0, 0x91, 0x3C00, false⟩ = [0x01, 0x00, 0x02, 0x91, 0x00, 0x3C, 0x00, 0x80] := by decide +kernel

/-- "The next boot resumes at block 0x14, FC_NEXT 0x0014_0000" (11). -/
def exLog : State :=
  { wSt7 false with
    aon := { Aon.blank with store := { wStore with epoch := 0x16, sgen := 3 } },
    nvm := { Nvm.erased with ctrLog := [{ seq := 9, sgen := 3, epoch := 0x16, block := 0x13 }] } }

theorem test_counter_resume : exLog.loadKeys.rd Reg.KEY_FC_NEXT = 0x140000 ∧
    exLog.loadKeys.nvm.ctrLog.any (fun r => r.block = 0x14) = true := by decide +kernel

/-- The domain switch of 13: B is selected, RATE_ADJ 1,099,511, STEER_OFS +2,300. -/
def exSwitch : State :=
  let s := sets tRun [(Reg.TIM_SEL_MODE, 0), (Reg.TIM_SLEW_MAX, 1000), (Reg.TIM_STEER_TC, 2), (Reg.TIM_OFS_WARN_US, 2),
    (Reg.TIM_DOM_EN .B, 1), (Reg.TIM_DOM_STATE .B, 3), (Reg.TIM_DOM_STATE .A, 1), (Reg.TIM_DOM_FREQ .B, 461795)]
  { s with tim := { s.tim with sel := some .A, domB := { DomSt.empty with ref := some (5000002300, 10000000) } } }

theorem test_steering : let t := after .steerUpdate exSwitch
    t.rd Reg.TIM_RATE_ADJ = 1099511 ∧ t.rdS Reg.TIM_STEER_OFS = 2300 ∧ t.rd Reg.TIM_ADJ_CLAMP = 1 ∧
    t.rd Reg.TIM_SEL_SWITCH = 1 ∧ t.tim.sel = some .B := by decide +kernel

/-- Source 149 of 17: 0x63 written 0x63 reads 0x23; masked, its edge latches PEND alone and it reads 0x43. -/
def exSrc (p en : Nat) : State := ((tRun.wrI Reg.IRQ_SRC_CTL_PEND 149 p).wrI Reg.IRQ_SRC_CTL_EN 149 en).wrI
  Reg.IRQ_SRC_CTL_TGT 149 3

theorem test_source_control : (exSrc 1 1).liveByte 0x1095 = 0x63 ∧
    (after (.regWrite 0x1095 0x63) (exSrc 1 1)).liveByte 0x1095 = 0x23 ∧
    (after (.regWrite 0x1095 0x03) (exSrc 0 1)).liveByte 0x1095 = 0x03 ∧
    (after (.eventLatch 149) ((exSrc 0 0).event 149)).liveByte 0x1095 = 0x43 := by decide +kernel

/-- The double error of 16: ISL_RUN_H bit 1 clear, DE_LOC 0x3A17, DE_SRC 0b01, REC_GEN 0x0003, REC_ISL 9, REC_CAUSE 3. -/
theorem test_double_error : let t := after (.carafeDoubleError 0x3A17 .cell) (tRun.wr Reg.SYS_REC_GEN 2)
    t.runs .CAR = false ∧ t.rd Reg.CAR_DE_LOC = 0x3A17 ∧ t.rd Reg.CAR_DE_SRC = 1 ∧ t.rd Reg.SYS_REC_GEN = 3 ∧
    t.rd Reg.SYS_REC_ISL = 9 ∧ t.rd Reg.SYS_REC_CAUSE = 3 ∧ t.rd Reg.SYS_REC_STATE = 1 := by decide +kernel

/-- "0x122 arrives: TUN_OOO +1" with TUN_RX_NEXT 0x121 (14). -/
def exTun (seq : Word) : State :=
  { wTd (tTd 0x10 seq 0) with regs := (sets (wTd (tTd 0x10 seq 0)) [(Reg.ETH_TUN_RX_NEXT, 0x121)]).regs }

theorem test_tunnel_gap : let t := after .tunDown (exTun 0x122)
    t.rd Reg.ETH_TUN_OOO = 1 ∧ t.rd Reg.ETH_TUN_RX_NEXT = 0x121 ∧ t.hst.txSlots = [] := by decide +kernel

/-- The uplink of 09: 0x000104A2 after 0x000104A1 is FRESH, and heard again a DUPLICATE. -/
theorem test_accept : let e : Entry := { tEntry with fcntUl := 0x000104A1, dsnUl := 0x5D }
    (accept e 0x000104A2 0x5E).1 = .fresh ∧ (accept (accept e 0x000104A2 0x5E).2 0x000104A2 0x5E).1 = .duplicate := by
  decide +kernel

/-! ### Witnesses -/

theorem wit_StepRunsFront : ({ tRun with pending := [.capBoundary, .scanDone] } : State).pending = .capBoundary :: [.scanDone] := by
  decide +kernel

/-- The outcome is a next state with a property. -/
def nextWith (o : Host.Outcome State Fault Refusal) (p : State → Bool) : Bool :=
  match o with
  | .next t => p t
  | _ => false

/-- A command that answers a next state, and a part that it does not touch. -/
theorem wit_Frame : nextWith (exec (.dieTempUpdate 60) tRun) (fun t => t ≠ tRun) = true ∧
    Part.otp ∉ touches (.dieTempUpdate 60) := by
  refine ⟨?_, ?_⟩ <;> decide +kernel

/-- A SCRAP message waits at KEY. -/
def wScrap : State := { wKu wDep (tKu wDep 4) with pending := [.kuScrap] }

/-- A step that burns OTP. -/
theorem wit_OtpOnlyRises : nextWith (step wScrap) (fun t => t.otp.lc0 ≠ wScrap.otp.lc0) = true := by decide +kernel

/-- The tamper latch is set, and a command waits. -/
def wLatched (c : Instr) : State := { tRun with aon := { Aon.blank with latch := true }, pending := [c] }

/-- A step with the tamper latch set that leaves it set, and one by which it ends. -/
theorem wit_LatchStays : (wLatched .capBoundary).aon.latch = true ∧
    nextWith (step (wLatched .capBoundary)) (fun t => t.aon.latch) = true ∧
    nextWith (step (wLatched .aonRetentionLoss)) (fun t => !t.aon.latch) = true := by
  refine ⟨?_, ?_, ?_⟩ <;> decide +kernel

/-- A step that programs the NVM from its canonical form. -/
theorem wit_NvmStaysCanonical : wCommit.nvmOk = true ∧
    nextWith (step { wCommit with pending := [.sessionCommit] }) (fun t => t.nvm.bytes ≠ wCommit.nvm.bytes) = true := by
  refine ⟨?_, ?_⟩ <;> decide +kernel

/-- A command that changes the life-cycle words. -/
theorem wit_LifeCycleChanges : nextWith (exec .kuScrap wScrap) (fun t => t.otp.lc0 ≠ wScrap.otp.lc0) = true := by
  decide +kernel

theorem wit_WriteChangesClassH :
    ((0x000 : BitVec 12).getLsbD 3 = false ∧ (0x000 : BitVec 12).getLsbD 8 = false ∧
     (0x000 : BitVec 12).getLsbD 9 = false ∧ (0x000 : BitVec 12).getLsbD 10 = false) ∧
    (0xFFF : BitVec 12).getLsbD 3 = true ∧ (0xFFF : BitVec 12).getLsbD 9 = true := by decide +kernel

theorem wit_Calibration :
    (wCal.hostMay Grp.L.isl = true ∧ wCal.usable Grp.L = true) ∧
    (wIdle.hostMay Grp.L.isl = true ∧ wIdle.usable Grp.L = true) ∧
    wIdle.runs Grp.L.isl = true ∧
    ((wCal.fe Grp.L).cal = some { since := 0, forced := false : CalPend } ∧
     { since := 0, forced := false : CalPend }.forced = false) ∧
    ((wCal.fe Grp.L).burst = none ∧
     ({ since := 0, forced := false : CalPend }.forced = true ∨ (wCal.fe Grp.L).gap = true)) ∧
    ((wSyn 1).runs Grp.L.isl = true ∧ (wSyn 1).rd (Reg.FE_SYN_STATE Grp.L) = 1) ∧
    ((wSyn 2).runs Grp.L.isl = true ∧ (wSyn 2).rd (Reg.FE_SYN_STATE Grp.L) = 2) ∧
    (wCal.runs Grp.L.isl = true ∧ wCal.rd (Reg.FE_SYN_STATE Grp.L) = 3) := by
  refine ⟨?_, ?_, ?_, ?_, ?_, ?_, ?_, ?_⟩ <;> decide +kernel

theorem wit_Bursts :
    (((wWait Phase.due).fe Grp.L).burst = none ∧
     (earliest ((wWait Phase.due).fe Grp.L).wait fun (x : TxItem) => decide (x.phase = Phase.due)) = some (wFrm
      Phase.due) ∧ (wWait Phase.due).locked Grp.L = true ∧ (wWait Phase.due).calForced Grp.L = false ∧
     (wWait Phase.due).choosePort Grp.L = some 0) ∧
    ((wJoin.fe Grp.L).burst = some (tBurst []) ∧ (wJoin.fe Grp.L).arrive = [wNext] ∧ wNext.fence = false ∧
     wNext.kind ≠ TxKind.ack ∧ (tBurst []).search = none ∧ (tBurst []).port = some 0 ∧
     (wJoin.rd (Reg.FE_PORT_MM Grp.L)).testBit 0 = false ∧ wNext.first < (tBurst []).e + 240000 ∧
     wJoin.sys.timeNs ≤ wNext.first - (tBurst []).ramp - 10000 ∧ wJoin.calForced Grp.L = false) ∧
    (((wAir Phase.ended).fe Grp.L).burst = some (tBurst [wFrm Phase.ended]) ∧
     ((tBurst [wFrm Phase.ended]).frames.all fun (f : TxItem) => decide (f.phase = Phase.ended)) = true) ∧
    ((wWait Phase.waiting).locked Grp.L = true ∧ (wWait Phase.waiting).calForced Grp.L = false ∧
     ((wFrm Phase.waiting).secured = false ∨ (wFrm Phase.waiting).epoch = (wWait Phase.waiting).key.egress) ∧
     ((wWait Phase.waiting).fe Grp.L).burst = none ∧
     (earliest ((wWait Phase.waiting).fe Grp.L).wait fun (x : TxItem) => decide (x.phase = Phase.waiting)) = some
      (wFrm Phase.waiting)) ∧
    ((wAir Phase.joined).locked Grp.L = true ∧ (wAir Phase.joined).calForced Grp.L = false ∧
     ((wFrm Phase.joined).secured = false ∨ (wFrm Phase.joined).epoch = (wAir Phase.joined).key.egress) ∧
     ((wAir Phase.joined).fe Grp.L).burst = some (tBurst [wFrm Phase.joined]) ∧
     (tBurst [wFrm Phase.joined]).search = none ∧
     (earliest (tBurst [wFrm Phase.joined]).frames fun (x : TxItem) => decide (x.phase = Phase.joined)) = some
      (wFrm Phase.joined)) := by
  refine ⟨?_, ?_, ?_, ?_, ?_⟩ <;> decide +kernel

theorem wit_FramesOnTheAir :
    (((wAir Phase.due).fe Grp.L).burst = some (tBurst [wFrm Phase.due]) ∧ (tBurst [wFrm Phase.due]).search = none ∧
     (earliest (tBurst [wFrm Phase.due]).frames fun (x : TxItem) => decide (x.phase = Phase.due)) = some (wFrm
      Phase.due) ∧ (wFrm Phase.due).kind = TxKind.dl ∧ (wAir Phase.due).holds = true ∧
     (tBurst [wFrm Phase.due]).allow = true ∧ (true = true ∨ (wAir Phase.due).rd (Reg.FE_COEX_EN Grp.L) = 0) ∧
     holders (tBurst [wFrm Phase.due]).frames (tBurst [wFrm Phase.due]).ramp ((wFrm Phase.due).first - (tBurst
      [wFrm Phase.due]).ramp) ((wFrm Phase.due).first + (wFrm Phase.due).dur + (tBurst [wFrm Phase.due]).ramp) = []) ∧
    (((wNoCx Phase.due).fe Grp.L).burst = some (tBurst [wFrm Phase.due]) ∧ (wNoCx Phase.due).holds = true ∧
     (false = true ∨ (wNoCx Phase.due).rd (Reg.FE_COEX_EN Grp.L) = 0)) ∧
    (((wAir Phase.checked).fe Grp.L).burst = some (tBurst [wFrm Phase.checked]) ∧
     (tBurst [wFrm Phase.checked]).search = none ∧
     (earliest (tBurst [wFrm Phase.checked]).frames fun (x : TxItem) => decide (x.phase = Phase.checked)) = some
      (wFrm Phase.checked)) ∧
    (((wAir Phase.onAir).fe Grp.L).burst = some (tBurst [wFrm Phase.onAir]) ∧
     (tBurst [wFrm Phase.onAir]).search = none ∧ wFrm Phase.onAir ∈ (tBurst [wFrm Phase.onAir]).frames ∧
     (wFrm Phase.onAir).phase = Phase.onAir ∧
     (∀ x ∈ (tBurst [wFrm Phase.onAir]).frames, x.phase = Phase.onAir → x = wFrm Phase.onAir)) ∧
    (wNoCx Phase.checked).rd (Reg.FE_COEX_EN Grp.L) = 0 ∧
    ((wAir Phase.checked).rd (Reg.FE_COEX_EN Grp.L) = 1 ∧ (tBurst [wFrm Phase.checked]).frames = [wFrm Phase.checked] ∧
     (wFrm Phase.checked).phase = Phase.checked) ∧
    ((wAir Phase.onAir).rd (Reg.FE_COEX_EN Grp.L) = 1 ∧
     ((tBurst [wFrm Phase.onAir]).frames.any fun (f : TxItem) => decide (f.phase = Phase.onAir)) = true) ∧
    ((wAir Phase.due).rd (Reg.FE_COEX_EN Grp.L) = 1 ∧ (tBurst [wFrm Phase.due]).req = false) ∧
    (wReqs.rd (Reg.FE_COEX_EN Grp.L) = 1 ∧ (earliest (wReqs.fe Grp.L).wait fun (x : TxItem) => true) = some wNext) ∧
    (∀ (b : Burst), (wReqs.fe Grp.L).burst = some b → b.req = true) := by
  exact ⟨by decide +kernel, by decide +kernel, by decide +kernel, by decide +kernel, by decide +kernel,
    by decide +kernel, by decide +kernel, by decide +kernel, by decide +kernel, by intro b h; cases h; rfl⟩

theorem wit_MismatchAndTuner :
    (((wAir Phase.onAir).fe Grp.L).burst = some (tBurst [wFrm Phase.onAir]) ∧
     (tBurst [wFrm Phase.onAir]).port = some 0 ∧ 0 < 4 ∧ (tBurst [wFrm Phase.onAir]).search = none ∧
     ((tBurst [wFrm Phase.onAir]).frames.any fun (f : TxItem) => decide (f.phase = Phase.onAir)) = true ∧
     23 < 4 * (wAir Phase.onAir).rd (Reg.FE_RL_THR Grp.L)) ∧
    (wIdle.hostMay Grp.L.isl = true ∧ (wIdle.holds = true ∧ wIdle.locked Grp.L = true ∧ (wIdle.fe Grp.L).tune = none ∧
     (wIdle.rd (Reg.FE_PORT_FAULT Grp.L)).testBit (BitVec.toNat (3 : BitVec 2)) = false ∧
     (wIdle.fe Grp.L).txEn.getLsbD (BitVec.toNat (3 : BitVec 2)) = true)) ∧
    (wTune.hostMay Grp.L.isl = true ∧ (¬(wTune.holds = true ∧ wTune.locked Grp.L = true ∧
     (wTune.fe Grp.L).tune = none ∧
     (wTune.rd (Reg.FE_PORT_FAULT Grp.L)).testBit (BitVec.toNat (3 : BitVec 2)) = false ∧
     (wTune.fe Grp.L).txEn.getLsbD (BitVec.toNat (3 : BitVec 2)) = true))) ∧
    ((wTune.fe Grp.L).tune = some { port := 2, since := 0 : TunePend } ∧ (wTune.fe Grp.L).burst = none ∧
     (wTune.fe Grp.L).cal = none ∧ wTune.locked Grp.L = true ∧
     ((wTune.fe Grp.L).gap = true ∨ 200 ≤ wTune.msSince { port := 2, since := 0 : TunePend }.since)) ∧
    ((wTone.fe Grp.L).burst = some wSearch ∧ wSearch.search = some 2 ∧ 2 < 4 ∧ (wTone.holds = true ∧
     wSearch.allow = true ∧ (true = true ∨ wTone.rd (Reg.FE_COEX_EN Grp.L) = 0))) ∧
    (¬(wTone.holds = true ∧ wSearch.allow = true ∧ (false = true ∨ wTone.rd (Reg.FE_COEX_EN Grp.L) = 0))) := by
  refine ⟨?_, ?_, ?_, ?_, ?_, ?_⟩ <;> decide +kernel

theorem wit_PlanClamps :
    (BitVec.toNat (4294967295 : Word) = 4294967295 ∧ wGrn.hostMay Isl.GRN = true ∧ 0 = wGrn.rd Reg.GRN_PLAN_IDX) := by
  decide +kernel

theorem wit_PlanWriteAndBoundary :
    wGrn.hostMay Isl.GRN = true ∧
    ((wCap (CapChange.plan (9 : Byte) (270467072 : Word))).runs Isl.SCH = true ∧
     5000 * 1000000 ≤ (wCap (CapChange.plan (9 : Byte) (270467072 : Word))).sys.timeNs ∧
     (wCap (CapChange.plan (9 : Byte) (270467072 : Word))).grn.cap = [(5000, CapChange.plan (9 : Byte) (270467072 :
      Word))] ∧ (wCap (CapChange.plan (9 : Byte) (270467072 : Word))).runs Isl.GRN = true) ∧
    ((wCap (CapChange.ports Grp.H (3 : BitVec 4) (5 : BitVec 4))).runs Isl.SCH = true ∧
     5000 * 1000000 ≤ (wCap (CapChange.ports Grp.H (3 : BitVec 4) (5 : BitVec 4))).sys.timeNs ∧
     (wCap (CapChange.ports Grp.H (3 : BitVec 4) (5 : BitVec 4))).grn.cap = [(5000, CapChange.ports Grp.H (3 :
      BitVec 4) (5 : BitVec 4))] ∧
     (wCap (CapChange.ports Grp.H (3 : BitVec 4) (5 : BitVec 4))).runs Grp.H.isl = true) ∧
    ((wCap CapChange.twinJoin).runs Isl.SCH = true ∧ 5000 * 1000000 ≤ (wCap CapChange.twinJoin).sys.timeNs ∧
     (wCap CapChange.twinJoin).grn.cap = [(5000, CapChange.twinJoin)] ∧
     (wCap CapChange.twinJoin).runs Isl.TWN = true) ∧
    ((wCap CapChange.twinLeave).runs Isl.SCH = true ∧ 5000 * 1000000 ≤ (wCap CapChange.twinLeave).sys.timeNs ∧
     (wCap CapChange.twinLeave).grn.cap = [(5000, CapChange.twinLeave)] ∧
     (wCap CapChange.twinLeave).runs Isl.TWN = true) ∧
    (wScan.sch.scan = some [4] ∧ wScan.runs Isl.SCH = true ∧ wScan.runs Isl.NTB = true) := by
  refine ⟨?_, ?_, ?_, ?_, ?_, ?_⟩ <;> decide +kernel

theorem wit_Detections :
    (wLanes.streams (5 : Byte) = true ∧ wLanes.fastPath (5 : Byte) = false ∧
     (planOpts (wLanes.planAt (5 : Byte))).testBit (BitVec.toNat (0 : BitVec 2)) = true ∧
     wLanes.srchThr (wLanes.chanGrp (5 : Byte)) ≤ BitVec.toNat (255 : Byte) ∧
     wLanes.aliased (5 : Byte) (0 : BitVec 2) = true) ∧
    (wGrn.streams (5 : Byte) = true ∧ wGrn.fastPath (5 : Byte) = false ∧
     (planOpts (wGrn.planAt (5 : Byte))).testBit (BitVec.toNat (0 : BitVec 2)) = true ∧
     wGrn.srchThr (wGrn.chanGrp (5 : Byte)) ≤ BitVec.toNat (255 : Byte) ∧
     wGrn.aliased (5 : Byte) (0 : BitVec 2) = false ∧ (wGrn.rsvOf (BitVec.toNat (5 : Byte)) = some 0 ∧
     wGrn.laneIdle 0 = true ∨ wGrn.rsvOf (BitVec.toNat (5 : Byte)) = none ∧
     (∀ p ∈ wGrn.grn.lanes, p.2.ent ≠ (5 : Byte)) ∧ 0 < 96 ∧ wGrn.isRsv 0 = false ∧ wGrn.laneIdle 0 = true ∧
     ∀ j < 0, wGrn.isRsv j = true ∨ wGrn.laneIdle j = false)) ∧
    (wNoNf.streams (6 : Byte) = true ∧ wNoNf.fastPath (6 : Byte) = false ∧
     (planOpts (wNoNf.planAt (6 : Byte))).testBit (BitVec.toNat (0 : BitVec 2)) = true ∧
     wNoNf.srchThr (wNoNf.chanGrp (6 : Byte)) ≤ BitVec.toNat (255 : Byte) ∧
     wNoNf.aliased (6 : Byte) (0 : BitVec 2) = false ∧ (wNoNf.rsvOf (BitVec.toNat (6 : Byte)) = some 95 ∧
     wNoNf.laneIdle 95 = true ∨ wNoNf.rsvOf (BitVec.toNat (6 : Byte)) = none ∧
     (∀ p ∈ wNoNf.grn.lanes, p.2.ent ≠ (6 : Byte)) ∧ 95 < 96 ∧ wNoNf.isRsv 95 = false ∧ wNoNf.laneIdle 95 = true ∧
     ∀ j < 95, wNoNf.isRsv j = true ∨ wNoNf.laneIdle j = false)) ∧
    (wGrn.streams (6 : Byte) = true ∧ wGrn.fastPath (6 : Byte) = true ∧
     wGrn.grn.qual.contains (BitVec.toNat (6 : Byte)) = false ∧ 0 < 4 ∧
     (wGrn.fe (wGrn.chanGrp (6 : Byte))).rxEn.getLsbD 0 = true ∧
     (-140000 : Int) + (500 : Int) * ↑(((mget wGrn.grn.nf (BitVec.toNat (6 : Byte))).elim [] fun (n : NfSt) =>
      n.vals).getD 0 0) + (500 : Int) * ↑(bits (wGrn.planAt (6 : Byte)) 24 8) ≤ [(-50000 : Int)].getD 0 (-200000 :
      Int)) ∧
    (wQual.grn.qual.contains (BitVec.toNat (6 : Byte)) = true ∧ wQual.streams (6 : Byte) = true) ∧
    (∀ p ∈ wGrn.grn.lanes, p.2.ent ≠ (5 : Byte)) := by
  refine ⟨?_, ?_, ?_, ?_, ?_, ?_⟩ <;> decide +kernel

theorem wit_Receptions :
    (mget wLanes.grn.lanes 0 = some (wLane (7 : Byte) false 0) ∧ (wLane (7 : Byte) false 0).decoding = false ∧
     wLanes.runs Isl.GRN = true ∧ wLanes.runs Isl.PHY = true ∧ wLanes.grn.late.contains 0 = false) ∧
    (wLate.runs Isl.GRN = true ∧ wLate.runs Isl.PHY = true ∧ wLate.grn.late.contains 0 = true) ∧
    (mget (wDec 9).grn.lanes 3 = some (wLane (5 : Byte) true 9) ∧ (wLane (5 : Byte) true 9).decoding = true ∧
     (wDec 9).runs Isl.GRN = true ∧ (wDec 9).runs Isl.PHY = true ∧
     (wDec 9).mpduOf (wLane (5 : Byte) true 9) wNoRec = none) ∧
    (mget (wDec 6).grn.lanes 3 = some (wLane (5 : Byte) true 6) ∧ (wLane (5 : Byte) true 6).decoding = true ∧
     (wDec 6).runs Isl.GRN = true ∧ (wDec 6).runs Isl.PHY = true ∧
     (wDec 6).mpduOf (wLane (5 : Byte) true 6) (wRec [(1 : Byte), (2 : Byte)]) = some [(1 : Byte), (2 : Byte)] ∧
     readPsdu [(1 : Byte), (2 : Byte)] (wRec [(1 : Byte), (2 : Byte)]).mic (wRec [(1 : Byte), (2 : Byte)]).plain =
      none) ∧
    (mget (wDec 15).grn.lanes 3 = some (wLane (5 : Byte) true 15) ∧ (wLane (5 : Byte) true 15).decoding = true ∧
     (wDec 15).runs Isl.GRN = true ∧ (wDec 15).runs Isl.PHY = true ∧
     (wDec 15).mpduOf (wLane (5 : Byte) true 15) (wRec (wMpdu false)) = some (wMpdu false) ∧
     readPsdu (wMpdu false) (wRec (wMpdu false)).mic (wRec (wMpdu false)).plain = some (wPsdu false)) ∧
    (wPsdu false).ackReq = false ∧
    ((wDec 15).mpduOf (wLane (5 : Byte) true 15) (wRec (wMpdu true)) = some (wMpdu true) ∧
     readPsdu (wMpdu true) (wRec (wMpdu true)).mic (wRec (wMpdu true)).plain = some (wPsdu true) ∧
     (wPsdu true).ackReq = true ∧ (wDec 15).runs Isl.SCH = true ∧ (wDec 15).quiet = false ∧
     ((wDec 15).fe ((wDec 15).chanGrp (wLane (5 : Byte) true 15).ent)).wait = [] ∧
     (wDec 15).choosePort ((wDec 15).chanGrp (wLane (5 : Byte) true 15).ent) = some 0) := by
  refine ⟨?_, ?_, ?_, ?_, ?_, ?_, ?_⟩ <;> decide +kernel

theorem wit_PhyPassesOn :
    (wPhyUl.runs Isl.PHY = true ∧ wPhyUl.phy.ul = [wUl none false] ∧ wPhyUl.runs Isl.NTB = true ∧
     (wUl none false).rx.endTime < wPhyUl.sys.timeNs) ∧
    (wPhyTx.runs Isl.PHY = true ∧ wPhyTx.phy.tx = [tTx] ∧ wPhyTx.runs tTx.grp.isl = true ∧ tTx.fence = false) := by
  refine ⟨?_, ?_⟩ <;> decide +kernel

theorem wit_ToneMaps :
    (wMaps 1).hostMay Isl.PHY = true ∧
    (((mget (wMaps 1).phy.tmaps ((wMaps 1).rd Reg.PHY_TMAP_IDX)).getD TMap.zero).valid = true ∧
     (1 ≤ ((mget (wMaps 1).phy.tmaps ((wMaps 1).rd Reg.PHY_TMAP_IDX)).getD TMap.zero).users ∨ 1 ≤ ((mget (wMaps
      1).phy.tmaps ((wMaps 1).rd Reg.PHY_TMAP_IDX)).getD TMap.zero).inFlight)) ∧
    ((wMaps 0).hostMay Isl.PHY = true ∧
     (¬(((mget (wMaps 0).phy.tmaps ((wMaps 0).rd Reg.PHY_TMAP_IDX)).getD TMap.zero).valid = true ∧
     (1 ≤ ((mget (wMaps 0).phy.tmaps ((wMaps 0).rd Reg.PHY_TMAP_IDX)).getD TMap.zero).users ∨ 1 ≤ ((mget (wMaps
      0).phy.tmaps ((wMaps 0).rd Reg.PHY_TMAP_IDX)).getD TMap.zero).inFlight)))) ∧
    ((wPws (1 : Byte)).phy.propWrites = [wPw (1 : Byte)] ∧ (wPws (1 : Byte)).runs Isl.NTB = true ∧
     tEntry.gen = (wPw (1 : Byte)).gen) ∧
    (wPws (1 : Byte)).hasEntry (wPw (1 : Byte)).handle 18012 tEntry ∧
    ((wPws (2 : Byte)).phy.propWrites = [wPw (2 : Byte)] ∧ (wPws (2 : Byte)).runs Isl.NTB = true ∧
     tEntry.gen ≠ (wPw (2 : Byte)).gen) ∧
    (wPws (2 : Byte)).hasEntry (wPw (2 : Byte)).handle 18012 tEntry := by
  exact ⟨by decide +kernel, by decide +kernel, by decide +kernel, by decide +kernel,
    by unfold State.hasEntry; decide +kernel, by decide +kernel, by unfold State.hasEntry; decide +kernel⟩

theorem wit_LookupPassesOn :
    ((wNtbUl tRun).ntb.ul = [wUl none false] ∧ (wNtbUl tRun).runs Isl.NTB = true ∧ (wNtbUl tRun).runs Isl.KEY = true ∧
     (wUl none false).copy = none) ∧
    (wNtbUl tRun).probeFinds (wUl none false).psdu.eui none ∧
    ((wNtbUl wTab).ntb.ul = [wUl none false] ∧ (wNtbUl wTab).runs Isl.NTB = true ∧ (wNtbUl wTab).runs Isl.KEY = true ∧
     (wNtbUl wTab).quiet = false) ∧
    (wNtbUl wTab).probeFinds (wUl none false).psdu.eui (some 18012) ∧
    (wNtbUl wTab).hasEntry tEntry.handle 18012 tEntry ∧
    (wNtbSby.ntb.ul = [wUl none false] ∧ wNtbSby.runs Isl.NTB = true ∧ wNtbSby.runs Isl.KEY = true ∧
     wNtbSby.quiet = true) ∧
    wNtbSby.probeFinds (wUl none false).psdu.eui (some 18012) ∧
    wNtbSby.hasEntry tEntry.handle 18012 tEntry := by
  exact ⟨by decide +kernel, findsOk (by decide +kernel), by decide +kernel, findsOk (by decide +kernel),
    by unfold State.hasEntry; decide +kernel, by decide +kernel, findsOk (by decide +kernel),
    by unfold State.hasEntry; decide +kernel⟩

theorem wit_TableInsert :
    ((wCmdOn tRun (1 : Byte) (0 : Byte) (9 : Byte)).ntb.cmdQ = [wCmd (1 : Byte) (0 : Byte) (9 : Byte)] ∧
     (wCmd (1 : Byte) (0 : Byte) (9 : Byte)).op = 1 ∧ (wCmd (1 : Byte) (0 : Byte) (9 : Byte)).aborted = false ∧
     (wCmdOn tRun (1 : Byte) (0 : Byte) (9 : Byte)).runs Isl.NTB = true ∧
     BitVec.ofNat 64 (leAt (wCmd (1 : Byte) (0 : Byte) (9 : Byte)).entry 0 8) ≠ (0 : Word64) ∧
     BitVec.ofNat 64 (leAt (wCmd (1 : Byte) (0 : Byte) (9 : Byte)).entry 0 8) ≠ BitVec.allOnes 64 ∧
     (∀ p ∈ (wCmdOn tRun (1 : Byte) (0 : Byte) (9 : Byte)).ntb.dir, p.2.perr = false) ∧
     ((wCmdOn tRun (1 : Byte) (0 : Byte) (9 : Byte)).pickHandle (wCmd (1 : Byte) (0 : Byte) (9 : Byte))).1 =
      Except.ok (5 : BitVec 18) ∧
     (wCmdOn tRun (1 : Byte) (0 : Byte) (9 : Byte)).freeIn 0 ((wCmdOn tRun (1 : Byte) (0 : Byte) (9 : Byte)).bucket
      0 (BitVec.ofNat 64 (leAt (wCmd (1 : Byte) (0 : Byte) (9 : Byte)).entry 0 8))) = some ((bucketLocs 0 (bucketOf
      (0 : BitVec 128) (9 : Word64))).headD 0)) ∧
    (wCmdOn tRun (1 : Byte) (0 : Byte) (9 : Byte)).probeFinds (BitVec.ofNat 64 (leAt (wCmd (1 : Byte) (0 : Byte) (9
      : Byte)).entry 0 8)) none ∧
    ((wCmdOn tRun (1 : Byte) (0 : Byte) (0 : Byte)).ntb.cmdQ = [wCmd (1 : Byte) (0 : Byte) (0 : Byte)] ∧
     (wCmd (1 : Byte) (0 : Byte) (0 : Byte)).op = 1 ∧ (wCmd (1 : Byte) (0 : Byte) (0 : Byte)).aborted = false ∧
     (wCmdOn tRun (1 : Byte) (0 : Byte) (0 : Byte)).runs Isl.NTB = true ∧
     (BitVec.ofNat 64 (leAt (wCmd (1 : Byte) (0 : Byte) (0 : Byte)).entry 0 8) = (0 : Word64) ∨ BitVec.ofNat 64
      (leAt (wCmd (1 : Byte) (0 : Byte) (0 : Byte)).entry 0 8) = BitVec.allOnes 64)) := by
  exact ⟨by decide +kernel, findsOk (by decide +kernel), by decide +kernel⟩

theorem wit_TableCommands :
    ((wCmdOn wTab (3 : Byte) (0 : Byte) (0 : Byte)).ntb.cmdQ = [wCmd (3 : Byte) (0 : Byte) (0 : Byte)] ∧
     (wCmd (3 : Byte) (0 : Byte) (0 : Byte)).aborted = false ∧
     (wCmdOn wTab (3 : Byte) (0 : Byte) (0 : Byte)).runs Isl.NTB = true ∧
     (wCmd (3 : Byte) (0 : Byte) (0 : Byte)).genMiss tEntry = false ∧
     (wCmd (3 : Byte) (0 : Byte) (0 : Byte)).op = 3) ∧
    (wCmdOn wTab (3 : Byte) (0 : Byte) (0 : Byte)).hasEntry (wCmd (3 : Byte) (0 : Byte) (0 : Byte)).handle 18012
      tEntry ∧
    ((wCmdOn wJTab (2 : Byte) (0 : Byte) (0 : Byte)).ntb.cmdQ = [wCmd (2 : Byte) (0 : Byte) (0 : Byte)] ∧
     (wCmd (2 : Byte) (0 : Byte) (0 : Byte)).aborted = false ∧
     (wCmdOn wJTab (2 : Byte) (0 : Byte) (0 : Byte)).runs Isl.NTB = true ∧
     (wCmd (2 : Byte) (0 : Byte) (0 : Byte)).genMiss wJoining = false ∧
     (wCmd (2 : Byte) (0 : Byte) (0 : Byte)).op = 2 ∧ wJoining.state = NodeState.joining) ∧
    (wCmdOn wJTab (2 : Byte) (0 : Byte) (0 : Byte)).hasEntry (wCmd (2 : Byte) (0 : Byte) (0 : Byte)).handle 18012
      wJoining ∧
    ((wCmdOn wTab (4 : Byte) (0 : Byte) (0 : Byte)).ntb.cmdQ = [wCmd (4 : Byte) (0 : Byte) (0 : Byte)] ∧
     (wCmd (4 : Byte) (0 : Byte) (0 : Byte)).aborted = false ∧
     (wCmdOn wTab (4 : Byte) (0 : Byte) (0 : Byte)).runs Isl.NTB = true ∧
     (wCmd (4 : Byte) (0 : Byte) (0 : Byte)).genMiss tEntry = false ∧ (wCmd (4 : Byte) (0 : Byte) (0 : Byte)).op = 4 ∧
     tEntry.qne = false) ∧
    (wCmdOn wTab (4 : Byte) (0 : Byte) (0 : Byte)).hasEntry (wCmd (4 : Byte) (0 : Byte) (0 : Byte)).handle 18012
      tEntry ∧
    ((wCmdOn wTab (5 : Byte) (0 : Byte) (0 : Byte)).ntb.cmdQ = [wCmd (5 : Byte) (0 : Byte) (0 : Byte)] ∧
     (wCmd (5 : Byte) (0 : Byte) (0 : Byte)).aborted = false ∧
     (wCmdOn wTab (5 : Byte) (0 : Byte) (0 : Byte)).runs Isl.NTB = true ∧
     (wCmd (5 : Byte) (0 : Byte) (0 : Byte)).genMiss tEntry = false ∧ (wCmd (5 : Byte) (0 : Byte) (0 : Byte)).op = 5 ∧
     tEntry.lock = false) ∧
    (wCmdOn wTab (5 : Byte) (0 : Byte) (0 : Byte)).hasEntry (wCmd (5 : Byte) (0 : Byte) (0 : Byte)).handle 18012
      tEntry := by
  exact ⟨by decide +kernel, by unfold State.hasEntry; decide +kernel, by decide +kernel,
    by unfold State.hasEntry; decide +kernel, by decide +kernel, by unfold State.hasEntry; decide +kernel,
    by decide +kernel, by unfold State.hasEntry; decide +kernel⟩

theorem wit_TableRefusals :
    ((wCmdOn tRun (2 : Byte) (0 : Byte) (0 : Byte)).ntb.cmdQ = [wCmd (2 : Byte) (0 : Byte) (0 : Byte)] ∧
     (wCmd (2 : Byte) (0 : Byte) (0 : Byte)).aborted = false ∧
     (wCmdOn tRun (2 : Byte) (0 : Byte) (0 : Byte)).runs Isl.NTB = true ∧
     mget (wCmdOn tRun (2 : Byte) (0 : Byte) (0 : Byte)).ntb.dir (wCmd (2 : Byte) (0 : Byte) (0 :
      Byte)).handle.toNat = none ∧ (wCmd (2 : Byte) (0 : Byte) (0 : Byte)).op = 2) ∧
    ((wCmdOn tRun (3 : Byte) (0 : Byte) (0 : Byte)).ntb.cmdQ = [wCmd (3 : Byte) (0 : Byte) (0 : Byte)] ∧
     (wCmd (3 : Byte) (0 : Byte) (0 : Byte)).aborted = false ∧
     (wCmdOn tRun (3 : Byte) (0 : Byte) (0 : Byte)).runs Isl.NTB = true ∧
     mget (wCmdOn tRun (3 : Byte) (0 : Byte) (0 : Byte)).ntb.dir (wCmd (3 : Byte) (0 : Byte) (0 :
      Byte)).handle.toNat = none ∧ (wCmd (3 : Byte) (0 : Byte) (0 : Byte)).op = 3) ∧
    ((wCmdOn tRun (4 : Byte) (0 : Byte) (0 : Byte)).ntb.cmdQ = [wCmd (4 : Byte) (0 : Byte) (0 : Byte)] ∧
     (wCmd (4 : Byte) (0 : Byte) (0 : Byte)).aborted = false ∧
     (wCmdOn tRun (4 : Byte) (0 : Byte) (0 : Byte)).runs Isl.NTB = true ∧
     mget (wCmdOn tRun (4 : Byte) (0 : Byte) (0 : Byte)).ntb.dir (wCmd (4 : Byte) (0 : Byte) (0 :
      Byte)).handle.toNat = none ∧ (wCmd (4 : Byte) (0 : Byte) (0 : Byte)).op = 4) ∧
    ((wCmdOn tRun (5 : Byte) (0 : Byte) (0 : Byte)).ntb.cmdQ = [wCmd (5 : Byte) (0 : Byte) (0 : Byte)] ∧
     (wCmd (5 : Byte) (0 : Byte) (0 : Byte)).aborted = false ∧
     (wCmdOn tRun (5 : Byte) (0 : Byte) (0 : Byte)).runs Isl.NTB = true ∧
     mget (wCmdOn tRun (5 : Byte) (0 : Byte) (0 : Byte)).ntb.dir (wCmd (5 : Byte) (0 : Byte) (0 :
      Byte)).handle.toNat = none ∧ (wCmd (5 : Byte) (0 : Byte) (0 : Byte)).op = 5) ∧
    ((wCmdOn wTab (2 : Byte) (4 : Byte) (0 : Byte)).ntb.cmdQ = [wCmd (2 : Byte) (4 : Byte) (0 : Byte)] ∧
     (wCmd (2 : Byte) (4 : Byte) (0 : Byte)).aborted = false ∧
     (wCmdOn wTab (2 : Byte) (4 : Byte) (0 : Byte)).runs Isl.NTB = true ∧
     (wCmd (2 : Byte) (4 : Byte) (0 : Byte)).genMiss tEntry = true ∧ (wCmd (2 : Byte) (4 : Byte) (0 : Byte)).op = 2) ∧
    (wCmdOn wTab (2 : Byte) (4 : Byte) (0 : Byte)).hasEntry (wCmd (2 : Byte) (4 : Byte) (0 : Byte)).handle 18012
      tEntry ∧
    ((wCmdOn wTab (4 : Byte) (4 : Byte) (0 : Byte)).ntb.cmdQ = [wCmd (4 : Byte) (4 : Byte) (0 : Byte)] ∧
     (wCmd (4 : Byte) (4 : Byte) (0 : Byte)).aborted = false ∧
     (wCmdOn wTab (4 : Byte) (4 : Byte) (0 : Byte)).runs Isl.NTB = true ∧
     (wCmd (4 : Byte) (4 : Byte) (0 : Byte)).genMiss tEntry = true ∧ (wCmd (4 : Byte) (4 : Byte) (0 : Byte)).op = 4) ∧
    (wCmdOn wTab (4 : Byte) (4 : Byte) (0 : Byte)).hasEntry (wCmd (4 : Byte) (4 : Byte) (0 : Byte)).handle 18012
      tEntry ∧
    ((wCmdOn wBTab (4 : Byte) (0 : Byte) (0 : Byte)).ntb.cmdQ = [wCmd (4 : Byte) (0 : Byte) (0 : Byte)] ∧
     (wCmdOn wBTab (4 : Byte) (0 : Byte) (0 : Byte)).runs Isl.NTB = true ∧
     (wCmd (4 : Byte) (0 : Byte) (0 : Byte)).genMiss wBusy = false ∧ wBusy.qne = true) ∧
    (wCmdOn wBTab (4 : Byte) (0 : Byte) (0 : Byte)).hasEntry (wCmd (4 : Byte) (0 : Byte) (0 : Byte)).handle 18012
      wBusy ∧
    ((wCmdOn wBTab (5 : Byte) (0 : Byte) (0 : Byte)).ntb.cmdQ = [wCmd (5 : Byte) (0 : Byte) (0 : Byte)] ∧
     (wCmdOn wBTab (5 : Byte) (0 : Byte) (0 : Byte)).runs Isl.NTB = true ∧ wBusy.lock = true) ∧
    (wCmdOn wBTab (5 : Byte) (0 : Byte) (0 : Byte)).hasEntry (wCmd (5 : Byte) (0 : Byte) (0 : Byte)).handle 18012
      wBusy ∧
    ((wLk wTab).ntb.cmdQ = [wLook] ∧ wLook.op = 6 ∧ wLook.aborted = false ∧ (wLk wTab).runs Isl.NTB = true) ∧
    (wLk wTab).probeFinds (BitVec.ofNat 64 (leAt wLook.entry 0 8)) (some 18012) ∧
    (wLk wTab).hasEntry tEntry.handle 18012 tEntry ∧
    ((wLk tRun).ntb.cmdQ = [wLook] ∧ (wLk tRun).runs Isl.NTB = true) ∧
    (wLk tRun).probeFinds (BitVec.ofNat 64 (leAt wLook.entry 0 8)) none ∧
    ((wDone false).tunnel = false ∧ wDown.dma = false) ∧
    tRun.dma = true ∧
    (wDone true).tunnel = true := by
  exact ⟨by decide +kernel, by decide +kernel, by decide +kernel, by decide +kernel, by decide +kernel,
    by unfold State.hasEntry; decide +kernel, by decide +kernel, by unfold State.hasEntry; decide +kernel,
    by decide +kernel, by unfold State.hasEntry; decide +kernel, by decide +kernel,
    by unfold State.hasEntry; decide +kernel, by decide +kernel, findsOk (by decide +kernel),
    by unfold State.hasEntry; decide +kernel, by decide +kernel, findsOk (by decide +kernel), by decide +kernel,
    by decide +kernel, by decide +kernel⟩

theorem wit_DrainSweepAndLocks :
    (wStash.on Reg.NTB_STASH_DRAIN = true ∧ wStash.runs Isl.NTB = true ∧ wStash.standby = false ∧ 4 < 16 ∧
     (∀ j < 16, j ≠ 4 → mget wStash.ntb.slots (stashLoc j) = none) ∧ tEntry.lock = false ∧
     mget wStash.ntb.slots (stashLoc 4) = some { entry := tEntry, bad := false, perr := (0 : BitVec 12) : Slot } ∧
     wStash.freeIn 0 (wStash.bucket 0 tEntry.eui) = some 18012) ∧
    (18012 = (wSweep true true).rd Reg.NTB_SWEEP_POS ∧ (wSweep true true).rd Reg.NTB_SWEEP_PER ≠ 0 ∧
     (wSweep true true).runs Isl.NTB = true ∧ (wSweep true true).standby = false ∧
     mget (wSweep true true).ntb.slots 18012 = some
      { entry := wEnt true true, bad := false, perr := (0 : BitVec 12) : Slot } ∧ (wEnt true true).lock = false ∧
     (wEnt true true).pin = false ∧ (wEnt true true).qne = false) ∧
    (18012 = (wSweep false false).rd Reg.NTB_SWEEP_POS ∧ (wSweep false false).rd Reg.NTB_SWEEP_PER ≠ 0 ∧
     (wSweep false false).runs Isl.NTB = true ∧ (wSweep false false).standby = false ∧
     mget (wSweep false false).ntb.slots 18012 = some
      { entry := wEnt false false, bad := false, perr := (0 : BitVec 12) : Slot } ∧ (wEnt false false).lock = false ∧
     (wEnt false false).pin = false ∧ (wEnt false false).qne = false) ∧
    (18012 = (wSweep false true).rd Reg.NTB_SWEEP_POS ∧ (wSweep false true).rd Reg.NTB_SWEEP_PER ≠ 0 ∧
     (wSweep false true).runs Isl.NTB = true ∧ (wSweep false true).standby = false ∧
     mget (wSweep false true).ntb.slots 18012 = some
      { entry := wEnt false true, bad := false, perr := (0 : BitVec 12) : Slot } ∧ (wEnt false true).lock = false ∧
     (wEnt false true).pin = false ∧ (wEnt false true).qne = false) ∧
    (262159 = wSweepLast.rd Reg.NTB_SWEEP_POS ∧ wSweepLast.rd Reg.NTB_SWEEP_PER ≠ 0 ∧ wSweepLast.runs Isl.NTB = true ∧
     wSweepLast.standby = false ∧
     mget wSweepLast.ntb.slots 262159 = some { entry := tEntry, bad := false, perr := (0 : BitVec 12) : Slot } ∧
     tEntry.pin = false ∧ tEntry.qne = false) ∧
    ((wCmp true).ntb.sweepCmp = some 18012 ∧
     mget (wCmp true).ntb.slots 18012 = some
      { entry := wEnt true true, bad := false, perr := (0 : BitVec 12) : Slot }) ∧
    ((wCmp false).ntb.sweepCmp = some 18012 ∧
     mget (wCmp false).ntb.slots 18012 = some
      { entry := wEnt false true, bad := false, perr := (0 : BitVec 12) : Slot }) ∧
    (wLocks.runs Isl.NTB = true ∧
     (wLocks.ntb.locks.any fun (p : Nat × Nat) => decide (p.1 = BitVec.toNat (5 : BitVec 18))) = true) ∧
    wLocks.hasEntry (5 : BitVec 18) 18012 wLocked ∧
    wPurge.car.purge = [(5 : BitVec 18)] := by
  exact ⟨by decide +kernel, by decide +kernel, by decide +kernel, by decide +kernel, by decide +kernel,
    by decide +kernel, by decide +kernel, by decide +kernel, by unfold State.hasEntry; decide +kernel,
    by decide +kernel⟩

theorem wit_BucketsAndOverflow :
    ((wBucket [wEv 5002]).runs Isl.SCH = true ∧ (wBucket [wEv 5002]).runs Isl.NTB = true ∧
     (wBucket [wEv 5002]).on Reg.TIM_TIME_SET = true ∧ (wBucket [wEv 5002]).sch.lastBucket = some 5000 ∧
     5000 + 1 ≤ (wBucket [wEv 5002]).ms + 3 ∧ (wBucket [wEv 5002]).standby = false ∧
     (∀ v ∈ (wBucket [wEv 5002]).sch.wheel, 5000 + 1 < WEvent.ms v)) ∧
    (∀ (g : Grp), ((wBucket [wEv 5002]).fe g).cal = none ∧ ((wBucket [wEv 5002]).fe g).tune = none) ∧
    ((wBucket [wEv 5001]).runs Isl.SCH = true ∧ (wBucket [wEv 5001]).runs Isl.NTB = true ∧
     (wBucket [wEv 5001]).on Reg.TIM_TIME_SET = true ∧ (wBucket [wEv 5001]).sch.lastBucket = some 5000 ∧
     5000 + 1 ≤ (wBucket [wEv 5001]).ms + 3 ∧ (wBucket [wEv 5001]).standby = false ∧
     (wBucket [wEv 5001]).sch.wheel = [wEv 5001] ∧ WEvent.ms (wEv 5001) = 5000 + 1 ∧
     (wBucket [wEv 5001]).liveEvent (wEv 5001) (5000 + 1) = none) ∧
    (∀ (g : Grp), ((wBucket [wEv 5001]).fe g).cal = none ∧ ((wBucket [wEv 5001]).fe g).tune = none) ∧
    (wDriftS.runs Isl.SCH = true ∧ wDriftS.runs Isl.NTB = true ∧ wDriftS.on Reg.TIM_TIME_SET = true ∧
     wDriftS.sch.lastBucket = some 5000 ∧ 5000 + 1 ≤ wDriftS.ms + 3 ∧ wDriftS.standby = false ∧
     wDriftS.sch.wheel = [wDriftEv] ∧ WEvent.ms wDriftEv = 5000 + 1 ∧
     wDriftS.liveEvent wDriftEv (5000 + 1) = some (wDriftC, (5001 : Int)) ∧ wDriftS.twn.swapStop = false ∧
     wDriftS.dlOpen = true ∧ wDriftC.state = NodeState.active ∧ wDriftS.chanLive wDriftC.chan = true ∧
     wmaxUs wDriftC.wcls < uncertainty wDriftC (wakeDelta wDriftC (5001 : Int))) ∧
    (∀ (g : Grp), (wDriftS.fe g).cal = none ∧ (wDriftS.fe g).tune = none) ∧
    wDriftS.hasEntry wDriftEv.handle 18012 wDriftC ∧
    (wOvf.runs Isl.SCH = true ∧ wOvf.sch.ovf = [wEv 70000] ∧ WEvent.ms (wEv 70000) < wOvf.bucketNow + 65536) := by
  exact ⟨by decide +kernel, by intro g; cases g <;> decide +kernel, by decide +kernel,
    by intro g; cases g <;> decide +kernel, by decide +kernel, by intro g; cases g <;> decide +kernel,
    by unfold State.hasEntry; decide +kernel, by decide +kernel⟩

theorem wit_PredictionAndClamp :
    (wTab.ntb.slots = [(18012, { entry := tEntry, bad := false, perr := (0 : BitVec 12) : Slot })] ∧
     wTab.runs Isl.SCH = true ∧ wTab.runs Isl.NTB = true ∧ wTab.standby = false) ∧
    wTab.hasEntry (5 : BitVec 18) 18012 tEntry ∧
    ((withEntry tRun wOld 18012).ntb.slots = [(18012,
      { entry := wOld, bad := false, perr := (0 : BitVec 12) : Slot })] ∧
     (withEntry tRun wOld 18012).runs Isl.SCH = true ∧ (withEntry tRun wOld 18012).runs Isl.NTB = true ∧
     (withEntry tRun wOld 18012).standby = false) ∧
    (withEntry tRun wOld 18012).hasEntry (5 : BitVec 18) 18012 wOld ∧
    ((wTab.wr Reg.SCH_PRED_HANDLE 5).hostMay Isl.SCH = true ∧
     (wTab.wr Reg.SCH_PRED_HANDLE 5).rd Reg.SCH_PRED_HANDLE = BitVec.toNat (5 : BitVec 18) ∧
     (wTab.wr Reg.SCH_PRED_HANDLE 5).rd Reg.SCH_PRED_STAT ≠ 1 ∧ (wTab.wr Reg.SCH_PRED_HANDLE 5).runs Isl.NTB = true ∧
     tEntry.wakeInt ≠ (0 : BitVec 24)) ∧
    (wTab.wr Reg.SCH_PRED_HANDLE 5).hasEntry (5 : BitVec 18) 18012 tEntry ∧
    (wNoWakes.hostMay Isl.SCH = true ∧ wNoWakes.rd Reg.SCH_PRED_HANDLE = BitVec.toNat (5 : BitVec 18) ∧
     wNoWakes.rd Reg.SCH_PRED_STAT ≠ 1 ∧ wNoWakes.runs Isl.NTB = true ∧ wNoWake.wakeInt = (0 : BitVec 24)) ∧
    wNoWakes.hasEntry (5 : BitVec 18) 18012 wNoWake ∧
    (wNoNtb.hostMay Isl.SCH = true ∧ wNoNtb.rd Reg.SCH_PRED_HANDLE = BitVec.toNat (5 : BitVec 18) ∧
     wNoNtb.rd Reg.SCH_PRED_STAT ≠ 1 ∧ wNoNtb.runs Isl.NTB = false) ∧
    wNoNtb.hasEntry (5 : BitVec 18) 18012 tEntry := by
  exact ⟨by decide +kernel, by unfold State.hasEntry; decide +kernel, by decide +kernel,
    by unfold State.hasEntry; decide +kernel, by decide +kernel, by unfold State.hasEntry; decide +kernel,
    by decide +kernel, by unfold State.hasEntry; decide +kernel, by decide +kernel,
    by unfold State.hasEntry; decide +kernel⟩

theorem wit_UplinkClasses :
    BitVec.toNat tEntry.fcntUl < BitVec.toNat (11 : Word) ∧
    (¬BitVec.toNat tEntry.fcntUl < BitVec.toNat (10 : Word) ∧ (3 : Byte) = tEntry.dsnUl) ∧
    (4 : Byte) ≠ tEntry.dsnUl ∧
    (wStby.sch.ul = [wUl none false] ∧ wStby.runs Isl.SCH = true ∧ wStby.runs Isl.NTB = true ∧ wStby.quiet = true) ∧
    ((wSchUl wTab (wUlCopy (10 : Word) (4 : Byte))).sch.ul = [wUlCopy (10 : Word) (4 : Byte)] ∧
     (wSchUl wTab (wUlCopy (10 : Word) (4 : Byte))).runs Isl.SCH = true ∧
     (wSchUl wTab (wUlCopy (10 : Word) (4 : Byte))).runs Isl.NTB = true ∧
     (wSchUl wTab (wUlCopy (10 : Word) (4 : Byte))).quiet = false ∧
     (wUlCopy (10 : Word) (4 : Byte)).copy = some (tEntry.copy (4 : Byte) (11 : Word)) ∧
     (wSchUl wTab (wUlCopy (10 : Word) (4 : Byte))).entry (tEntry.copy (4 : Byte) (11 : Word)).handle = some tEntry ∧
     (accept tEntry (wUlCopy (10 : Word) (4 : Byte)).psdu.fc (wUlCopy (10 : Word) (4 : Byte)).psdu.dsn).1 =
      UlClass.replay) ∧
    ((wSchUl wTab (wUlCopy (11 : Word) (4 : Byte))).sch.ul = [wUlCopy (11 : Word) (4 : Byte)] ∧
     (wSchUl wTab (wUlCopy (11 : Word) (4 : Byte))).runs Isl.SCH = true ∧
     (wSchUl wTab (wUlCopy (11 : Word) (4 : Byte))).runs Isl.NTB = true ∧
     (wSchUl wTab (wUlCopy (11 : Word) (4 : Byte))).quiet = false ∧
     (wUlCopy (11 : Word) (4 : Byte)).copy = some (tEntry.copy (4 : Byte) (11 : Word)) ∧
     (wSchUl wTab (wUlCopy (11 : Word) (4 : Byte))).entry (tEntry.copy (4 : Byte) (11 : Word)).handle = some tEntry ∧
     (accept tEntry (wUlCopy (11 : Word) (4 : Byte)).psdu.fc (wUlCopy (11 : Word) (4 : Byte)).psdu.dsn).1 =
      UlClass.fresh) ∧
    ((wSchUl wTab (wUlCopy (10 : Word) (3 : Byte))).sch.ul = [wUlCopy (10 : Word) (3 : Byte)] ∧
     (wSchUl wTab (wUlCopy (10 : Word) (3 : Byte))).runs Isl.SCH = true ∧
     (wSchUl wTab (wUlCopy (10 : Word) (3 : Byte))).runs Isl.NTB = true ∧
     (wSchUl wTab (wUlCopy (10 : Word) (3 : Byte))).quiet = false ∧
     (wUlCopy (10 : Word) (3 : Byte)).copy = some (tEntry.copy (4 : Byte) (11 : Word)) ∧
     (wSchUl wTab (wUlCopy (10 : Word) (3 : Byte))).entry (tEntry.copy (4 : Byte) (11 : Word)).handle = some tEntry ∧
     (accept tEntry (wUlCopy (10 : Word) (3 : Byte)).psdu.fc (wUlCopy (10 : Word) (3 : Byte)).psdu.dsn).1 =
      UlClass.duplicate) ∧
    ((wSchUl tRun (wUlCopy (11 : Word) (4 : Byte))).sch.ul = [wUlCopy (11 : Word) (4 : Byte)] ∧
     (wSchUl tRun (wUlCopy (11 : Word) (4 : Byte))).runs Isl.SCH = true ∧
     (wSchUl tRun (wUlCopy (11 : Word) (4 : Byte))).runs Isl.NTB = true ∧
     (wSchUl tRun (wUlCopy (11 : Word) (4 : Byte))).quiet = false ∧
     (wSchUl tRun (wUlCopy (11 : Word) (4 : Byte))).entry (tEntry.copy (4 : Byte) (11 : Word)).handle = none) ∧
    (wUnk.sch.ul = [wUl none false] ∧ wUnk.runs Isl.SCH = true ∧ wUnk.runs Isl.NTB = true ∧ wUnk.quiet = false ∧
     (wUl none false).copy = none ∧ wUnk.on Reg.SCH_UNK_DELIVER = false ∧
     (wUnk.on Reg.SCH_JOIN_AUTO = false ∨ wUnk.joinIe (wUl none false).psdu = none)) ∧
    (wUnkJ.sch.ul = [wJoinUl] ∧ wUnkJ.runs Isl.SCH = true ∧ wUnkJ.runs Isl.NTB = true ∧ wUnkJ.quiet = false ∧
     wJoinUl.copy = none ∧ wUnkJ.on Reg.SCH_UNK_DELIVER = false ∧ wUnkJ.on Reg.SCH_JOIN_AUTO = true ∧
     (wUnkJ.joinIe wJoinUl.psdu).isSome = true) ∧
    (wJoinQ.sch.joinQ = [wJoinUl] ∧ wJoinQ.runs Isl.SCH = true ∧ wJoinQ.runs Isl.NTB = true ∧
     wJoinQ.joinIe wJoinUl.psdu = some [(1 : Byte), (2 : Byte), (3 : Byte), (4 : Byte), (5 : Byte), (6 : Byte), (7
      : Byte), (8 : Byte), (9 : Byte)] ∧ wJoinUl.psdu.eui ≠ (0 : Word64) ∧ wJoinUl.psdu.eui ≠ BitVec.allOnes 64 ∧
     (∀ p ∈ wJoinQ.ntb.dir, p.2.perr = false) ∧ wJoinQ.nextHandle.1 = some (0 : BitVec 18) ∧
     wJoinQ.freeIn 0 (wJoinQ.bucket 0 wJoinUl.psdu.eui) = some 18012) ∧
    wJoinQ.probeFinds wJoinUl.psdu.eui none := by
  exact ⟨by decide +kernel, by decide +kernel, by decide +kernel, by decide +kernel, by decide +kernel,
    by decide +kernel, by decide +kernel, by decide +kernel, by decide +kernel, by decide +kernel, by decide +kernel,
    findsOk (by decide +kernel)⟩

theorem wit_TryOutcomes :
    (mget (wTry 1).car.nodeQs (BitVec.toNat (5 : BitVec 18)) = some
      { items := [wTryItem 1], read := 1, mark := 0, enqs := ((wTry 1).nodeQ (5 : BitVec 18)).enqs : Queue } ∧
     (wTryItem 1).hdr = some (wTryQ 1) ∧ (wTryQ 1).wd = false) ∧
    (wTry 1).hasEntry (5 : BitVec 18) 18012 tEntry ∧
    (mget (wTry 2).car.nodeQs (BitVec.toNat (5 : BitVec 18)) = some
      { items := [wTryItem 2], read := 1, mark := 0, enqs := ((wTry 2).nodeQ (5 : BitVec 18)).enqs : Queue } ∧
     (wTryItem 2).hdr = some (wTryQ 2) ∧ (wTryQ 2).wd = false ∧ (wTryQ 2).tries < 15 ∧
     (wTryQ 2).tries - (wTryQ 2).naks < 3) ∧
    (wTry 2).hasEntry (5 : BitVec 18) 18012 tEntry ∧
    (mget (wTry 3).car.nodeQs (BitVec.toNat (5 : BitVec 18)) = some
      { items := [wTryItem 3], read := 1, mark := 0, enqs := ((wTry 3).nodeQ (5 : BitVec 18)).enqs : Queue } ∧
     (wTryItem 3).hdr = some (wTryQ 3) ∧ (wTryQ 3).wd = false ∧
     ((wTryQ 3).tries = 15 ∨ 3 ≤ (wTryQ 3).tries - (wTryQ 3).naks)) ∧
    (wTry 3).hasEntry (5 : BitVec 18) 18012 tEntry ∧
    (mget (wTry 15).car.nodeQs (BitVec.toNat (5 : BitVec 18)) = some
      { items := [wTryItem 15], read := 1, mark := 0, enqs := ((wTry 15).nodeQ (5 : BitVec 18)).enqs : Queue } ∧
     (wTryItem 15).hdr = some (wTryQ 15) ∧ (wTryQ 15).wd = false ∧
     ((wTryQ 15).tries = 15 ∨ 15 ≤ (wTryQ 15).tries - (wTryQ 15).naks)) ∧
    (wTry 15).hasEntry (5 : BitVec 18) 18012 tEntry := by
  exact ⟨by decide +kernel, by unfold State.hasEntry; decide +kernel, by decide +kernel,
    by unfold State.hasEntry; decide +kernel, by decide +kernel, by unfold State.hasEntry; decide +kernel,
    by decide +kernel, by unfold State.hasEntry; decide +kernel⟩

theorem wit_Dispatches :
    (List.find? (fun (t : Try) => decide (t.kind = TxKind.dl) && decide (t.handle = (5 : BitVec 18)) &&
      t.committed) wWin.sch.tries = some tTry ∧ wWin.runs Isl.SCH = true) ∧
    (wBcn.beaconsRun = true ∧ wBcn.beaconOn ↑(2 : Fin 8) = true) ∧
    (∀ (t : Nat), mget wBcn.sch.bcnLast ↑(2 : Fin 8) = some t → t < (wBcn.startAt ↑(2 : Fin 8)).getD
      (wBcn.beaconFrom (↑(2 : Fin 8)) (wBcn.sys.timeNs + 2000000))) ∧
    (wMc.runs Isl.SCH = true ∧ wMc.quiet = false ∧ wMc.on Reg.TIM_TIME_SET = true ∧ wMc.serves ↑(2 : Fin 8) = true ∧
     (wMc.sysQ (24 + ↑(2 : Fin 8))).read = 0 ∧ (wMc.sysQ (24 + ↑(2 : Fin 8))).items = [wBlock] ∧
     wMc.chanLive (BitVec.ofNat 8 (wMc.rdI Reg.SCH_MC_ENT ↑(2 : Fin 8))) = true) ∧
    (∀ (t : Nat), mget wMc.sch.mcLast ↑(2 : Fin 8) = some t → t < wMc.blockFrom (↑(2 : Fin 8)) (wMc.sys.timeNs +
      2000000)) := by
  exact ⟨by decide +kernel, by decide +kernel, optNone (by decide +kernel), by decide +kernel,
    optNone (by decide +kernel)⟩

theorem wit_Aborts :
    ((wAbt.wr Reg.SYS_ABT_STAT 1).hostMay Isl.SYS = true ∧
     ((wAbt.wr Reg.SYS_ABT_STAT 1).rd Reg.SYS_ABT_STAT = 1 ∨ (wAbt.wr Reg.SYS_ABT_STAT 1).headless = true)) ∧
    (tRun.hostMay Isl.SYS = true ∧ tRun.rd Reg.SYS_ABT_STAT ≠ 1 ∧ tRun.headless = false ∧
     tRun.slotOf (BitVec.ofNat 18 (tRun.rd Reg.SYS_ABT_HANDLE)) = none) ∧
    ((wAbt.setRun Isl.CAR false).hostMay Isl.SYS = true ∧ (wAbt.setRun Isl.CAR false).rd Reg.SYS_ABT_STAT ≠ 1 ∧
     (wAbt.setRun Isl.CAR false).headless = false ∧
     (wAbt.setRun Isl.CAR false).slotOf (BitVec.ofNat 18 ((wAbt.setRun Isl.CAR false).rd Reg.SYS_ABT_HANDLE)) ≠ none ∧
     (wAbt.setRun Isl.CAR false).abortPath 1 = false) ∧
    (wAbt.hostMay Isl.SYS = true ∧ wAbt.rd Reg.SYS_ABT_STAT ≠ 1 ∧ wAbt.headless = false ∧
     wAbt.slotOf (BitVec.ofNat 18 (wAbt.rd Reg.SYS_ABT_HANDLE)) ≠ none ∧ wAbt.abortPath 1 = true) ∧
    (wAbtF.hostMay Isl.SYS = true ∧ wAbtF.rd Reg.SYS_ABT_STAT ≠ 1 ∧ wAbtF.headless = false ∧
     wAbtF.slotOf (BitVec.ofNat 18 (wAbtF.rd Reg.SYS_ABT_HANDLE)) ≠ none ∧ wAbtF.abortPath 1 = true ∧
     (wItem (1 : BitVec 16)).hdr = some (tHdr (1 : BitVec 16)) ∧
     (tHdr (1 : BitVec 16)).seq = BitVec.ofNat 16 (wAbtF.rd Reg.SYS_ABT_SEQ) ∧
     mget wAbtF.car.nodeQs (BitVec.ofNat 18 (wAbtF.rd Reg.SYS_ABT_HANDLE)).toNat = some
      { items := [wItem (1 : BitVec 16)], read := 0, mark := 0, enqs := (0 : BitVec 16) : Queue }) ∧
    (wAbtCmd.hostMay Isl.SYS = true ∧ wAbtCmd.rd Reg.SYS_ABT_STAT ≠ 1 ∧ wAbtCmd.headless = false ∧
     wAbtCmd.runs Isl.NTB = true) ∧
    ((wAbtCmd.setRun Isl.NTB false).hostMay Isl.SYS = true ∧ (wAbtCmd.setRun Isl.NTB false).rd Reg.SYS_ABT_STAT ≠ 1 ∧
     (wAbtCmd.setRun Isl.NTB false).headless = false ∧ (wAbtCmd.setRun Isl.NTB false).runs Isl.NTB = false) := by
  refine ⟨?_, ?_, ?_, ?_, ?_, ?_, ?_⟩ <;> decide +kernel

theorem wit_TransmitPath :
    ((wRing 0).ringReady ↑(0 : Fin 16) = true ∧ (wRing 0).headless = false ∧
     (∀ w ∈ (wRing 0).car.admitQ, w.hdr.ring ≠ ↑(0 : Fin 16))) ∧
    (wFull.admits wWaiting = false ∧ wFull.runs Isl.CAR = true ∧ wFull.roomFor wWaiting = false) ∧
    ((wFull.setRun Isl.CAR false).admits wWaiting = false ∧
     ((wFull.setRun Isl.CAR false).runs Isl.CAR = false ∨ (wFull.setRun Isl.CAR false).roomFor wWaiting = true)) ∧
    (wAdmit.car.admitQ = [] ++ [wWaiting] ∧ (∀ v ∈ [], wAdmit.admits v = false) ∧ wAdmit.admits wWaiting = true) ∧
    (tRun.sys.fences = [] ∧ mget tRun.ntb.dir (BitVec.toNat (5 : BitVec 18)) = none) ∧
    (wTab.sys.fences = [] ∧ wTab.runs Isl.NTB = true ∧ (wTab.nodeQ (5 : BitVec 18)).items = []) ∧
    wTab.hasEntry (5 : BitVec 18) 18012 tEntry ∧
    (wQed.sys.fences = [] ∧ wQed.runs Isl.NTB = true ∧
     (wQed.nodeQ (5 : BitVec 18)).items = [] ++ [wItem (1 : BitVec 16)] ∧
     (wItem (1 : BitVec 16)).hdr = some (tHdr (1 : BitVec 16)) ∧
     later (tHdr (1 : BitVec 16)).seq (tHdr (1 : BitVec 16)).seq = false) ∧
    wQed.hasEntry (5 : BitVec 18) 18012 tEntry ∧
    later (tHdr (2 : BitVec 16)).seq (tHdr (1 : BitVec 16)).seq = true := by
  exact ⟨by decide +kernel, by decide +kernel, by decide +kernel, by decide +kernel, by decide +kernel,
    by decide +kernel, by unfold State.hasEntry; decide +kernel, by decide +kernel,
    by unfold State.hasEntry; decide +kernel, by decide +kernel⟩

theorem wit_RingDeliveries :
    (List.find? (fun (p : Nat × TxSlot) => decide (p.1 = ↑(0 : Fin 16))) (wCompl none none).hst.txSlots = some (↑(0
      : Fin 16), wTxS none none) ∧ (wTxS none none).done = none) ∧
    (List.find? (fun (p : Nat × TxSlot) => decide (p.1 = ↑(0 : Fin 16))) (wCompl (some wTxD) none).hst.txSlots =
      some (↑(0 : Fin 16), wTxS (some wTxD) none) ∧ (wTxS (some wTxD) none).done = some wTxD ∧
     (wTxS (some wTxD) none).tunSeq = none ∧ (wCompl (some wTxD) none).dma = true) ∧
    (List.find? (fun (p : Nat × TxSlot) => decide (p.1 = ↑(0 : Fin 16))) (wCompl (some wTxD) (some (9 :
      Word))).hst.txSlots = some (↑(0 : Fin 16), wTxS (some wTxD) (some (9 : Word))) ∧
     (wTxS (some wTxD) (some (9 : Word))).done = some wTxD ∧
     (wTxS (some wTxD) (some (9 : Word))).tunSeq = some (9 : Word)) ∧
    ((wSys 1 wRxItem).ringReady (16 + ↑(1 : Fin 16)) = true ∧ (wSys 1 wRxItem).runs Isl.CAR = true ∧
     (wSys 1 wRxItem).headless = false ∧ (wSys 1 wRxItem).rxPick ↑(1 : Fin 16) = some 1 ∧
     ((wSys 1 wRxItem).sysQ 1).items = [wRxItem]) ∧
    ((wSys 18 wEvItem).hostReads Isl.CAR = true ∧ ((wSys 18 wEvItem).sysQ 18).items = [wEvItem]) ∧
    ((wSys 19 wEvItem).hostReads Isl.CAR = true ∧ ((wSys 19 wEvItem).sysQ 19).items = [wEvItem]) ∧
    (tRun.hostReads Isl.CAR = true ∧ (tRun.sysQ 18).items = []) ∧
    (tRun.sysQ 19).items = [] ∧
    (((wSys 18 wEvItem).setRun Isl.CAR false).hostReads Isl.CAR = false ∧
     ((wSys 18 wEvItem).setRun Isl.CAR false).sys.linkUp = true) ∧
    (((wSys 19 wEvItem).setRun Isl.CAR false).hostReads Isl.CAR = false ∧
     ((wSys 19 wEvItem).setRun Isl.CAR false).sys.linkUp = true) := by
  refine ⟨?_, ?_, ?_, ?_, ?_, ?_, ?_, ?_, ?_, ?_⟩ <;> decide +kernel

theorem wit_RingControl :
    (wRing 3).hostMay Isl.HST = true ∧
    (((wRing 3).wr Reg.HST_RING_SEL 4).hostMay Isl.HST = true ∧ true = true ∧
     ((wRing 3).wr Reg.HST_RING_SEL 4).rdB Reg.HST_RING_EN 0 (((wRing 3).wr Reg.HST_RING_SEL 4).rd
      Reg.HST_RING_SEL) ≠ 1) ∧
    (((wRing 3).wr Reg.HST_RING_SEL 3).hostMay Isl.HST = true ∧ false = false) ∧
    (BitVec.toNat (3 : BitVec 6) ≤ 32 ∧ (wRing 3).dma = true) ∧
    ((wRing 32).ringReady tblRing = true ∧ (wRing 32).headless = false ∧ (wRing 32).ntb.cmdQ = [] ∧
     1 ≤ leAt [(3 : Byte), (0 : Byte), (0 : Byte), (0 : Byte)] 0 1 ∧
     leAt [(3 : Byte), (0 : Byte), (0 : Byte), (0 : Byte)] 0 1 ≤ 6) := by
  refine ⟨?_, ?_, ?_, ?_, ?_⟩ <;> decide +kernel

theorem wit_UplinkChecks :
    (wNoKey.key.ul = [wMic none] ∧ wNoKey.runs Isl.KEY = true ∧ wNoKey.runs Isl.SCH = true ∧
     wNoKey.rd Reg.KEY_KSTATE ≠ 1) ∧
    ((wKeyUl wLevel).key.ul = [wLevel] ∧ (wKeyUl wLevel).runs Isl.KEY = true ∧ (wKeyUl wLevel).runs Isl.SCH = true ∧
     (wKeyUl wLevel).rd Reg.KEY_KSTATE = 1 ∧ (¬(¬wLevel.psdu.level < (wKeyUl wLevel).rd Reg.KEY_UL_SEC_MIN ∧
     wLevel.psdu.level ≠ 4))) ∧
    ((wKeyUl (wMicE (9 : Byte))).key.ul = [wMicE (9 : Byte)] ∧ (wKeyUl (wMicE (9 : Byte))).runs Isl.KEY = true ∧
     (wKeyUl (wMicE (9 : Byte))).runs Isl.SCH = true ∧ (wKeyUl (wMicE (9 : Byte))).rd Reg.KEY_KSTATE = 1 ∧
     (¬(wMicE (9 : Byte)).psdu.level < (wKeyUl (wMicE (9 : Byte))).rd Reg.KEY_UL_SEC_MIN ∧
     (wMicE (9 : Byte)).psdu.level ≠ 4) ∧
     (wMicE (9 : Byte)).psdu.mic = some (Key.link (wKeyUl (wMicE (9 : Byte))).aon.store.net (wKeyUl (wMicE (9 :
      Byte))).aon.store.epoch (wMicE (9 : Byte)).psdu.eui)) ∧
    ((wKeyUl (wMicE (8 : Byte))).key.ul = [wMicE (8 : Byte)] ∧ (wKeyUl (wMicE (8 : Byte))).runs Isl.KEY = true ∧
     (wKeyUl (wMicE (8 : Byte))).runs Isl.SCH = true ∧ (wKeyUl (wMicE (8 : Byte))).rd Reg.KEY_KSTATE = 1 ∧
     (¬(wMicE (8 : Byte)).psdu.level < (wKeyUl (wMicE (8 : Byte))).rd Reg.KEY_UL_SEC_MIN ∧
     (wMicE (8 : Byte)).psdu.level ≠ 4) ∧
     (wMicE (8 : Byte)).psdu.mic ≠ some (Key.link (wKeyUl (wMicE (8 : Byte))).aon.store.net (wKeyUl (wMicE (8 :
      Byte))).aon.store.epoch (wMicE (8 : Byte)).psdu.eui) ∧
     (wKeyUl (wMicE (8 : Byte))).key.prevEpoch = some ((77 : BitVec 256), (8 : Byte)) ∧
     (wMicE (8 : Byte)).psdu.mic = some (Key.link (77 : BitVec 256) (8 : Byte) (wMicE (8 : Byte)).psdu.eui)) ∧
    ((wKeyUl (wMic none)).key.ul = [wMic none] ∧ (wKeyUl (wMic none)).runs Isl.KEY = true ∧
     (wKeyUl (wMic none)).runs Isl.SCH = true ∧ (wKeyUl (wMic none)).rd Reg.KEY_KSTATE = 1 ∧
     (¬(wMic none).psdu.level < (wKeyUl (wMic none)).rd Reg.KEY_UL_SEC_MIN ∧ (wMic none).psdu.level ≠ 4) ∧
     (wMic none).psdu.mic = none) := by
  refine ⟨?_, ?_, ?_, ?_, ?_⟩ <;> decide +kernel

theorem wit_Securing :
    ((wSec (wDl true)).key.tx = [wDl true] ∧ (wSec (wDl true)).runs Isl.KEY = true ∧
     (wSec (wDl true)).runs Isl.PHY = true ∧ (wDl true).fence = true) ∧
    ((wSec wBeacon).key.tx = [wBeacon] ∧ (wSec wBeacon).runs Isl.KEY = true ∧ (wSec wBeacon).runs Isl.PHY = true ∧
     wBeacon.fence = false ∧ (wBeacon.kind = TxKind.beacon ∧ wBeacon.gid = (255 : Byte))) ∧
    ((wSec (wDl false)).key.tx = [wDl false] ∧ (wSec (wDl false)).runs Isl.KEY = true ∧
     (wSec (wDl false)).runs Isl.PHY = true ∧ (wDl false).fence = false ∧ (¬((wDl false).kind = TxKind.beacon ∧
     (wDl false).gid = (255 : Byte))) ∧ (wSec (wDl false)).hasKey (wDl false) = true ∧
     (wDl false).epoch = (wSec (wDl false)).aon.store.epoch ∧ (wSec (wDl false)).rd Reg.KEY_FC_NEXT < 4294967295) ∧
    ((wSec wBeaconG).key.tx = [wBeaconG] ∧ (wSec wBeaconG).runs Isl.KEY = true ∧ (wSec wBeaconG).runs Isl.PHY = true ∧
     wBeaconG.fence = false ∧ (¬(wBeaconG.kind = TxKind.beacon ∧ wBeaconG.gid = (255 : Byte))) ∧
     (wSec wBeaconG).hasKey wBeaconG = false) ∧
    ((wSec wStale).key.tx = [wStale] ∧ (wSec wStale).runs Isl.KEY = true ∧ (wSec wStale).runs Isl.PHY = true ∧
     wStale.fence = false ∧ (¬(wStale.kind = TxKind.beacon ∧ wStale.gid = (255 : Byte))) ∧
     (wSec wStale).hasKey wStale = true ∧ wStale.epoch ≠ (wSec wStale).aon.store.epoch) ∧
    (wExh.key.tx = [wDl false] ∧ wExh.runs Isl.KEY = true ∧ wExh.runs Isl.PHY = true ∧ wExh.hasKey (wDl false) = true ∧
     (wDl false).epoch = wExh.aon.store.epoch ∧ wExh.rd Reg.KEY_FC_NEXT = 4294967295) := by
  refine ⟨?_, ?_, ?_, ?_, ?_, ?_⟩ <;> decide +kernel

theorem wit_EpochChange :
    (tRun.hostMay Isl.KEY = true ∧
     (tRun.rd Reg.KEY_KSTATE ≠ 1 ∨ tRun.aon.store.left = 0 ∨ tRun.key.epochPend = true ∨ tRun.key.msgQ ≠ [])) ∧
    ((wKey tRun).hostMay Isl.KEY = true ∧ (wKey tRun).rd Reg.KEY_KSTATE = 1 ∧ (wKey tRun).aon.store.left ≠ 0 ∧
     (wKey tRun).key.epochPend = false ∧ (wKey tRun).key.msgQ = []) ∧
    (wChg [wAhead]).oldAhead Grp.L = true ∧
    ((wChg []).key.epochPend = true ∧ (wChg []).runs Isl.FEL = true ∧ (wChg []).runs Isl.FEH = true ∧
     (wChg []).runs Isl.FEI = true ∧ (wChg []).runs Isl.ETH = true) ∧
    (∀ (g : Grp), (wChg []).oldAhead g = false) := by
  exact ⟨by decide +kernel, by decide +kernel, by decide +kernel, by decide +kernel,
    by intro g; cases g <;> decide +kernel⟩

theorem wit_KeyUpdateRefusals :
    ((wKu wDep (wBad (1 : Byte))).key.msgQ = [(wTo, wBad (1 : Byte))] ∧
     (wKu wDep (wBad (1 : Byte))).runs Isl.KEY = true ∧ (wBad (1 : Byte)).kind = (1 : Byte) ∧
     (wKu wDep (wBad (1 : Byte))).kuCheck (wBad (1 : Byte)) KeyStore.empty = some (2 : Byte)) ∧
    ((wKu wDep (wBad (2 : Byte))).key.msgQ = [(wTo, wBad (2 : Byte))] ∧
     (wKu wDep (wBad (2 : Byte))).runs Isl.KEY = true ∧ (wBad (2 : Byte)).kind = (2 : Byte) ∧
     (wKu wDep (wBad (2 : Byte))).kuCheck (wBad (2 : Byte)) (wKu wDep (wBad (2 : Byte))).aon.store = some (2 :
      Byte)) ∧
    ((wKu wDep (wBad (3 : Byte))).key.msgQ = [(wTo, wBad (3 : Byte))] ∧
     (wKu wDep (wBad (3 : Byte))).runs Isl.KEY = true ∧ (wBad (3 : Byte)).kind = (3 : Byte) ∧
     (wKu wDep (wBad (3 : Byte))).kuCheck (wBad (3 : Byte)) (wKu wDep (wBad (3 : Byte))).aon.store = some (2 :
      Byte)) ∧
    ((wKu wDep (wBad (4 : Byte))).key.msgQ = [(wTo, wBad (4 : Byte))] ∧
     (wKu wDep (wBad (4 : Byte))).runs Isl.KEY = true ∧ (wBad (4 : Byte)).kind = (4 : Byte) ∧
     (wKu wDep (wBad (4 : Byte))).kuCheck (wBad (4 : Byte)) (wKu wDep (wBad (4 : Byte))).aon.store = some (2 :
      Byte)) := by
  refine ⟨?_, ?_, ?_, ?_⟩ <;> decide +kernel

theorem wit_KeyUpdateEffects :
    ((wKu wDep (tKu wDep (2 : Byte))).key.msgQ = [(wTo, tKu wDep (2 : Byte))] ∧
     (wKu wDep (tKu wDep (2 : Byte))).runs Isl.KEY = true ∧ (tKu wDep (2 : Byte)).kind = (2 : Byte) ∧
     (wKu wDep (tKu wDep (2 : Byte))).kuCheck (tKu wDep (2 : Byte)) (wKu wDep (tKu wDep (2 : Byte))).aon.store =
      none) ∧
    ((wKu wProv (tKu wProv (1 : Byte))).key.msgQ = [(wTo, tKu wProv (1 : Byte))] ∧
     (wKu wProv (tKu wProv (1 : Byte))).runs Isl.KEY = true ∧ (tKu wProv (1 : Byte)).kind = (1 : Byte) ∧
     (wKu wProv (tKu wProv (1 : Byte))).kuCheck (tKu wProv (1 : Byte)) KeyStore.empty = none) ∧
    ((wKu wDep (tKu wDep (3 : Byte))).key.msgQ = [(wTo, tKu wDep (3 : Byte))] ∧
     (wKu wDep (tKu wDep (3 : Byte))).runs Isl.KEY = true ∧ (tKu wDep (3 : Byte)).kind = (3 : Byte) ∧
     (wKu wDep (tKu wDep (3 : Byte))).kuCheck (tKu wDep (3 : Byte)) (wKu wDep (tKu wDep (3 : Byte))).aon.store =
      none) ∧
    ((wKu wDep (tKu wDep (4 : Byte))).key.msgQ = [(wTo, tKu wDep (4 : Byte))] ∧
     (wKu wDep (tKu wDep (4 : Byte))).runs Isl.KEY = true ∧ (tKu wDep (4 : Byte)).kind = (4 : Byte) ∧
     (wKu wDep (tKu wDep (4 : Byte))).kuCheck (tKu wDep (4 : Byte)) (wKu wDep (tKu wDep (4 : Byte))).aon.store =
      none) := by
  refine ⟨?_, ?_, ?_, ?_⟩ <;> decide +kernel

theorem wit_TamperDestroys :
    (wTmp.sys.hold = Hold.none ∧ wTmp.halted = false ∧ 7 ≤ wTmp.rd Reg.SYS_BOOT_STAGE ∧
     (5 : BitVec 6) &&& BitVec.ofNat 6 (wTmp.rd Reg.KEY_TAMPER_EN) ≠ (0 : BitVec 6)) ∧
    ((wTmp.wr Reg.KEY_SCRAP_ON_TAMPER 0).sys.hold = Hold.none ∧ (wTmp.wr Reg.KEY_SCRAP_ON_TAMPER 0).halted = false ∧
     7 ≤ (wTmp.wr Reg.KEY_SCRAP_ON_TAMPER 0).rd Reg.SYS_BOOT_STAGE ∧
     (5 : BitVec 6) &&& BitVec.ofNat 6 ((wTmp.wr Reg.KEY_SCRAP_ON_TAMPER 0).rd Reg.KEY_TAMPER_EN) ≠ (0 : BitVec 6) ∧
     (wTmp.wr Reg.KEY_SCRAP_ON_TAMPER 0).on Reg.KEY_SCRAP_ON_TAMPER = false) ∧
    ((wTmpM.wr Reg.KEY_SCRAP_ON_TAMPER 0).sys.hold = Hold.none ∧ (wTmpM.wr Reg.KEY_SCRAP_ON_TAMPER 0).halted = false ∧
     7 ≤ (wTmpM.wr Reg.KEY_SCRAP_ON_TAMPER 0).rd Reg.SYS_BOOT_STAGE ∧
     (5 : BitVec 6) &&& BitVec.ofNat 6 ((wTmpM.wr Reg.KEY_SCRAP_ON_TAMPER 0).rd Reg.KEY_TAMPER_EN) ≠ (0 : BitVec 6) ∧
     (wTmpM.wr Reg.KEY_SCRAP_ON_TAMPER 0).on Reg.KEY_SCRAP_ON_TAMPER = false) ∧
    ((wTmp.wr Reg.KEY_SCRAP_ON_TAMPER 1).sys.hold = Hold.none ∧ (wTmp.wr Reg.KEY_SCRAP_ON_TAMPER 1).halted = false ∧
     7 ≤ (wTmp.wr Reg.KEY_SCRAP_ON_TAMPER 1).rd Reg.SYS_BOOT_STAGE ∧
     (5 : BitVec 6) &&& BitVec.ofNat 6 ((wTmp.wr Reg.KEY_SCRAP_ON_TAMPER 1).rd Reg.KEY_TAMPER_EN) ≠ (0 : BitVec 6) ∧
     (wTmp.wr Reg.KEY_SCRAP_ON_TAMPER 1).on Reg.KEY_SCRAP_ON_TAMPER = true) ∧
    ((wTmp.wr Reg.SYS_BOOT_STAGE 4).sys.hold = Hold.none ∧ (wTmp.wr Reg.SYS_BOOT_STAGE 4).halted = false ∧
     (wTmp.wr Reg.SYS_BOOT_STAGE 4).rd Reg.SYS_BOOT_STAGE < 7 ∧
     (5 : BitVec 6) &&& BitVec.ofNat 6 ((wTmp.wr Reg.SYS_BOOT_STAGE 4).rd Reg.KEY_TAMPER_EN) ≠ (0 : BitVec 6)) ∧
    ((wTmp.wr Reg.SYS_BOOT_STAGE 2).sys.hold = Hold.none ∧ (wTmp.wr Reg.SYS_BOOT_STAGE 2).halted = false ∧
     (wTmp.wr Reg.SYS_BOOT_STAGE 2).rd Reg.SYS_BOOT_STAGE < 7 ∧
     (5 : BitVec 6) &&& BitVec.ofNat 6 ((wTmp.wr Reg.SYS_BOOT_STAGE 2).rd Reg.KEY_TAMPER_EN) ≠ (0 : BitVec 6)) ∧
    ((wTmp.wr Reg.SYS_BOOT_STAGE 15).sys.hold = Hold.none ∧ (wTmp.wr Reg.SYS_BOOT_STAGE 15).halted = true ∧
     (5 : BitVec 6) &&& BitVec.ofNat 6 ((wTmp.wr Reg.SYS_BOOT_STAGE 15).rd Reg.KEY_TAMPER_EN) ≠ (0 : BitVec 6)) ∧
    ((wHeld Hold.porst).sys.hold ≠ Hold.none ∧
     ((1 : BitVec 6) &&& BitVec.ofNat 6 ((wHeld Hold.porst).rd Reg.KEY_TAMPER_EN) &&& if (wHeld
      Hold.porst).sys.hold = Hold.porst then (3 : BitVec 6) else (63 : BitVec 6)) ≠ (0 : BitVec 6)) ∧
    ((wHeld Hold.clock).sys.hold ≠ Hold.none ∧
     ((4 : BitVec 6) &&& BitVec.ofNat 6 ((wHeld Hold.clock).rd Reg.KEY_TAMPER_EN) &&& if (wHeld
      Hold.clock).sys.hold = Hold.porst then (3 : BitVec 6) else (63 : BitVec 6)) ≠ (0 : BitVec 6)) := by
  refine ⟨?_, ?_, ?_, ?_, ?_, ?_, ?_, ?_, ?_⟩ <;> decide +kernel

theorem wit_UpdateSessions :
    ((wSes (tRec (1 : Byte)) none).sys.sessQ = [(wMb, tRec (1 : Byte))] ∧ (tRec (1 : Byte)).op = (1 : Byte) ∧
     (wSes (tRec (1 : Byte)) none).sys.sess = none ∧ (wSes (tRec (1 : Byte)) none).live = true ∧
     ((wSes (tRec (1 : Byte)) none).rd Reg.SYS_BOOT_STAGE ≠ 14 ∨ wMb.src = SessSrc.mailbox) ∧
     (BitVec.toNat (tRec (1 : Byte)).kind = 1 ∨ BitVec.toNat (tRec (1 : Byte)).kind = 2) ∧
     lenOk (BitVec.toNat (tRec (1 : Byte)).kind) (BitVec.toNat (tRec (1 : Byte)).value) = true) ∧
    ((wSes (tRec (1 : Byte)) (some (tSess 4096 0))).sys.sessQ = [(wMb, tRec (1 : Byte))] ∧
     (wSes (tRec (1 : Byte)) (some (tSess 4096 0))).sys.sess = some (tSess 4096 0)) ∧
    ((wSes (tRec (2 : Byte)) none).sys.sessQ = [(wMb, tRec (2 : Byte))] ∧
     (wSes (tRec (2 : Byte)) none).sessFor wMb (tRec (2 : Byte)) = Except.error (3 : Byte) ∧
     (tRec (2 : Byte)).op = (2 : Byte)) ∧
    ((wSes (tRec (3 : Byte)) none).sys.sessQ = [(wMb, tRec (3 : Byte))] ∧
     (wSes (tRec (3 : Byte)) none).sessFor wMb (tRec (3 : Byte)) = Except.error (3 : Byte) ∧
     (tRec (3 : Byte)).op = (3 : Byte)) ∧
    ((wSes wBlk (some wX)).sys.sessQ = [(wMb, wBlk)] ∧ (wSes wBlk (some wX)).sessFor wMb wBlk = Except.ok wX ∧
     (wSes wBlk (some wX)).sys.sess = some wX ∧ wBlk.op = (2 : Byte) ∧ wBlk.block % 2048 = wX.next ∧
     4096 * wX.next < wX.len ∧ wBlk.blen = min 4096 (wX.len - 4096 * wX.next) ∧ wBlk.data.length = wBlk.blen ∧
     crc32 wBlk.data = wBlk.value) ∧
    (wCommit.sys.sessQ = [(wMb, tRec (3 : Byte))] ∧ wCommit.sessFor wMb (tRec (3 : Byte)) = Except.ok (tSess 4096 1) ∧
     wCommit.sys.sess = some (tSess 4096 1) ∧ (tSess 4096 1).len ≤ (tSess 4096 1).next * 4096 ∧
     wCommit.stagedAgrees (tSess 4096 1) = true) ∧
    ((wSes (tRec (3 : Byte)) (some wShort)).sys.sessQ = [(wMb, tRec (3 : Byte))] ∧
     (wSes (tRec (3 : Byte)) (some wShort)).sessFor wMb (tRec (3 : Byte)) = Except.ok wShort ∧
     (wSes (tRec (3 : Byte)) (some wShort)).sys.sess = some wShort ∧ wShort.next * 4096 < wShort.len) ∧
    ((wSes (tRec (4 : Byte)) (some wShort)).sys.sessQ = [(wMb, tRec (4 : Byte))] ∧
     (wSes (tRec (4 : Byte)) (some wShort)).sessFor wMb (tRec (4 : Byte)) = Except.ok wShort ∧
     (wSes (tRec (4 : Byte)) (some wShort)).sys.sess = some wShort ∧ (tRec (4 : Byte)).op = (4 : Byte)) ∧
    (wOpen.sys.sess = some wShort ∧ wOpen.sys.sessQ = []) ∧
    wOpen.hostMay Isl.SYS = true ∧
    (tRun.hostMay Isl.SYS = true ∧ tRun.sys.sess = none ∧ tRun.sys.commitAt = none) ∧
    ((wKill 9960000).hostMay Isl.SYS = true ∧ (wKill 9960000).sys.sess = none ∧
     (wKill 9960000).sys.commitAt = some 9960000) ∧
    ((wKill 9956250).hostMay Isl.SYS = true ∧ (wKill 9956250).sys.sess = none ∧
     (wKill 9956250).sys.commitAt = some 9956250) := by
  refine ⟨?_, ?_, ?_, ?_, ?_, ?_, ?_, ?_, ?_, ?_, ?_, ?_, ?_⟩ <;> decide +kernel

theorem wit_Attestation :
    ((wAtt 196608).sys.sessQ = [(wMb, tRec (16 : Byte))] ∧ (tRec (16 : Byte)).op = (16 : Byte) ∧
     (wAtt 196608).attRefusal wMb = none) ∧
    ((wAtt 196609).sys.sessQ = [(wMb, tRec (16 : Byte))] ∧ (wAtt 196609).attRefusal wMb = none) ∧
    ((wSes (tRec (16 : Byte)) none).sys.sessQ = [(wMb, tRec (16 : Byte))] ∧
     (wSes (tRec (16 : Byte)) none).attRefusal wMb = some (12 : Byte)) ∧
    wSign.key.attest = some tAtt ∧
    ((wAtt 196608).sys.hold = Hold.none ∧ (wAtt 196608).halted = false) ∧
    (tRun.sys.hold = Hold.none ∧ tRun.halted = false) ∧
    (wGen.rd Reg.SYS_BOOT_STAGE = 6 ∧ wGen.sys.hold = Hold.none ∧ wGen.needsKeygen = true) ∧
    (7 ≤ wCache.rd Reg.SYS_BOOT_STAGE ∧ wCache.halted = false ∧ wCache.key.slot4Ok = true ∧
     wCache.otp.attRoot.isSome = true ∧ wCache.nvm.cache = false) := by
  refine ⟨?_, ?_, ?_, ?_, ?_, ?_, ?_, ?_⟩ <;> decide +kernel

theorem wit_Interrupts :
    ((wIrq 18 0 0).runs Isl.IRQ = true ∧ (wIrq 18 0 0).nextEvent (srcIsl (BitVec.toNat (17 : Byte))) = some (tEv 18) ∧
     (tEv 18).src ≠ BitVec.toNat (17 : Byte)) ∧
    ((wIrq 200 0 0).runs Isl.IRQ = true ∧
     (wIrq 200 0 0).nextEvent (srcIsl (BitVec.toNat (200 : Byte))) = some (tEv 200) ∧
     (tEv 200).src = BitVec.toNat (200 : Byte) ∧
     (assigned (BitVec.toNat (200 : Byte)) = false ∨ (wIrq 200 0 0).pendOf (BitVec.toNat (200 : Byte)) = true)) ∧
    ((wIrq 17 0 0).runs Isl.IRQ = true ∧ (wIrq 17 0 0).nextEvent (srcIsl (BitVec.toNat (17 : Byte))) = some (tEv 17) ∧
     (tEv 17).src = BitVec.toNat (17 : Byte) ∧ assigned (BitVec.toNat (17 : Byte)) = true ∧
     (wIrq 17 0 0).pendOf (BitVec.toNat (17 : Byte)) = false ∧
     (wIrq 17 0 0).enOf (BitVec.toNat (17 : Byte)) = false) ∧
    ((wIrq 17 1 0).runs Isl.IRQ = true ∧ (wIrq 17 1 0).nextEvent (srcIsl (BitVec.toNat (17 : Byte))) = some (tEv 17) ∧
     (wIrq 17 1 0).pendOf (BitVec.toNat (17 : Byte)) = false ∧ (wIrq 17 1 0).enOf (BitVec.toNat (17 : Byte)) = true ∧
     (wIrq 17 1 0).rdI Reg.IRQ_SRC_CTL_TGT (BitVec.toNat (17 : Byte)) < 16 ∧ (wIrq 17 1 0).runs Isl.HST = true ∧
     (wIrq 17 1 0).irq.msixEn = true ∧ (wIrq 17 1 0).irq.msixMask = false ∧
     (wIrq 17 1 0).irq.vecMask.getLsbD ((wIrq 17 1 0).rdI Reg.IRQ_SRC_CTL_TGT (BitVec.toNat (17 : Byte))) = false) ∧
    ((wIrq 17 1 1).runs Isl.IRQ = true ∧ (wIrq 17 1 1).nextEvent (srcIsl (BitVec.toNat (17 : Byte))) = some (tEv 17) ∧
     (wIrq 17 1 1).pendOf (BitVec.toNat (17 : Byte)) = false ∧ (wIrq 17 1 1).enOf (BitVec.toNat (17 : Byte)) = true ∧
     (wIrq 17 1 1).rdI Reg.IRQ_SRC_CTL_TGT (BitVec.toNat (17 : Byte)) < 16 ∧ (wIrq 17 1 1).runs Isl.HST = true ∧
     ((wIrq 17 1 1).irq.msixEn = false ∨ (wIrq 17 1 1).irq.msixMask = true ∨ (wIrq 17 1 1).irq.vecMask.getLsbD
      ((wIrq 17 1 1).rdI Reg.IRQ_SRC_CTL_TGT (BitVec.toNat (17 : Byte))) = true)) ∧
    ((wIrq 17 1 19).runs Isl.IRQ = true ∧
     (wIrq 17 1 19).nextEvent (srcIsl (BitVec.toNat (17 : Byte))) = some (tEv 17) ∧
     (wIrq 17 1 19).pendOf (BitVec.toNat (17 : Byte)) = false ∧ (wIrq 17 1 19).enOf (BitVec.toNat (17 : Byte)) = true ∧
     16 ≤ (wIrq 17 1 19).rdI Reg.IRQ_SRC_CTL_TGT (BitVec.toNat (17 : Byte)) ∧
     (wIrq 17 1 19).rdI Reg.IRQ_SRC_CTL_TGT (BitVec.toNat (17 : Byte)) < 20) ∧
    (((wIrq 17 1 0).setRun Isl.HST false).runs Isl.IRQ = true ∧
     ((wIrq 17 1 0).setRun Isl.HST false).nextEvent (srcIsl (BitVec.toNat (17 : Byte))) = some (tEv 17) ∧
     ((wIrq 17 1 0).setRun Isl.HST false).pendOf (BitVec.toNat (17 : Byte)) = false ∧
     ((wIrq 17 1 0).setRun Isl.HST false).enOf (BitVec.toNat (17 : Byte)) = true ∧
     ((wIrq 17 1 0).setRun Isl.HST false).rdI Reg.IRQ_SRC_CTL_TGT (BitVec.toNat (17 : Byte)) < 16 ∧
     ((wIrq 17 1 0).setRun Isl.HST false).runs Isl.HST = false ∧
     ((wIrq 17 1 0).setRun Isl.HST false).irq.held.contains (BitVec.toNat (17 : Byte)) = false) ∧
    (BitVec.toNat (17 : Byte) < 192 ∧ tRun.hostMay Isl.IRQ = true ∧ tRun.headless = false ∧
     tRun.irq.held.contains (BitVec.toNat (17 : Byte)) = false ∧ tRun.enOf (BitVec.toNat (17 : Byte)) = false ∧
     tRun.pendOf (BitVec.toNat (17 : Byte)) = false) ∧
    (wPend.hostMay Isl.IRQ = true ∧ wPend.headless = false ∧
     wPend.irq.held.contains (BitVec.toNat (17 : Byte)) = false ∧ wPend.enOf (BitVec.toNat (17 : Byte)) = false ∧
     wPend.pendOf (BitVec.toNat (17 : Byte)) = true ∧ 18 = wPend.rdI Reg.IRQ_SRC_CTL_TGT (BitVec.toNat (17 : Byte)) ∧
     16 ≤ 18) ∧
    ((wCore true).sys.hold = Hold.none ∧ (wCore true).halted = false ∧ (wCore true).runs Isl.IRQ = true ∧
     (wCore true).irq.atCore = [(4, true)] ++ [(BitVec.toNat (17 : Byte), true)] ∧
     (∀ p ∈ [(4, true)], p.1 ≠ BitVec.toNat (17 : Byte))) ∧
    ((wCore false).sys.hold = Hold.none ∧ (wCore false).halted = false ∧ (wCore false).runs Isl.IRQ = true ∧
     (wCore false).irq.atCore = [(4, true)] ++ [(BitVec.toNat (17 : Byte), false)]) := by
  refine ⟨?_, ?_, ?_, ?_, ?_, ?_, ?_, ?_, ?_, ?_, ?_⟩ <;> decide +kernel

theorem wit_SwiAndReplay :
    wPend.hostMay Isl.IRQ = true ∧
    (∀ n < 192, ¬(wPend.pendOf n = true ∧ wPend.enOf n = true)) := by
  refine ⟨?_, ?_⟩ <;> decide +kernel

theorem wit_InternalResets :
    (wLc.sys.hold = Hold.none ∧ wLc.halted = false) ∧
    (2 ≤ wLc.rd Reg.SYS_BOOT_STAGE ∧ (wLc.otp.lc0 ≠ wLc.otp.lc1 ∨ wLc.otp.lc1 ≠ wLc.otp.lc2)) ∧
    (135 : Int) ≤ (135 : Int) ∧
    BitVec.toInt (-40 : Byte) < wLc.rdS Reg.SYS_TEMP_WARN ∧
    ((126 : Int) < (135 : Int) ∧ wLc.rdS Reg.SYS_TEMP_WARN ≤ (126 : Int)) := by
  refine ⟨?_, ?_, ?_, ?_, ?_⟩ <;> decide +kernel

theorem wit_HoldsAndPins :
    (wHold Hold.porst).sys.hold = Hold.porst ∧
    ((wHold Hold.thermal).sys.hold = Hold.thermal ∧ (wHold Hold.thermal).sys.xoOk = true ∧
     (wHold Hold.thermal).sys.sdOk = true) ∧
    (wHold Hold.clock).sys.hold = Hold.clock ∧
    wHl.headless = true ∧
    ((tRun.wr Reg.SYS_SEAL 0).headless = false ∧
     ((tRun.wr Reg.SYS_SEAL 0).live = false ∨ (tRun.wr Reg.SYS_SEAL 0).runs Isl.HST = false)) ∧
    (tRun.headless = false ∧ tRun.live = true ∧ tRun.sys.hold = Hold.none ∧ tRun.runs Isl.HST = true ∧
     tRun.rd Reg.SYS_REC_STATE = 0) ∧
    (tRun.sys.perst = false ∧ tRun.testMode = false ∧ 2 ≤ tRun.rd Reg.SYS_BOOT_STAGE ∧
     (3 : BitVec 2) ≠ (0 : BitVec 2) ∧ ((2 : BitVec 2) = (1 : BitVec 2) ∨ (2 : BitVec 2) = (2 : BitVec 2))) ∧
    wTest.testMode = true := by
  refine ⟨?_, ?_, ?_, ?_, ?_, ?_, ?_, ?_⟩ <;> decide +kernel

theorem wit_BootLast :
    ((wBoot 9).sys.hold = Hold.none ∧ (wBoot 9).rd Reg.SYS_BOOT_STAGE = 9) ∧
    ((wStart 1).sys.hold = Hold.none ∧ (wStart 1).rd Reg.SYS_BOOT_STAGE = 10 ∧ (wStart 1).on Reg.TIM_TIME_SET = true ∧
     (wStart 1).on Reg.SYS_START_HOLD = true) ∧
    ((wStart 0).sys.hold = Hold.none ∧ (wStart 0).rd Reg.SYS_BOOT_STAGE = 10 ∧ (wStart 0).on Reg.TIM_TIME_SET = true ∧
     (wStart 0).on Reg.SYS_START_HOLD = false) ∧
    (((wStart 0).wr Reg.TWN_TW_EN 1).sys.hold = Hold.none ∧
     ((wStart 0).wr Reg.TWN_TW_EN 1).rd Reg.SYS_BOOT_STAGE = 10 ∧
     ((wStart 0).wr Reg.TWN_TW_EN 1).on Reg.TIM_TIME_SET = true ∧
     ((wStart 0).wr Reg.TWN_TW_EN 1).on Reg.SYS_START_HOLD = false) ∧
    ((tRun.wr Reg.SYS_BOOT_STAGE 12).sys.hold = Hold.none ∧ (tRun.wr Reg.SYS_BOOT_STAGE 12).hostMay Isl.SYS = true ∧
     (tRun.wr Reg.SYS_BOOT_STAGE 12).rd Reg.SYS_BOOT_STAGE = 12) ∧
    ((wSt7 false).sys.hold = Hold.none ∧ (wSt7 false).halted = false ∧ (wSt7 false).rd Reg.SYS_BOOT_STAGE = 6 ∧
     (wSt7 false).needsKeygen = false ∧ (wSt7 false).cfgError wOk = some 7 ∧ (wSt7 false).rd Reg.KEY_KSTATE ≠ 4 ∧
     (wSt7 false).on Reg.SYS_VBAT_LOST = false ∧ (wSt7 false).aon.latch = false ∧ (wSt7 false).aon.store.good = true ∧
     (wSt7 false).ctrFits (wSt7 false).aon.store = true ∧ (wSt7 false).aon.store.epoch ≠ (0 : Byte)) ∧
    ((wSt7 true).sys.hold = Hold.none ∧ (wSt7 true).halted = false ∧ (wSt7 true).rd Reg.SYS_BOOT_STAGE = 6 ∧
     (wSt7 true).needsKeygen = false ∧ (wSt7 true).cfgError wOk = some 7 ∧ (wSt7 true).rd Reg.KEY_KSTATE ≠ 4 ∧
     (wSt7 true).on Reg.SYS_VBAT_LOST = false ∧ (wSt7 true).aon.latch = true ∧
     (wSt7 true).on Reg.KEY_SCRAP_ON_TAMPER = false) ∧
    (((wSt7 true).wr Reg.KEY_SCRAP_ON_TAMPER 1).sys.hold = Hold.none ∧
     ((wSt7 true).wr Reg.KEY_SCRAP_ON_TAMPER 1).halted = false ∧
     ((wSt7 true).wr Reg.KEY_SCRAP_ON_TAMPER 1).rd Reg.SYS_BOOT_STAGE = 6 ∧
     ((wSt7 true).wr Reg.KEY_SCRAP_ON_TAMPER 1).needsKeygen = false ∧
     ((wSt7 true).wr Reg.KEY_SCRAP_ON_TAMPER 1).cfgError wOk = some 7 ∧
     ((wSt7 true).wr Reg.KEY_SCRAP_ON_TAMPER 1).rd Reg.KEY_KSTATE ≠ 4 ∧
     ((wSt7 true).wr Reg.KEY_SCRAP_ON_TAMPER 1).on Reg.SYS_VBAT_LOST = false ∧
     ((wSt7 true).wr Reg.KEY_SCRAP_ON_TAMPER 1).aon.latch = true ∧
     ((wSt7 true).wr Reg.KEY_SCRAP_ON_TAMPER 1).on Reg.KEY_SCRAP_ON_TAMPER = true ∧
     ((wSt7 true).wr Reg.KEY_SCRAP_ON_TAMPER 1).key.lc ≠ (0 : BitVec 3) ∧
     ((wSt7 true).wr Reg.KEY_SCRAP_ON_TAMPER 1).key.lc ≠ (5 : BitVec 3)) ∧
    ((wBoot 7).sys.hold = Hold.none ∧ (wBoot 7).halted = false ∧ (wBoot 7).rd Reg.SYS_BOOT_STAGE = 7) ∧
    (wTwo8.sys.hold = Hold.none ∧ wTwo8.halted = false ∧ wTwo8.rd Reg.SYS_BOOT_STAGE = 8) := by
  refine ⟨?_, ?_, ?_, ?_, ?_, ?_, ?_, ?_, ?_, ?_⟩ <;> decide +kernel

theorem wit_HostAccess :
    wDown.sys.linkUp = false ∧
    ((tRun.wr Reg.SYS_SEAL 0).sys.linkUp = true ∧ (tRun.wr Reg.SYS_SEAL 0).live = false) ∧
    ((tRun.wr Reg.SYS_REGW_FENCED 1).sys.linkUp = true ∧ (tRun.wr Reg.SYS_REGW_FENCED 1).live = true ∧
     (tRun.wr Reg.SYS_REGW_FENCED 1).on Reg.SYS_REGW_FENCED = true ∧ (¬((256 : BitVec 16) = (120 : BitVec 16) ∧
     (tRun.wr Reg.SYS_REGW_FENCED 1).runs Isl.HST = true))) ∧
    ((120 : BitVec 16) = (120 : BitVec 16) ∧ (tRun.wr Reg.SYS_REGW_FENCED 1).runs Isl.HST = true) ∧
    ((tRun.setRun Isl.PHY false).sys.linkUp = true ∧ (tRun.setRun Isl.PHY false).live = true ∧
     (tRun.setRun Isl.PHY false).on Reg.SYS_REGW_FENCED = false ∧
     ((tRun.setRun Isl.PHY false).runs (islOf (BitVec.toNat (24578 : BitVec 16))) = false ∨ (tRun.setRun Isl.PHY
      false).runs Isl.HST = false)) ∧
    (tRun.hostMay (islOf (BitVec.toNat (4095 : BitVec 16))) = true ∧
     fieldsAt (BitVec.toNat (4095 : BitVec 16)) = []) ∧
    (tRun.hostMay (islOf (BitVec.toNat (32833 : BitVec 16))) = true ∧
     1 < (groupAt (BitVec.toNat (32833 : BitVec 16))).2 ∧
     BitVec.toNat (32833 : BitVec 16) + 1 ≠ (groupAt (BitVec.toNat (32833 : BitVec 16))).1 + (groupAt (BitVec.toNat
      (32833 : BitVec 16))).2 ∧
     ((fieldsAt (BitVec.toNat (32833 : BitVec 16))).any fun (p : Fld × Nat) => decide (p.1.acc = Acc.rw) || decide
      (p.1.acc = Acc.wo)) = true ∧
     ((fieldsAt (BitVec.toNat (32833 : BitVec 16))).all fun (p : Fld × Nat) => decide (p.1.acc ≠ Acc.rs)) = true) ∧
    (tRun.hostMay (islOf (BitVec.toNat (24578 : BitVec 16))) = true ∧ BitVec.toNat (24578 : BitVec 16) = 24578) ∧
    (tRun.hostMay (islOf (BitVec.toNat (24594 : BitVec 16))) = true ∧ BitVec.toNat (24594 : BitVec 16) = 24594 ∧
     BitVec.toNat (1 : Byte) % 4 = 1) ∧
    (tRun.setRun Isl.PHY false).hostReads (islOf (BitVec.toNat (24578 : BitVec 16))) = false ∧
    (tRun.hostReads (islOf (BitVec.toNat (28736 : BitVec 16))) = true ∧ (28736 : BitVec 16) ≠ (24 : BitVec 16) ∧
     inWindow (BitVec.toNat (28736 : BitVec 16)) = false ∧ 1 < (groupAt (BitVec.toNat (28736 : BitVec 16))).2 ∧
     BitVec.toNat (28736 : BitVec 16) = (groupAt (BitVec.toNat (28736 : BitVec 16))).1) ∧
    (wCapd.hostReads (islOf (BitVec.toNat (28737 : BitVec 16))) = true ∧ (28737 : BitVec 16) ≠ (24 : BitVec 16) ∧
     inWindow (BitVec.toNat (28737 : BitVec 16)) = false ∧ 1 < (groupAt (BitVec.toNat (28737 : BitVec 16))).2 ∧
     BitVec.toNat (28737 : BitVec 16) ≠ (groupAt (BitVec.toNat (28737 : BitVec 16))).1) ∧
    (tRun.hostReads (islOf (BitVec.toNat (24578 : BitVec 16))) = true ∧ (24578 : BitVec 16) ≠ (24 : BitVec 16) ∧
     inWindow (BitVec.toNat (24578 : BitVec 16)) = false ∧ (groupAt (BitVec.toNat (24578 : BitVec 16))).2 = 1) := by
  refine ⟨?_, ?_, ?_, ?_, ?_, ?_, ?_, ?_, ?_, ?_, ?_, ?_, ?_⟩ <;> decide +kernel

theorem wit_TimeBase :
    (wTrk.byTwin = none ∧ wTrk.steering = true ∧ wTrk.on Reg.TIM_TIME_SET = true ∧ wTrk.select = some Dom.A) ∧
    (wNoSrc.byTwin = none ∧ wNoSrc.steering = true ∧ wNoSrc.on Reg.TIM_TIME_SET = true ∧ wNoSrc.select = none ∧
     wNoSrc.rd Reg.TIM_SRC ≠ 3 ∧ wNoSrc.tim.holdover = false) ∧
    ((wNotSet wTrk 0).byTwin = none ∧ (wNotSet wTrk 0).steering = true ∧ (wNotSet wTrk 0).on Reg.TIM_TIME_SET = false ∧
     (∀ p ∈ (wNotSet wTrk 0).ntb.slots, p.2.entry.qne = false) ∧ (wNotSet wTrk 0).select = some Dom.A) ∧
    ((wNotSet tRun 1).byTwin = none ∧ (wNotSet tRun 1).steering = true ∧ (wNotSet tRun 1).on Reg.TIM_TIME_SET = false ∧
     (∀ p ∈ (wNotSet tRun 1).ntb.slots, p.2.entry.qne = false) ∧ (wNotSet tRun 1).select = none ∧
     (wNotSet tRun 1).on Reg.SYS_TIME_POLICY = true) ∧
    ((wNotSet tRun 0).byTwin = none ∧ (wNotSet tRun 0).steering = true ∧ (wNotSet tRun 0).on Reg.TIM_TIME_SET = false ∧
     (∀ p ∈ (wNotSet tRun 0).ntb.slots, p.2.entry.qne = false) ∧ (wNotSet tRun 0).select = none ∧
     (wNotSet tRun 0).on Reg.SYS_TIME_POLICY = false) ∧
    (tRun.byTwin = none ∧ tRun.sys.hold = Hold.none ∧ tRun.on Reg.TIM_TIME_SET = true) := by
  refine ⟨?_, ?_, ?_, ?_, ?_, ?_⟩ <;> decide +kernel

theorem wit_PtpClocks :
    ((wDom 1 0 DomSt.empty).ptpHeard Dom.A (tPtp (119 : Word64) (5 : Byte)) = true ∧
     BitVec.toNat (tPtp (119 : Word64) (5 : Byte)).domain ≠ (wDom 1 0 DomSt.empty).rd (Reg.TIM_DOM_NUM Dom.A)) ∧
    ((wDom 1 0 DomSt.empty).ptpHeard Dom.A (tPtp (119 : Word64) (0 : Byte)) = true ∧
     BitVec.toNat (tPtp (119 : Word64) (0 : Byte)).domain = (wDom 1 0 DomSt.empty).rd (Reg.TIM_DOM_NUM Dom.A) ∧
     ((wDom 1 0 DomSt.empty).dom Dom.A).master = none ∧ ((wDom 1 0 DomSt.empty).dom Dom.A).foreign = []) ∧
    ((wFor 9000000).ptpHeard Dom.A (tPtp (119 : Word64) (0 : Byte)) = true ∧
     BitVec.toNat (tPtp (119 : Word64) (0 : Byte)).domain = (wFor 9000000).rd (Reg.TIM_DOM_NUM Dom.A) ∧
     ((wFor 9000000).dom Dom.A).master = none ∧ ((wFor 9000000).dom Dom.A).foreign = [tFor EPort.A 9000000] ∧
     (tFor EPort.A 9000000).id = (tPtp (119 : Word64) (0 : Byte)).master ∧
     (tFor EPort.A 9000000).port = (tPtp (119 : Word64) (0 : Byte)).port ∧ tAnn.stepsRemoved < 255 ∧
     (wFor 9000000).sys.uptime ≤ (tFor EPort.A 9000000).last + 4 * logTicks tAnn.logInterval) ∧
    (wTrk.runs Isl.TIM = true ∧ wTrk.tracks Dom.A = true) ∧
    (wTwo.runs Isl.TIM = true ∧ wTwo.tracks Dom.A = true ∧
     (wTwo.dom Dom.A).foreign = [tFor EPort.A 5, tFor EPort.B 6] ∧ (wTwo.dom Dom.A).master = some (tFor EPort.A 5).id ∧
     (tFor EPort.B 6).id = (tFor EPort.A 5).id ∧ (tFor EPort.A 5).port = EPort.A ∧ (tFor EPort.B 6).port ≠ EPort.A ∧
     wTwo.rd (Reg.TIM_MASTER_PORT Dom.A) = portCode EPort.A) ∧
    (wTrk.ptpHeard Dom.A (tPtp (120 : Word64) (0 : Byte)) = true ∧
     wTrk.fromMaster Dom.A (tPtp (120 : Word64) (0 : Byte)) = false) ∧
    (wTrk.ptpHeard Dom.A (tPtp (119 : Word64) (0 : Byte)) = true ∧
     wTrk.fromMaster Dom.A (tPtp (119 : Word64) (0 : Byte)) = true ∧
     wTrk.onMasterPort Dom.A (tPtp (119 : Word64) (0 : Byte)) = true) ∧
    ((wSync none).ptpHeard Dom.A (tPtp (119 : Word64) (0 : Byte)) = true ∧
     (wSync none).fromMaster Dom.A (tPtp (119 : Word64) (0 : Byte)) = true ∧
     (wSync none).onMasterPort Dom.A (tPtp (119 : Word64) (0 : Byte)) = true ∧
     ((wSync none).dom Dom.A).sync = some (tSync none) ∧ (tSync none).seqId = (tPtp (119 : Word64) (0 : Byte)).seqId ∧
     (tSync none).t1 = none) ∧
    ((wSync (some (4999999000 : Int))).ptpHeard Dom.A (tPtp (119 : Word64) (0 : Byte)) = true ∧
     (wSync (some (4999999000 : Int))).fromMaster Dom.A (tPtp (119 : Word64) (0 : Byte)) = true ∧
     (wSync (some (4999999000 : Int))).onMasterPort Dom.A (tPtp (119 : Word64) (0 : Byte)) = true ∧
     ((wSync (some (4999999000 : Int))).dom Dom.A).sync = some (tSync (some (4999999000 : Int))) ∧
     (tSync (some (4999999000 : Int))).t1 = some (4999999000 : Int) ∧
     ((wSync (some (4999999000 : Int))).dom Dom.A).req = some ((tPtp (119 : Word64) (0 : Byte)).seqId, (5000000100
      : Int))) ∧
    (wSync none).runs Isl.TIM = true ∧
    (wTrk.epActive = true ∧ wTrk.rd (Reg.TIM_MASTER_PORT Dom.A) ≠ 0) := by
  refine ⟨?_, ?_, ?_, ?_, ?_, ?_, ?_, ?_, ?_, ?_, ?_⟩ <;> decide +kernel

theorem wit_BridgeForwards :
    tRun.ethOn = true ∧
    (wPorts.ethOn = true ∧ wPorts.portUp EPort.A = true ∧
     (tFrame 63 EthPayload.other).payload ≠ EthPayload.macControl ∧
     ((tFrame 63 EthPayload.other).len < 64 ∨ 9216 < (tFrame 63 EthPayload.other).len)) ∧
    ((tFrame 9217 EthPayload.other).payload ≠ EthPayload.macControl ∧
     ((tFrame 9217 EthPayload.other).len < 64 ∨ 9216 < (tFrame 9217 EthPayload.other).len)) ∧
    ((tFrame 64 (EthPayload.ptp tEvt)).payload ≠ EthPayload.macControl ∧ 64 ≤ (tFrame 64 (EthPayload.ptp tEvt)).len ∧
     (tFrame 64 (EthPayload.ptp tEvt)).len ≤ 9216 ∧ wPorts.epActive = false ∧
     (tFrame 64 (EthPayload.ptp tEvt)).fcsOk = true ∧ (tFrame 64 (EthPayload.ptp tEvt)).fits = true ∧
     wPorts.portUp (otherPort EPort.A) = true) ∧
    (wReasm.runs Isl.ETH = true ∧ (wReasm.eth.reasm.any fun (r : Reasm) => decide (r.id = (9 : Word))) = true) := by
  refine ⟨?_, ?_, ?_, ?_, ?_⟩ <;> decide +kernel

theorem wit_DatagramChecks :
    (wEp.epActive = true ∧
     (tShortDg.udpLen < 48 ∨ tShortDg.magicOk = false ∨ tShortDg.lenOk = false ∨ tShortDg.chan ≠ (1 : Byte) ∧
     tShortDg.chan ≠ (2 : Byte))) ∧
    (48 ≤ (tMgOf (3 : Byte) (3 : Byte) none).udpLen ∧ (tMgOf (3 : Byte) (3 : Byte) none).magicOk = true ∧
     (tMgOf (3 : Byte) (3 : Byte) none).lenOk = true ∧ (tMgOf (3 : Byte) (3 : Byte) none).chan = (1 : Byte) ∧
     (tMgOf (3 : Byte) (3 : Byte) none).port = wEp.rd Reg.ETH_MGT_PORT ∧
     (¬((tMgOf (3 : Byte) (3 : Byte) none).ver = (1 : Byte) ∨ (tMgOf (3 : Byte) (3 : Byte) none).ver = (2 : Byte))
      ∨ BitVec.toNat (tMgOf (3 : Byte) (3 : Byte) none).bootId ≠ wEp.rd Reg.ETH_BOOT_ID ∨ (tMgOf (3 : Byte) (3 :
      Byte) none).type = (0 : Byte))) ∧
    (48 ≤ (tMgOf (2 : Byte) (0 : Byte) none).udpLen ∧ (tMgOf (2 : Byte) (0 : Byte) none).magicOk = true ∧
     (tMgOf (2 : Byte) (0 : Byte) none).lenOk = true ∧ (tMgOf (2 : Byte) (0 : Byte) none).chan = (1 : Byte) ∧
     (tMgOf (2 : Byte) (0 : Byte) none).port = wEp.rd Reg.ETH_MGT_PORT ∧
     (¬((tMgOf (2 : Byte) (0 : Byte) none).ver = (1 : Byte) ∨ (tMgOf (2 : Byte) (0 : Byte) none).ver = (2 : Byte))
      ∨ BitVec.toNat (tMgOf (2 : Byte) (0 : Byte) none).bootId ≠ wEp.rd Reg.ETH_BOOT_ID ∨ (tMgOf (2 : Byte) (0 :
      Byte) none).type = (0 : Byte))) ∧
    (wZero.epActive = true ∧ 48 ≤ tMg.udpLen ∧ tMg.magicOk = true ∧ tMg.lenOk = true ∧ tMg.chan = (1 : Byte) ∧
     tMg.port = wZero.rd Reg.ETH_MGT_PORT ∧ (tMg.ver = (1 : Byte) ∨ tMg.ver = (2 : Byte)) ∧
     BitVec.toNat tMg.bootId = wZero.rd Reg.ETH_BOOT_ID ∧ tMg.type ≠ (0 : Byte) ∧
     (wZero.key.zeroised = true ∨ wZero.mgmtKey = none)) ∧
    (tMg.port = wEp.rd Reg.ETH_MGT_PORT ∧ BitVec.toNat tMg.bootId = wEp.rd Reg.ETH_BOOT_ID ∧ wEp.key.zeroised = false ∧
     wEp.mgmtKey = some wMk ∧ tMg.tag ≠ some wMk) ∧
    (wSeq.epActive = true ∧ 48 ≤ tTag.udpLen ∧ tTag.magicOk = true ∧ tTag.lenOk = true ∧ tTag.chan = (1 : Byte) ∧
     tTag.port = wSeq.rd Reg.ETH_MGT_PORT ∧ (tTag.ver = (1 : Byte) ∨ tTag.ver = (2 : Byte)) ∧
     BitVec.toNat tTag.bootId = wSeq.rd Reg.ETH_BOOT_ID ∧ tTag.type ≠ (0 : Byte) ∧ wSeq.key.zeroised = false ∧
     wSeq.mgmtKey = some wMk ∧ tTag.tag = some wMk ∧ BitVec.toNat tTag.seq ≤ BitVec.toNat wSeq.eth.mgtRx) ∧
    (48 ≤ tOdd.udpLen ∧ tOdd.magicOk = true ∧ tOdd.lenOk = true ∧ tOdd.chan = (1 : Byte) ∧
     tOdd.port = wEp.rd Reg.ETH_MGT_PORT ∧ (tOdd.ver = (1 : Byte) ∨ tOdd.ver = (2 : Byte)) ∧
     BitVec.toNat tOdd.bootId = wEp.rd Reg.ETH_BOOT_ID ∧ tOdd.type ≠ (0 : Byte) ∧ tOdd.tag = some wMk ∧
     BitVec.toNat wEp.eth.mgtRx < BitVec.toNat tOdd.seq ∧ typeOk tOdd = false) ∧
    (tTag.port = wEp.rd Reg.ETH_MGT_PORT ∧ BitVec.toNat tTag.bootId = wEp.rd Reg.ETH_BOOT_ID ∧
     BitVec.toNat wEp.eth.mgtRx < BitVec.toNat tTag.seq ∧ typeOk tTag = true) ∧
    (wTun.epActive = true ∧ 48 ≤ (tTd (16 : Byte) (4 : Word) (0 : Word)).udpLen ∧
     (tTd (16 : Byte) (4 : Word) (0 : Word)).magicOk = true ∧ (tTd (16 : Byte) (4 : Word) (0 : Word)).lenOk = true ∧
     (tTd (16 : Byte) (4 : Word) (0 : Word)).chan = (2 : Byte) ∧
     (tTd (16 : Byte) (4 : Word) (0 : Word)).port = wTun.rd Reg.ETH_TUN_PORT ∧ wTun.tunRuns = true ∧
     ((tTd (16 : Byte) (4 : Word) (0 : Word)).ver = (1 : Byte) ∨ (tTd (16 : Byte) (4 : Word) (0 : Word)).ver = (2 :
      Byte)) ∧ BitVec.toNat (tTd (16 : Byte) (4 : Word) (0 : Word)).bootId = wTun.rd Reg.ETH_BOOT_ID ∧
     (tTd (16 : Byte) (4 : Word) (0 : Word)).type ≠ (0 : Byte) ∧
     (tTd (16 : Byte) (4 : Word) (0 : Word)).dir = (0 : Byte) ∧
     wTun.dgKey (tTd (16 : Byte) (4 : Word) (0 : Word)) = some wTk ∧
     (tTd (16 : Byte) (4 : Word) (0 : Word)).tag = some wTk ∧ typeOk (tTd (16 : Byte) (4 : Word) (0 : Word)) = true ∧
     wTun.eth.dgrams = []) := by
  refine ⟨?_, ?_, ?_, ?_, ?_, ?_, ?_, ?_, ?_⟩ <;> decide +kernel

theorem wit_RequestsHandedOn :
    (((wReq (tReq (1 : Byte))).sysQ 32).items = [wReqItem (tReq (1 : Byte))] ∧
     (wReqItem (tReq (1 : Byte))).note = ItemNote.request (tReq (1 : Byte)) ∧
     (wReq (tReq (1 : Byte))).runs Isl.CAR = true ∧ (tReq (1 : Byte)).type = (1 : Byte)) ∧
    (((wReq (tReq (2 : Byte))).sysQ 32).items = [wReqItem (tReq (2 : Byte))] ∧
     (wReqItem (tReq (2 : Byte))).note = ItemNote.request (tReq (2 : Byte)) ∧
     (wReq (tReq (2 : Byte))).runs Isl.CAR = true ∧ (tReq (2 : Byte)).type = (2 : Byte)) ∧
    (((wReq (tReq (3 : Byte))).sysQ 32).items = [wReqItem (tReq (3 : Byte))] ∧
     (wReqItem (tReq (3 : Byte))).note = ItemNote.request (tReq (3 : Byte)) ∧
     (wReq (tReq (3 : Byte))).runs Isl.CAR = true ∧ (tReq (3 : Byte)).type = (3 : Byte)) ∧
    ((tRun.wr Reg.HST_MBX_STAT 1).hostMay Isl.HST = true ∧ (tRun.wr Reg.HST_MBX_STAT 1).rd Reg.HST_MBX_STAT = 1) ∧
    (tRun.hostMay Isl.HST = true ∧ tRun.rd Reg.HST_MBX_STAT ≠ 1) := by
  refine ⟨?_, ?_, ?_, ?_, ?_⟩ <;> decide +kernel

theorem wit_TunnelMoves :
    ((wTd (tTd (16 : Byte) (3 : Word) (0 : Word))).tunRuns = true ∧
     (wTd (tTd (16 : Byte) (3 : Word) (0 : Word))).tunKey = some wTk ∧
     (wTd (tTd (16 : Byte) (3 : Word) (0 : Word))).eth.dgrams = [(true, tTd (16 : Byte) (3 : Word) (0 : Word))] ∧
     (tTd (16 : Byte) (3 : Word) (0 : Word)).chan = (2 : Byte) ∧
     BitVec.toNat (tTd (16 : Byte) (3 : Word) (0 : Word)).seq < (wTd (tTd (16 : Byte) (3 : Word) (0 : Word))).rd
      Reg.ETH_TUN_RX_NEXT ∧ (tTd (16 : Byte) (3 : Word) (0 : Word)).type = (16 : Byte)) ∧
    ((wTd (tTd (17 : Byte) (3 : Word) (0 : Word))).tunRuns = true ∧
     (wTd (tTd (17 : Byte) (3 : Word) (0 : Word))).tunKey = some wTk ∧
     (wTd (tTd (17 : Byte) (3 : Word) (0 : Word))).eth.dgrams = [(true, tTd (17 : Byte) (3 : Word) (0 : Word))] ∧
     (tTd (17 : Byte) (3 : Word) (0 : Word)).chan = (2 : Byte) ∧
     BitVec.toNat (tTd (17 : Byte) (3 : Word) (0 : Word)).seq < (wTd (tTd (17 : Byte) (3 : Word) (0 : Word))).rd
      Reg.ETH_TUN_RX_NEXT ∧ (tTd (17 : Byte) (3 : Word) (0 : Word)).type = (17 : Byte)) ∧
    ((wTd (tTd (16 : Byte) (4 : Word) (0 : Word))).tunRuns = true ∧
     (wTd (tTd (16 : Byte) (4 : Word) (0 : Word))).tunKey = some wTk ∧
     (wTd (tTd (16 : Byte) (4 : Word) (0 : Word))).eth.dgrams = [(true, tTd (16 : Byte) (4 : Word) (0 : Word))] ∧
     (tTd (16 : Byte) (4 : Word) (0 : Word)).chan = (2 : Byte) ∧
     BitVec.toNat (tTd (16 : Byte) (4 : Word) (0 : Word)).seq = (wTd (tTd (16 : Byte) (4 : Word) (0 : Word))).rd
      Reg.ETH_TUN_RX_NEXT ∧ (wTd (tTd (16 : Byte) (4 : Word) (0 : Word))).tunWaits = false ∧
     (tTd (16 : Byte) (4 : Word) (0 : Word)).type = (16 : Byte) ∧
     (wTd (tTd (16 : Byte) (4 : Word) (0 : Word))).rdB Reg.HST_RING_FENCED 0 0 = 0) ∧
    ((wTd (tTd (17 : Byte) (4 : Word) (0 : Word))).tunRuns = true ∧
     (wTd (tTd (17 : Byte) (4 : Word) (0 : Word))).tunKey = some wTk ∧
     (wTd (tTd (17 : Byte) (4 : Word) (0 : Word))).eth.dgrams = [(true, tTd (17 : Byte) (4 : Word) (0 : Word))] ∧
     (tTd (17 : Byte) (4 : Word) (0 : Word)).chan = (2 : Byte) ∧
     BitVec.toNat (tTd (17 : Byte) (4 : Word) (0 : Word)).seq = (wTd (tTd (17 : Byte) (4 : Word) (0 : Word))).rd
      Reg.ETH_TUN_RX_NEXT ∧ (wTd (tTd (17 : Byte) (4 : Word) (0 : Word))).tunWaits = false ∧
     (tTd (17 : Byte) (4 : Word) (0 : Word)).type = (17 : Byte) ∧
     (wTd (tTd (17 : Byte) (4 : Word) (0 : Word))).rdB Reg.HST_RING_FENCED 0 tblRing = 0 ∧
     (wTd (tTd (17 : Byte) (4 : Word) (0 : Word))).ntb.cmdQ = [] ∧
     1 ≤ leAt (tTd (17 : Byte) (4 : Word) (0 : Word)).payload 0 1 ∧
     leAt (tTd (17 : Byte) (4 : Word) (0 : Word)).payload 0 1 ≤ 6) ∧
    ((wTd (tTd (31 : Byte) (0 : Word) (6 : Word))).tunRuns = true ∧
     (wTd (tTd (31 : Byte) (0 : Word) (6 : Word))).tunKey = some wTk ∧
     (wTd (tTd (31 : Byte) (0 : Word) (6 : Word))).eth.dgrams = [(true, tTd (31 : Byte) (0 : Word) (6 : Word))] ∧
     (tTd (31 : Byte) (0 : Word) (6 : Word)).chan = (2 : Byte) ∧
     (tTd (31 : Byte) (0 : Word) (6 : Word)).type = (31 : Byte) ∧
     (wTd (tTd (31 : Byte) (0 : Word) (6 : Word))).runs Isl.CAR = true ∧
     (wTd (tTd (31 : Byte) (0 : Word) (6 : Word))).rd Reg.ETH_TUN_TX_ACKED < BitVec.toNat (tTd (31 : Byte) (0 :
      Word) (6 : Word)).ack ∧
     BitVec.toNat (tTd (31 : Byte) (0 : Word) (6 : Word)).ack ≤ (wTd (tTd (31 : Byte) (0 : Word) (6 : Word))).rd
      Reg.ETH_TUN_TX_NEXT) ∧
    (wAckDue.tunRuns = true ∧ wAckDue.tunKey = some wTk ∧ wAckDue.eth.ackDue = true) ∧
    ((wDrain 3).tunRuns = true ∧ (wDrain 3).tunKey = some wTk ∧ (wDrain 3).runs Isl.CAR = true ∧
     40 ≤ (wDrain 3).freeCells ∧ ((wDrain 3).sysQ 34).items.length < (wDrain 3).rd Reg.ETH_TUN_WIN ∧
     (wDrain 3).drainPick = some 3 ∧ 3 ≠ 20 ∧ ((wDrain 3).sysQ 3).items = [wRxItem]) ∧
    ((wDrain 18).tunRuns = true ∧ (wDrain 18).tunKey = some wTk ∧ (wDrain 18).runs Isl.CAR = true ∧
     40 ≤ (wDrain 18).freeCells ∧ ((wDrain 18).sysQ 34).items.length < (wDrain 18).rd Reg.ETH_TUN_WIN ∧
     (wDrain 18).drainPick = some 18 ∧ 18 ≠ 20 ∧ ((wDrain 18).sysQ 18).items = [wEvItem]) ∧
    (wRto.tunRuns = true ∧ wRto.tunKey = some wTk ∧ wRto.runs Isl.CAR = true ∧ (wRto.sysQ 34).items ≠ []) := by
  refine ⟨?_, ?_, ?_, ?_, ?_, ?_, ?_, ?_, ?_⟩ <;> decide +kernel

theorem wit_TwinLink :
    (wTw 1 0 TwnSt.empty).twnOn = true ∧
    (wSend.twnOn = true ∧ (wSend.sysQ 40).items = [tEndRec] ∧ tEndRec.note = ItemNote.mirror (tCyc true true 0 0).n ∧
     List.take 1 tEndRec.body = [(3 : Byte)] ∧ wSend.twn.sending = [tCyc true true 0 0]) ∧
    (tHb (1 : Byte) false).good = false ∧
    ((wTw 1 0 ({ TwnSt.empty with good := 1 : TwnSt })).twnOn = true ∧ (tHb (1 : Byte) true).good = true) ∧
    (tHb (2 : Byte) true).good = true ∧
    (wTw 1 0 TwnSt.empty).twn.miss < 7 ∧
    ((wTw 4 0 ({ TwnSt.empty with miss := 7 : TwnSt })).twnOn = true ∧
     (wTw 4 0 ({ TwnSt.empty with miss := 7 : TwnSt })).twn.miss = 7 ∧
     (wTw 4 0 ({ TwnSt.empty with miss := 7 : TwnSt })).rd Reg.TWN_TW_STATE = 4) ∧
    (tRun.sys.hold = Hold.none ∧ (tRun.rd Reg.SYS_BOOT_STAGE = 11 ∨ tRun.rd Reg.SYS_BOOT_STAGE = 13) ∧
     tRun.holds = false ∧ tRun.runs Isl.TWN = true ∧ tRun.on Reg.TWN_TW_EN = false) ∧
    ((wTw 5 0 TwnSt.empty).sys.hold = Hold.none ∧
     ((wTw 5 0 TwnSt.empty).rd Reg.SYS_BOOT_STAGE = 11 ∨ (wTw 5 0 TwnSt.empty).rd Reg.SYS_BOOT_STAGE = 13) ∧
     (wTw 5 0 TwnSt.empty).holds = false ∧ (wTw 5 0 TwnSt.empty).runs Isl.TWN = true ∧
     (wTw 5 0 TwnSt.empty).on Reg.TWN_TW_EN = true ∧
     (wTw 5 0 TwnSt.empty).rd Reg.TWN_TW_STATE = BitVec.toNat (5 : BitVec 3) ∧
     ((5 : BitVec 3) = (1 : BitVec 3) ∨ (5 : BitVec 3) = (4 : BitVec 3) ∨ (5 : BitVec 3) = (5 : BitVec 3))) ∧
    wClm.twn.claiming = true ∧
    ((wClaim (4 : BitVec 3)).twn.claiming = false ∧ (wClaim (4 : BitVec 3)).rd Reg.TWN_TW_STATE = 6 ∧
     (wClaim (4 : BitVec 3)).holds = false) ∧
    ((wClaim (1 : BitVec 3)).twn.claiming = false ∧ (wClaim (1 : BitVec 3)).rd Reg.TWN_TW_STATE = 6 ∧
     (wClaim (1 : BitVec 3)).holds = false ∧ (wClaim (1 : BitVec 3)).twn.from_ = (1 : BitVec 3)) ∧
    (wClaim (4 : BitVec 3)).twn.from_ ≠ (1 : BitVec 3) ∧
    (wTko.twnOn = true ∧ wTko.rd Reg.TWN_TW_STATE = 6 ∧ wTko.holds = true ∧ wTko.twn.from_ ≠ (1 : BitVec 3)) := by
  refine ⟨?_, ?_, ?_, ?_, ?_, ?_, ?_, ?_, ?_, ?_, ?_, ?_, ?_, ?_⟩ <;> decide +kernel

theorem wit_MirroringAndSwap :
    (wAct.twnOn = true ∧ wAct.rd Reg.TWN_TW_STATE = 2 ∧ wAct.twn.joined = true ∧ wAct.on Reg.TWN_TW_LINK = true ∧
     wAct.twn.sending = [] ∧ wAct.twn.toLink = [] ∧ (wAct.sysQ 40).items = []) ∧
    (wFullAct.twnOn = true ∧ wFullAct.rd Reg.TWN_TW_STATE = 2 ∧ wFullAct.twn.joined = true ∧
     wFullAct.on Reg.TWN_TW_LINK = true ∧ wFullAct.twn.sending = [] ∧ wFullAct.twn.toLink = [] ∧
     (wFullAct.sysQ 40).items = []) ∧
    (wSel.twnOn = true ∧ wSel.rd Reg.TWN_TW_STATE = 2 ∧ wSel.twn.joined = true ∧ wSel.on Reg.TWN_TW_LINK = true ∧
     wSel.twn.sending = [] ∧ wSel.twn.toLink = [] ∧ (wSel.sysQ 40).items = []) ∧
    (wSel.regimeFull = false ∧ wSel.twn.fullCopy = false ∧ wSel.twn.copy = none ∧
     wSel.twn.base = some { slots := [], dir := [], nodeQs := [], sysQs := [], tmaps := [] : MirBase }) ∧
    (wSby.twnOn = true ∧ wSby.on Reg.TWN_TW_LINK = true ∧ wSby.rd Reg.TWN_TW_STATE = 4 ∧ wSby.runs Isl.CAR = true ∧
     wSby.twn.copied = true ∧ (tCyc false true 3 1).n = BitVec.ofNat 16 (wSby.rd Reg.TWN_TW_CYCLE) + (1 : BitVec 16) ∧
     (tCyc false true 3 1).endSeen = false) ∧
    1024 + (List.map (fun (r : BitVec 16 × List Byte) => cellsOf r.2.length) (cycleFrames (tCyc false true 3 1)
      (cycleRecords (tCyc false true 3 1) [])).dropLast).sum ≤ wSby.dropReceived.freeCells ∧
    ((tCyc true true 3 1).n = BitVec.ofNat 16 (wSby.rd Reg.TWN_TW_CYCLE) + (1 : BitVec 16) ∧
     (tCyc true true 3 1).endSeen = true ∧ (tCyc true true 3 1).full = true ∧
     ((tCyc true true 3 1).declared ≠ (tCyc true true 3 1).received ∨ (tCyc true true 3 1).badCrc ≠ 0)) ∧
    ((tCyc true false 3 1).n = BitVec.ofNat 16 (wSby.rd Reg.TWN_TW_CYCLE) + (1 : BitVec 16) ∧
     (tCyc true false 3 1).endSeen = true ∧ (tCyc true false 3 1).full = false ∧
     ((tCyc true false 3 1).declared ≠ (tCyc true false 3 1).received ∨ (tCyc true false 3 1).badCrc ≠ 0)) ∧
    ((tCyc true true 3 3).n = BitVec.ofNat 16 (wSby.rd Reg.TWN_TW_CYCLE) + (1 : BitVec 16) ∧
     (tCyc true true 3 3).endSeen = true ∧ (tCyc true true 3 3).declared = (tCyc true true 3 3).received ∧
     (tCyc true true 3 3).badCrc = 0 ∧ 1024 ≤ (wSby.dropReceived.applyCycle (tCyc true true 3 3)).freeCells) ∧
    ((wTw 3 0 ({ TwnSt.empty with copied := true : TwnSt })).twnOn = true ∧
     (wTw 3 0 ({ TwnSt.empty with copied := true : TwnSt })).rd Reg.TWN_TW_STATE = 3 ∧
     (wTw 3 0 ({ TwnSt.empty with copied := true : TwnSt })).twn.copied = true) ∧
    ((wSby.wr Reg.TWN_TW_VER 2).twnOn = true ∧ (wSby.wr Reg.TWN_TW_VER 2).standby = true ∧
     (wSby.wr Reg.TWN_TW_VER 2).on Reg.TWN_TW_LINK = true ∧ (wSby.wr Reg.TWN_TW_VER 2).rd Reg.TWN_TW_VER = 2) ∧
    tRun.hostMay Isl.TWN = true ∧
    ((tRun.wr Reg.TWN_SWAP_ST 1).hostMay Isl.TWN = true ∧ (tRun.wr Reg.TWN_SWAP_ST 1).rd Reg.TWN_SWAP_ST = 1) ∧
    tRun.rd Reg.TWN_SWAP_ST ≠ 1 ∧
    (tRun.wr Reg.TWN_SWAP_ST 1).runs Isl.TWN = true := by
  exact ⟨by decide +kernel, by decide +kernel, by decide +kernel, by decide +kernel, by decide +kernel, heldRoom,
    by decide +kernel, by decide +kernel, by decide +kernel, by decide +kernel, by decide +kernel, by decide +kernel,
    by decide +kernel, by decide +kernel, by decide +kernel⟩

theorem wit_TestsAndPercolator :
    (wHalt.sys.hold = Hold.none ∧ wHalt.testHalt = true ∧ wHalt.rd Reg.TST_BIST_STAT ≠ 1) ∧
    (tRun.hostMay Isl.TST = true ∧ tRun.testHalt = false ∧ tRun.rd Reg.TST_BIST_STAT ≠ 1) ∧
    (wLab.hostMay Isl.TST = true ∧ wLab.testHalt = false ∧ wLab.rd Reg.TST_BIST_STAT ≠ 1 ∧ wLab.labState = true ∧
     wLab.percRuns = true) ∧
    tRun.labState = false ∧
    (wLabR.hostMay Isl.TST = true ∧ wLabR.testHalt = false ∧ wLabR.labState = true ∧
     [tRep] = List.filter (fun (r : Repair) => !covered wLabR.otp.repairs r.mac r.col r.index) wLabR.tst.repairs) ∧
    (tRun.wr Reg.TST_PERC_POS 8192).sliceMay = true ∧
    (tRun.sliceMay = true ∧ sliceFaults [wFault] ≠ []) ∧
    sliceFaults [wGood] ≠ [] := by
  refine ⟨?_, ?_, ?_, ?_, ?_, ?_, ?_, ?_⟩ <;> decide +kernel

theorem wit_FaultsAndRecovery :
    (tRun.sys.hold = Hold.none ∧ tRun.halted = false ∧ Isl.PHY ≠ Isl.SYS ∧ Isl.PHY ≠ Isl.KEY ∧
     tRun.rd Reg.SYS_REC_STATE = 0 ∧ tRun.runs Isl.PHY = true) ∧
    (Isl.CAR ≠ Isl.SYS ∧ Isl.CAR ≠ Isl.KEY ∧ tRun.runs Isl.CAR = true) ∧
    (Isl.GRN ≠ Isl.SYS ∧ Isl.GRN ≠ Isl.KEY ∧ tRun.runs Isl.GRN = true ∧
     (tagEven (1 : Word64) = false ∨ tagFits Isl.PHY (1 : Word64) = false)) ∧
    ((wStop [6]).sys.hold = Hold.none ∧ (wStop [6]).halted = false ∧ (wStop [6]).runs Isl.PHY = false ∧
     (wStop [6]).faults Isl.PHY < 3) ∧
    ((wStop [6, 6, 6]).sys.hold = Hold.none ∧ (wStop [6, 6, 6]).halted = false ∧
     (wStop [6, 6, 6]).runs Isl.PHY = false ∧ 3 ≤ (wStop [6, 6, 6]).faults Isl.PHY) ∧
    ((tRun.wr Reg.SYS_REC_STATE 1).sys.hold = Hold.none ∧ (tRun.wr Reg.SYS_REC_STATE 1).rd Reg.SYS_REC_STATE = 1 ∧
     (tRun.wr Reg.SYS_REC_STATE 1).allRun = true) ∧
    (wPub.rd Reg.SYS_REC_STATE = 2 ∧ (wPub.headless = false ∧ wPub.hostMay Isl.SYS = true ∨ wPub.headless = false ∧
     wPub.sys.linkUp = true ∧ wPub.live = true ∧ wPub.runs Isl.HST = true ∧
     wPub.on Reg.SYS_REGW_FENCED = true ∨ wPub.headless = true ∧ wPub.sys.hold = Hold.none ∧ wPub.live = true)) ∧
    ((wPub.wr Reg.SYS_REGW_FENCED 1).rd Reg.SYS_REC_STATE = 2 ∧ ((wPub.wr Reg.SYS_REGW_FENCED 1).headless = false ∧
     (wPub.wr Reg.SYS_REGW_FENCED 1).hostMay Isl.SYS = true ∨ (wPub.wr Reg.SYS_REGW_FENCED 1).headless = false ∧
     (wPub.wr Reg.SYS_REGW_FENCED 1).sys.linkUp = true ∧ (wPub.wr Reg.SYS_REGW_FENCED 1).live = true ∧
     (wPub.wr Reg.SYS_REGW_FENCED 1).runs Isl.HST = true ∧
     (wPub.wr Reg.SYS_REGW_FENCED 1).on Reg.SYS_REGW_FENCED = true ∨ (wPub.wr Reg.SYS_REGW_FENCED 1).headless = true ∧
     (wPub.wr Reg.SYS_REGW_FENCED 1).sys.hold = Hold.none ∧ (wPub.wr Reg.SYS_REGW_FENCED 1).live = true)) ∧
    ((wPub.wr Reg.SYS_BOOT_MODE 1).rd Reg.SYS_REC_STATE = 2 ∧ ((wPub.wr Reg.SYS_BOOT_MODE 1).headless = false ∧
     (wPub.wr Reg.SYS_BOOT_MODE 1).hostMay Isl.SYS = true ∨ (wPub.wr Reg.SYS_BOOT_MODE 1).headless = false ∧
     (wPub.wr Reg.SYS_BOOT_MODE 1).sys.linkUp = true ∧ (wPub.wr Reg.SYS_BOOT_MODE 1).live = true ∧
     (wPub.wr Reg.SYS_BOOT_MODE 1).runs Isl.HST = true ∧
     (wPub.wr Reg.SYS_BOOT_MODE 1).on Reg.SYS_REGW_FENCED = true ∨ (wPub.wr Reg.SYS_BOOT_MODE 1).headless = true ∧
     (wPub.wr Reg.SYS_BOOT_MODE 1).sys.hold = Hold.none ∧ (wPub.wr Reg.SYS_BOOT_MODE 1).live = true)) ∧
    (wFnc.hostReads Isl.SYS = true ∧
     wFnc.sys.fenceList = [{ handle := (5 : BitVec 18), hseq := (9 : BitVec 16), gen := (1 : Byte) : FncEntry }]) ∧
    (tRun.hostReads Isl.SYS = true ∧ tRun.sys.fenceList = []) := by
  refine ⟨?_, ?_, ?_, ?_, ?_, ?_, ?_, ?_, ?_, ?_, ?_⟩ <;> decide +kernel

theorem wit_IdleTick :
    (State.reset.pending = [] ∧ State.reset.sys.hold ≠ Hold.none) ∧
    ((wBoot 0).pending = [] ∧ (wBoot 0).sys.hold = Hold.none ∧ (wBoot 0).sys.meshRun = false) ∧
    ((wTick.wr Reg.TIM_RATE_ADJ 4294967295).pending = [] ∧
     (wTick.wr Reg.TIM_RATE_ADJ 4294967295).sys.hold = Hold.none ∧
     (wTick.wr Reg.TIM_RATE_ADJ 4294967295).sys.meshRun = true ∧
     (wTick.wr Reg.TIM_RATE_ADJ 4294967295).sys.timeFrac < 2 ^ 40 ∧
     (wTick.wr Reg.TIM_RATE_ADJ 4294967295).sys.timeNs + 16 < 2 ^ 64 ∧
     -(2 : Int) ^ 31 ≤ (wTick.wr Reg.TIM_RATE_ADJ 4294967295).rdS Reg.TIM_RATE_ADJ ∧
     (wTick.wr Reg.TIM_RATE_ADJ 4294967295).rdS Reg.TIM_RATE_ADJ < (2 : Int) ^ 31) := by
  refine ⟨?_, ?_, ?_⟩ <;> decide +kernel

theorem wit_BootFirst :
    ((wBoot 0).sys.hold = Hold.none ∧ (wBoot 0).halted = false ∧ (wBoot 0).rd Reg.SYS_BOOT_STAGE = 0 ∧
     (wBoot 0).aon.lost = false) ∧
    (wLost.sys.hold = Hold.none ∧ wLost.halted = false ∧ wLost.rd Reg.SYS_BOOT_STAGE = 0 ∧ wLost.aon.lost = true) ∧
    ((wLcs (7 : BitVec 5) (7 : BitVec 5)).sys.hold = Hold.none ∧ (wLcs (7 : BitVec 5) (7 : BitVec 5)).halted = false ∧
     (wLcs (7 : BitVec 5) (7 : BitVec 5)).rd Reg.SYS_BOOT_STAGE = 1 ∧
     (wLcs (7 : BitVec 5) (7 : BitVec 5)).rd Reg.SYS_RST_CAUSE ≠ 2 ∧
     (wLcs (7 : BitVec 5) (7 : BitVec 5)).lcRead = some 3 ∧ 1 ≤ 3 ∧ 3 ≤ 4) ∧
    ((wLcs (7 : BitVec 5) (3 : BitVec 5)).sys.hold = Hold.none ∧ (wLcs (7 : BitVec 5) (3 : BitVec 5)).halted = false ∧
     (wLcs (7 : BitVec 5) (3 : BitVec 5)).rd Reg.SYS_BOOT_STAGE = 1 ∧
     (wLcs (7 : BitVec 5) (3 : BitVec 5)).rd Reg.SYS_RST_CAUSE ≠ 2 ∧
     (wLcs (7 : BitVec 5) (3 : BitVec 5)).lcRead = none) ∧
    ((wLcs (16 : BitVec 5) (16 : BitVec 5)).sys.hold = Hold.none ∧
     (wLcs (16 : BitVec 5) (16 : BitVec 5)).halted = false ∧
     (wLcs (16 : BitVec 5) (16 : BitVec 5)).rd Reg.SYS_BOOT_STAGE = 1 ∧
     ((wLcs (16 : BitVec 5) (16 : BitVec 5)).rd Reg.SYS_RST_CAUSE = 2 ∨ (wLcs (16 : BitVec 5) (16 : BitVec
      5)).lcRead = some 0 ∨ (wLcs (16 : BitVec 5) (16 : BitVec 5)).lcRead = some 5)) ∧
    (((wLcs (7 : BitVec 5) (7 : BitVec 5)).wr Reg.SYS_RST_CAUSE 2).sys.hold = Hold.none ∧
     ((wLcs (7 : BitVec 5) (7 : BitVec 5)).wr Reg.SYS_RST_CAUSE 2).halted = false ∧
     ((wLcs (7 : BitVec 5) (7 : BitVec 5)).wr Reg.SYS_RST_CAUSE 2).rd Reg.SYS_BOOT_STAGE = 1 ∧
     (((wLcs (7 : BitVec 5) (7 : BitVec 5)).wr Reg.SYS_RST_CAUSE 2).rd Reg.SYS_RST_CAUSE = 2 ∨ ((wLcs (7 : BitVec
      5) (7 : BitVec 5)).wr Reg.SYS_RST_CAUSE 2).lcRead = some 0 ∨ ((wLcs (7 : BitVec 5) (7 : BitVec 5)).wr
      Reg.SYS_RST_CAUSE 2).lcRead = some 5)) ∧
    ((wBoot 2).sys.hold = Hold.none ∧ (wBoot 2).halted = false ∧ (wBoot 2).rd Reg.SYS_BOOT_STAGE = 2 ∧
     (wBoot 2).tst.newRep = []) ∧
    (wFault.mac < 640 ∧ (wBoot 2).mends wFault = false ∧ (wBoot 2).testMode = false) ∧
    (wTst2.sys.hold = Hold.none ∧ wTst2.halted = false ∧ wTst2.rd Reg.SYS_BOOT_STAGE = 2 ∧ wTst2.mends wFault = false ∧
     wTst2.testMode = true) ∧
    (wHdr.sys.hold = Hold.none ∧ wHdr.halted = false ∧ wHdr.rd Reg.SYS_BOOT_STAGE = 3) ∧
    ((wBoot 3).sys.hold = Hold.none ∧ (wBoot 3).halted = false ∧ (wBoot 3).rd Reg.SYS_BOOT_STAGE = 3 ∧
     (nvmReads (wBoot 3).nvm.bytes 0 4 ≠ nvmMagic ∨ nvmRead (wBoot 3).nvm.bytes 4 ≠ (1 : BitVec 8))) ∧
    (nvmReads wHdr.nvm.bytes 0 4 = nvmMagic ∧ nvmRead wHdr.nvm.bytes 4 = (1 : BitVec 8) ∧ wHdr.nvm.repLog = [] ∧
     wHdr.tst.newRep = []) := by
  refine ⟨?_, ?_, ?_, ?_, ?_, ?_, ?_, ?_, ?_, ?_, ?_, ?_⟩ <;> decide +kernel

theorem wit_BootImages :
    ((wBoot 4).sys.hold = Hold.none ∧ (wBoot 4).halted = false ∧ (wBoot 4).rd Reg.SYS_BOOT_STAGE = 4 ∧
     (wBoot 4).stgByte ≠ 63 ∧ (wBoot 4).stgByte ≠ 31) ∧
    ((wStg []).sys.hold = Hold.none ∧ (wStg []).halted = false ∧ (wStg []).rd Reg.SYS_BOOT_STAGE = 4 ∧
     ((wStg []).stgByte = 63 ∨ (wStg []).stgByte = 31) ∧ (wStg []).stgCheck wOk = some 1) ∧
    ((wBoot 5).sys.hold = Hold.none ∧ (wBoot 5).halted = false ∧ (wBoot 5).rd Reg.SYS_BOOT_STAGE = 5 ∧
     (¬((wBoot 5).imgFormat fwBase = true ∧ (wBoot 5).imgKind fwBase = 1 ∧ wOk.digestOk = true ∧
     (wBoot 5).imgSigned fwBase wOk = true))) ∧
    ((wFw (2 : Byte)).sys.hold = Hold.none ∧ (wFw (2 : Byte)).halted = false ∧
     (wFw (2 : Byte)).rd Reg.SYS_BOOT_STAGE = 5 ∧ ((wFw (2 : Byte)).imgFormat fwBase = true ∧
     (wFw (2 : Byte)).imgKind fwBase = 1 ∧ wOk.digestOk = true ∧ (wFw (2 : Byte)).imgSigned fwBase wOk = true) ∧
     (wFw (2 : Byte)).imgByte fwBase 6 < (wFw (2 : Byte)).otp.arb) ∧
    ((wFw (3 : Byte)).sys.hold = Hold.none ∧ (wFw (3 : Byte)).halted = false ∧
     (wFw (3 : Byte)).rd Reg.SYS_BOOT_STAGE = 5 ∧ ((wFw (3 : Byte)).imgFormat fwBase = true ∧
     (wFw (3 : Byte)).imgKind fwBase = 1 ∧ wOk.digestOk = true ∧ (wFw (3 : Byte)).imgSigned fwBase wOk = true) ∧
     (wFw (3 : Byte)).otp.arb ≤ (wFw (3 : Byte)).imgByte fwBase 6 ∧ (wFw (3 : Byte)).nvm.kuMove = none) ∧
    ((wFw (3 : Byte)).key.captured = true ∧ (wFw (3 : Byte)).otp.helper = some (3 : BitVec 256) ∧
     ({ (wFw (3 : Byte)) with key := { (wFw (3 : Byte)).key with pufKey := some (3 : BitVec 256) : KeySt } : State }).rootOf.isSome
      = true) ∧
    ((wFw (4 : Byte)).sys.hold = Hold.none ∧ (wFw (4 : Byte)).halted = false ∧
     (wFw (4 : Byte)).rd Reg.SYS_BOOT_STAGE = 5 ∧ ((wFw (4 : Byte)).imgFormat fwBase = true ∧
     (wFw (4 : Byte)).imgKind fwBase = 1 ∧ wOk.digestOk = true ∧ (wFw (4 : Byte)).imgSigned fwBase wOk = true) ∧
     (wFw (4 : Byte)).otp.arb ≤ (wFw (4 : Byte)).imgByte fwBase 6 ∧ (wFw (4 : Byte)).nvm.kuMove = none) ∧
    (wMove.sys.hold = Hold.none ∧ wMove.halted = false ∧ wMove.rd Reg.SYS_BOOT_STAGE = 5 ∧
     (wMove.imgFormat fwBase = true ∧ wMove.imgKind fwBase = 1 ∧ wOk.digestOk = true ∧
     wMove.imgSigned fwBase wOk = true) ∧ wMove.otp.arb ≤ wMove.imgByte fwBase 6 ∧
     wMove.nvm.kuMove = some (12 : BitVec 5)) ∧
    ((wStg (wImg 8454144 (1 : Byte) (0 : Byte) (2 : Byte))).sys.hold = Hold.none ∧
     (wStg (wImg 8454144 (1 : Byte) (0 : Byte) (2 : Byte))).halted = false ∧
     (wStg (wImg 8454144 (1 : Byte) (0 : Byte) (2 : Byte))).rd Reg.SYS_BOOT_STAGE = 4 ∧
     ((wStg (wImg 8454144 (1 : Byte) (0 : Byte) (2 : Byte))).stgByte = 63 ∨ (wStg (wImg 8454144 (1 : Byte) (0 :
      Byte) (2 : Byte))).stgByte = 31) ∧
     (wStg (wImg 8454144 (1 : Byte) (0 : Byte) (2 : Byte))).stgCheck wOk = none) := by
  refine ⟨?_, ?_, ?_, ?_, ?_, ?_, ?_, ?_, ?_⟩ <;> decide +kernel

end Sys2Proof.Tests
end

/-!
PROOF. The clamps of a plan entry (R122, R123): a plan entry word as six fields that do not overlap, what each reader takes
back out of it, and the word that a write of PLAN_ENT leaves.
-/

namespace Sys2Proof

theorem Grp.code_lt (g : Grp) : g.code < 4 := by cases g <;> decide

theorem Grp.code_ofCode (n : Nat) : (Grp.ofCode n).code = min 2 n := by
  match n with
  | 0 => rfl
  | 1 => rfl
  | n + 2 => simp [Grp.ofCode, Grp.code]

end Sys2Proof

namespace Sys2Proof.Machine

/-- Every limit leaves an offset and its negation in the 14 bits of FOFS. -/
theorem fofsLim_bounds (g : Grp) : 0 ≤ fofsLim g ∧ fofsLim g < 8192 := by cases g <;> decide

/-! ### The plan entry word as its fields -/

/-- A plan entry word from its fields, in the format of R122. -/
def planWord (f : Int) (g : Grp) (opts : Nat) (en priv : Bool) (ed : Nat) : Nat :=
  (f % 2 ^ 14).toNat + g.code * 2 ^ 14 + opts * 2 ^ 16 + b2n en * 2 ^ 20 + b2n priv * 2 ^ 21 + ed * 2 ^ 24

theorem b2n_le (b : Bool) : b2n b ≤ 1 := by cases b <;> decide

theorem testBit_of_b2n {v k : Nat} {b : Bool} (h : v / 2 ^ k % 2 = b2n b) : v.testBit k = b := by
  rw [Nat.testBit_eq_decide_div_mod_eq, h]
  cases b <;> rfl

/-- The fields do not overlap: each stands at its own place of the word, and none reaches bit 32. -/
theorem planWord_places (f : Int) (g : Grp) {opts : Nat} (en priv : Bool) {ed : Nat} (ho : opts < 16) (hd : ed < 256) :
    let v := planWord f g opts en priv ed
    v < 2 ^ 32 ∧ v % 2 ^ 14 = (f % 2 ^ 14).toNat ∧ v / 2 ^ 14 % 2 ^ 2 = g.code ∧ v / 2 ^ 16 % 2 ^ 4 = opts ∧
      v / 2 ^ 20 % 2 = b2n en ∧ v / 2 ^ 21 % 2 = b2n priv ∧ v / 2 ^ 24 % 2 ^ 8 = ed := by
  have hf : (f % 2 ^ 14).toNat < 2 ^ 14 := by omega
  have hg := g.code_lt
  have he := b2n_le en
  have hp := b2n_le priv
  unfold planWord
  omega

/-- An offset that 14 bits hold is read back from them with its sign. -/
theorem planFofs_of_low {v : Nat} {f : Int} (h : v % 2 ^ 14 = (f % 2 ^ 14).toNat) (hl : -8192 ≤ f) (hu : f < 8192) :
    planFofs v = f := by
  rw [planFofs, BitVec.toInt_ofNat', Int.bmod_def]
  omega

/-! ### The clamped word -/

theorem planOpts_lt (w : Nat) : planOpts w < 16 := Nat.mod_lt _ (by decide)

/-- FOFS of a written word, clamped to the limit of a group (R123). -/
def clampFofs (g : Grp) (w : Nat) : Int := max (-(fofsLim g)) (min (fofsLim g) (planFofs w))

/-- ED_THR of a written word, clamped (R123). -/
def clampEdThr (w : Nat) : Nat := max 4 (min 0x3C (bits w 24 8))

/-- The entries other than `i` whose written words hold EN and PRIV (R123). -/
def State.otherPrivs (s : State) (i : Nat) : List (Nat × Word) :=
  s.grn.plan.filter (fun p => p.1 ≠ i && planEn p.2.toNat && planPriv p.2.toNat)

/-- PRIV of a word written to entry `i`, clamped (R123). -/
def State.clampPriv (s : State) (i w : Nat) : Bool :=
  planPriv w && planEn w && planOpts w ≠ 0 && (s.otherPrivs i).length < 8

theorem clampFofs_bounds (g : Grp) (w : Nat) : -8192 ≤ clampFofs g w ∧ clampFofs g w < 8192 := by
  have hl := fofsLim_bounds g
  unfold clampFofs
  omega

theorem clampEdThr_bounds (w : Nat) : 4 ≤ clampEdThr w ∧ clampEdThr w < 256 := by
  unfold clampEdThr
  omega

theorem State.clampPriv_iff (s : State) (i w : Nat) : s.clampPriv i w = true ↔
    planPriv w = true ∧ planEn w = true ∧ planOpts w ≠ 0 ∧ (s.otherPrivs i).length < 8 := by
  simp [State.clampPriv, and_assoc]

section Clamped

variable (s : State) (i w : Nat)

/-- The clamped fields stand at their places of the clamped word, as they fit in its 32 bits. -/
theorem State.planClamp_places :
    let v := (s.planClamp i w).toNat
    let g := Grp.ofCode (bits w 14 2)
    v % 2 ^ 14 = (clampFofs g w % 2 ^ 14).toNat ∧ v / 2 ^ 14 % 2 ^ 2 = g.code ∧ v / 2 ^ 16 % 2 ^ 4 = planOpts w ∧
      v / 2 ^ 20 % 2 = b2n (planEn w) ∧ v / 2 ^ 21 % 2 = b2n (s.clampPriv i w) ∧ v / 2 ^ 24 % 2 ^ 8 = clampEdThr w := by
  intro v g
  obtain ⟨bound, places⟩ :=
    planWord_places (clampFofs g w) g (planEn w) (s.clampPriv i w) (planOpts_lt w) (clampEdThr_bounds w).2
  have packed : s.planClamp i w =
      BitVec.ofNat 32 (planWord (clampFofs g w) g (planOpts w) (planEn w) (s.clampPriv i w) (clampEdThr w)) := rfl
  have word : v = planWord (clampFofs g w) g (planOpts w) (planEn w) (s.clampPriv i w) (clampEdThr w) := by
    rw [show v = (s.planClamp i w).toNat from rfl, packed, BitVec.toNat_ofNat, Nat.mod_eq_of_lt bound]
  rw [word]
  exact places

theorem State.planFofs_planClamp :
    planFofs (s.planClamp i w).toNat = clampFofs (Grp.ofCode (bits w 14 2)) w := by
  obtain ⟨low, -⟩ := s.planClamp_places i w
  obtain ⟨hl, hu⟩ := clampFofs_bounds (Grp.ofCode (bits w 14 2)) w
  exact planFofs_of_low low hl hu

theorem State.group_planClamp : bits (s.planClamp i w).toNat 14 2 = (Grp.ofCode (bits w 14 2)).code := by
  obtain ⟨-, group, -⟩ := s.planClamp_places i w
  exact group

theorem State.planOpts_planClamp : planOpts (s.planClamp i w).toNat = planOpts w := by
  obtain ⟨-, -, mask, -⟩ := s.planClamp_places i w
  exact mask

theorem State.planEn_planClamp : planEn (s.planClamp i w).toNat = planEn w := by
  obtain ⟨-, -, -, en, -⟩ := s.planClamp_places i w
  exact testBit_of_b2n en

theorem State.planPriv_planClamp : planPriv (s.planClamp i w).toNat = s.clampPriv i w := by
  obtain ⟨-, -, -, -, priv, -⟩ := s.planClamp_places i w
  exact testBit_of_b2n priv

theorem State.edThr_planClamp : bits (s.planClamp i w).toNat 24 8 = clampEdThr w := by
  obtain ⟨-, -, -, -, -, thr⟩ := s.planClamp_places i w
  exact thr

/-- ED_THR of a clamped word is at least 0x04, so the plan lists every written entry. -/
theorem State.planClamp_ne_zero : s.planClamp i w ≠ 0 := by
  intro zero
  have thr := s.edThr_planClamp i w
  have low := (clampEdThr_bounds w).1
  rw [zero, show bits (0 : Word).toNat 24 8 = 0 from rfl] at thr
  omega

/-! ### The write -/

theorem State.planWrite_plan : mget (s.planWrite i w).grn.plan i = some (s.planClamp i w) := by
  simpa [State.planWrite, State.capChange] using s.planClamp_ne_zero i w

end Clamped

/-- PLAN_ENT of the entry that PLAN_IDX names reads back clamped after a write that the Grinder accepts. -/
theorem exec_planEntWrite_plan (s : State) (x : Word) (h : s.hostMay .GRN = true) :
    ∃ t, exec (.planEntWrite x) s = .next t ∧
      mget t.grn.plan (s.rd Reg.GRN_PLAN_IDX) =
        some (s.planClamp (s.rd Reg.GRN_PLAN_IDX) x.toNat) := by
  refine ⟨_, rfl, ?_⟩
  rw [State.hostOp_may s .GRN _ 4 h]
  exact State.planWrite_plan _ _ _

/-- Settles O14: each reader takes its own clamped field out of the clamped word, as the fields do not overlap. -/
theorem planClamps : Obligations.PlanClamps := by
  intro s i w
  refine ⟨Grp.code_ofCode _, s.group_planClamp i w, s.planFofs_planClamp i w, s.edThr_planClamp i w,
    s.planEn_planClamp i w, s.planOpts_planClamp i w, ?_, ?_⟩
  · rw [s.planPriv_planClamp i w]
    exact s.clampPriv_iff i w
  · rintro x rfl may rfl
    exact exec_planEntWrite_plan s x may

end Sys2Proof.Machine

/-!
PROOF. The rings as the host and its bus set them (R382 to R384): doorbells, RING_EN, DMA errors, table descriptors. Fields
of different places are told apart in every bank at once, so a chain of writes to a ring reads back field by field.
-/

namespace Sys2Proof.Machine

/-! ### Fields of different places -/

/-- Where a field begins within its bank: its byte and bit. A bank spans 2^24 keys (`Fld.key`). -/
def Fld.place (f : Fld) : Nat := (f.addr * 256 + f.lsb) % 2 ^ 24

theorem Fld.key_ne_of_place {f g : Fld} (h : g.place ≠ f.place) (b c : Nat) : g.key 0 c ≠ f.key 0 b := by
  unfold Fld.place at h
  unfold Fld.key
  omega

theorem State.rdB_wrB_place (s : State) {f g : Fld} (b c v : Nat) (h : g.place ≠ f.place) :
    (s.wrB f 0 b v).rdB g 0 c = s.rdB g 0 c :=
  s.rdB_wrB_other f g 0 b 0 c v (Fld.key_ne_of_place h b c)

theorem State.rd_wrB_place (s : State) {f g : Fld} (b v : Nat) (h : g.place ≠ f.place) :
    (s.wrB f 0 b v).rd g = s.rd g :=
  s.rdB_wrB_place b 0 v h

theorem State.rdB_bump_place (s : State) {f g : Fld} (c : Nat) (h : g.place ≠ f.place) :
    (s.bump f).rdB g 0 c = s.rdB g 0 c :=
  s.rdB_wrB_place 0 c _ h

theorem State.rdB_ev_place (s : State) {f g : Fld} (b base c : Nat) (h : g.place ≠ f.place) :
    (s.ev f b base).rdB g 0 c = s.rdB g 0 c :=
  s.ev_other f g b base 0 c (Fld.key_ne_of_place h 0 c)

theorem State.rd_ev_place (s : State) {f g : Fld} (b base : Nat) (h : g.place ≠ f.place) :
    (s.ev f b base).rd g = s.rd g :=
  s.rdB_ev_place b base 0 h

/-- A counter counts one, up to its greatest value (R6). -/
theorem State.rd_bump_same (s : State) (f : Fld) : (s.bump f).rd f = min (s.rd f + 1) (2 ^ f.width - 1) := by
  have pos := Nat.two_pow_pos f.width
  rw [State.bump, State.bumpN, State.rd_wr_same, Nat.mod_eq_of_lt (by omega)]

/-! ### Doorbells (R383) -/

/-- The doorbell's write to PROD reads back the clamped PROD, and a clamp alone is counted. -/
theorem State.doorbell_sets (s : State) (ring : Nat) (prod : BitVec 16) :
    let c := s.rdB Reg.HST_RING_COMPL 0 ring
    let n := s.ringSize ring - 1
    let past := n < (prod.toNat + 65536 - c) % 65536
    let t := s.doorbell ring prod.toNat
    t.rdB Reg.HST_RING_PROD 0 ring = (if past then (c + n) % 65536 else prod.toNat) ∧
      t.rd Reg.HST_DB_CLAMP = (if past then min (s.rd Reg.HST_DB_CLAMP + 1) 65535 else s.rd Reg.HST_DB_CLAMP) := by
  intro c n past t
  have counter (v : Nat) : (s.wrB Reg.HST_RING_PROD 0 ring v).rd Reg.HST_DB_CLAMP = s.rd Reg.HST_DB_CLAMP :=
    s.rd_wrB_place ring v (by decide)
  by_cases h : past
  · have clamped : t = (s.wrB Reg.HST_RING_PROD 0 ring ((c + n) % 65536)).bump Reg.HST_DB_CLAMP := if_pos h
    rw [if_pos h, if_pos h, clamped]
    constructor
    · rw [State.rdB_bump_place _ ring (by decide), State.rdB_wrB_same]
      exact Nat.mod_mod _ _
    · rw [State.rd_bump_same, counter]
      rfl
  · have plain : t = s.wrB Reg.HST_RING_PROD 0 ring prod.toNat := if_neg h
    rw [if_neg h, if_neg h, plain]
    exact ⟨(s.rdB_wrB_same _ 0 ring _).trans (Nat.mod_eq_of_lt prod.isLt), counter _⟩

/-! ### RING_EN (R382) -/

/-- A ring enabled from 0 starts with its three indices at 0. -/
theorem State.ringEn_starts (s : State) (ring : Nat) (h : s.rdB Reg.HST_RING_EN 0 ring ≠ 1) :
    let t := s.ringEn ring true
    t.rdB Reg.HST_RING_EN 0 ring = 1 ∧ t.rdB Reg.HST_RING_FETCH 0 ring = 0 ∧ t.rdB Reg.HST_RING_COMPL 0 ring = 0 ∧
      t.rdB Reg.HST_RING_PROD 0 ring = 0 := by
  intro t
  have regs : t.regs = ((((s.wrB Reg.HST_RING_PROD 0 ring 0).wrB Reg.HST_RING_FETCH 0 ring 0).wrB
      Reg.HST_RING_COMPL 0 ring 0).wrB Reg.HST_RING_EN 0 ring 1).regs := by
    simp only [t, State.ringEn, if_neg h, if_true]
  simp only [State.rdB_congr _ t _ _ _ regs]
  simp (disch := decide) only [State.rdB_wrB_place, State.rdB_wrB_same, Nat.zero_mod, and_true]
  rfl

/-! ### DMA errors (R383) -/

/-- The registers as a DMA error of a ring leaves them. -/
theorem execDmaError_sets (s : State) (ring : BitVec 6) (hr : ring.toNat ≤ 32) (hd : s.dma = true) :
    ∃ t, execDmaError ring s = .next t ∧
      t.rdB Reg.HST_RING_EN 0 ring.toNat = 0 ∧ t.rdB Reg.HST_RING_ERR 0 ring.toNat = 1 ∧
      t.rd Reg.HST_DMA_ERR = min (s.rd Reg.HST_DMA_ERR + 1) 65535 ∧
      (t.rd Reg.HST_HST_EVT).testBit 1 = true := by
  have known : min tblRing ring.toNat = ring.toNat := Nat.min_eq_right hr
  simp only [execDmaError, known, hd, if_true]
  refine ⟨_, rfl, ?_, ?_, ?_, State.ev_sets _ _ _ _ (by decide)⟩
  · rw [State.rdB_ev_place _ _ _ _ (by decide), State.rdB_bump_place _ _ (by decide),
      State.rdB_wrB_place _ _ _ _ (by decide), State.rdB_wrB_same]
    rfl
  · rw [State.rdB_ev_place _ _ _ _ (by decide), State.rdB_bump_place _ _ (by decide), State.rdB_wrB_same]
    rfl
  · rw [State.rd_ev_place _ _ _ (by decide), State.rd_bump_same, State.rd_wrB_place _ _ _ (by decide),
      State.rd_wrB_place _ _ _ (by decide)]
    rfl

/-! ### Table descriptors (R384) -/

/-- A front command that was not aborted and whose OP the table knows stays at the front (R182, R183). -/
theorem State.tblSkip_of_ready (s : State) (n : Nat) {c : TblCmd} {rest : List TblCmd} (hq : s.ntb.cmdQ = c :: rest)
    (ha : c.aborted = false) (hlo : 1 ≤ c.op) (hhi : c.op ≤ 6) : s.tblSkip n = s := by
  have known : ¬ (c.op = 0 ∨ 6 < c.op) := by omega
  cases n with
  | zero => rfl
  | succ n => simp [State.tblSkip, hq, ha, known]

/-- Such a command, posted to an empty queue, is what the queue then holds, whether NTB runs or not. -/
theorem State.tblPost_of_empty (s : State) {c : TblCmd} (hq : s.ntb.cmdQ = [])
    (ha : c.aborted = false) (hlo : 1 ≤ c.op) (hhi : c.op ≤ 6) : (s.tblPost c).ntb.cmdQ = [c] := by
  have joined : ({ s with ntb.cmdQ := s.ntb.cmdQ ++ [c] } : State).ntb.cmdQ = [c] := by simp [hq]
  unfold State.tblPost
  dsimp only
  rw [State.tblSkip_of_ready _ _ joined ha hlo hhi, ite_self]
  exact joined

/-! ### The obligation -/

/-- Settles O34: each command is its ring operation on the state that the host's gate or HST's readiness lets through. -/
theorem ringControl : Obligations.RingControl := by
  intro s
  refine ⟨?_, ?_, ?_, ?_⟩
  · intro ring tbl prod may r c n past
    refine ⟨_, rfl, ?_⟩
    rw [State.hostOp_may s .HST _ 4 may]
    exact State.doorbell_sets _ _ _
  · intro en may r
    have taken : exec (.ringEnWrite en) s = .next ((s.numbered 1).ringEn r en) :=
      congrArg Host.Outcome.next (State.hostOp_may s .HST _ 1 may)
    constructor
    · rintro rfl
      exact taken
    · rintro rfl off
      exact ⟨_, taken, State.ringEn_starts (s.numbered 1) r off⟩
  · intro ring known dma
    exact execDmaError_sets s ring known dma
  · intro rec ready host empty lo hi
    refine ⟨_, if_pos (by simp [ready, host]), ?_⟩
    exact State.tblPost_of_empty _ empty rfl lo hi

end Sys2Proof.Machine

/-!
PROOF. The frame of every command (O5): the frame lemmas of the commands, read off as one statement over `touches`, and the
two shapes of a step.
-/

namespace Sys2Proof.Machine

/-- The parts of the state, in the order in which the frame lemmas list them. -/
def Part.all : List Part :=
  [.regs, .staged, .captured, .hostData, .sys, .irq, .feL, .feH, .feI, .grn, .phy, .ntb, .sch, .car, .hst, .key, .tim, .eth,
   .twn, .tst, .aon, .otp, .nvm, .free, .out]

theorem Part.mem_all (p : Part) : p ∈ Part.all := by cases p <;> decide

/-- Two states agree on the listed parts and on the queue of commands. -/
def Part.agree (s t : State) : List Part → Prop
  | [] => t.pending = s.pending
  | p :: l => p.same s t ∧ Part.agree s t l

/-- The parts that a command leaves as they were. -/
def untouched (c : Instr) : List Part := Part.all.filter (fun p => !(touches c).contains p)

theorem exec_agrees (c : Instr) (s : State) : Part.agree s (Outcome.get (exec c s) s) (untouched c) := by
  cases c with
  | regWrite addr v => exact execRegWrite_keeps addr v s
  | groupCapture addr => exact execGroupCapture_keeps addr s
  | handshakeTimeout isl => exact execHandshakeTimeout_keeps isl s
  | fabTagCheckFail rcv snd tag => exact execFabTagCheckFail_keeps rcv snd tag s
  | islandStateParity isl => exact execIslandStateParity_keeps isl s
  | islandRestart isl => exact execIslandRestart_keeps isl s
  | resumePublish => exact execResumePublish_keeps s
  | recAck => exact execRecAck_keeps s
  | fncPop => exact execFncPop_keeps s
  | deviceFaultReset cause => exact execDeviceFaultReset_keeps cause s
  | clockLoss which => exact execClockLoss_keeps which s
  | clockReturnRestart => exact execClockReturnRestart_keeps s
  | porstAssert => exact execPorstAssert_keeps s
  | porstRise bootMode twinId => exact execPorstRise_keeps bootMode twinId s
  | perstAssert => exact execPerstAssert_keeps s
  | perstRelease => exact execPerstRelease_keeps s
  | aonRetentionLoss => exact execAonRetentionLoss_keeps s
  | dieTempUpdate t => exact execDieTempUpdate_keeps t s
  | stage1TamperRead => exact execStage1TamperRead_keeps s
  | stage2OtpRead => exact execStage2OtpRead_keeps s
  | stage3Bist faults lbist durUs => exact execStage3Bist_keeps faults lbist durUs s
  | stage4NvmProbe probeOk => exact execStage4NvmProbe_keeps probeOk s
  | stage5StagingCopy v => exact execStage5StagingCopy_keeps v s
  | stage6FwVerify v pufOk slot4Ok => exact execStage6FwVerify_keeps v pufOk slot4Ok s
  | stage7ConfigApply v => exact execStage7ConfigApply_keeps v s
  | stage8Seal => exact execStage8Seal_keeps s
  | stage9SynthCal lock portFault => exact execStage9SynthCal_keeps lock portFault s
  | stage10TimeAcq => exact execStage10TimeAcq_keeps s
  | stage11StartBeacons => exact execStage11StartBeacons_keeps s
  | meshGo => exact execMeshGo_keeps s
  | attKeygen => exact execAttKeygen_keeps s
  | attCacheRebuildDone => exact execAttCacheRebuildDone_keeps s
  | calCmdGap g => exact execCalCmdGap_keeps g s
  | calCmdNow g => exact execCalCmdNow_keeps g s
  | grpTempUpdate g t => exact execGrpTempUpdate_keeps g t s
  | calForceTimeout g => exact execCalForceTimeout_keeps g s
  | calibrationStart g => exact execCalibrationStart_keeps g s
  | calSettling g => exact execCalSettling_keeps g s
  | synthLockCheck g lock => exact execSynthLockCheck_keeps g lock s
  | lossOfLock g => exact execLossOfLock_keeps g s
  | burstBegin g => exact execBurstBegin_keeps g s
  | frameDue g => exact execFrameDue_keeps g s
  | frameJoin g => exact execFrameJoin_keeps g s
  | grantCheck g grant => exact execGrantCheck_keeps g grant s
  | grantLow g => exact execGrantLow_keeps g s
  | firstSymbol g => exact execFirstSymbol_keeps g s
  | lastSymbolEnd g => exact execLastSymbolEnd_keeps g s
  | burstEnd g => exact execBurstEnd_keeps g s
  | rlMismatch g rl => exact execRlMismatch_keeps g rl s
  | tuneGo g port => exact execTuneGo_keeps g port s
  | tuneSearchStart g => exact execTuneSearchStart_keeps g s
  | tuneSearchEnd g grant coarse fine low => exact execTuneSearchEnd_keeps g grant coarse fine low s
  | planEntWrite v => exact execPlanEntWrite_keeps v s
  | capBoundary => exact execCapBoundary_keeps s
  | scanDone => exact execScanDone_keeps s
  | detection ent opt metric => exact execDetection_keeps ent opt metric s
  | edWindow ent power => exact execEdWindow_keeps ent power s
  | qualifierEnd ent opt metric => exact execQualifierEnd_keeps ent opt metric s
  | phrReport lane first rest => exact execPhrReport_keeps lane first rest s
  | acqTimeout lane => exact execAcqTimeout_keeps lane s
  | receptionEnd lane r => exact execReceptionEnd_keeps lane r s
  | ulRelease => exact execUlRelease_keeps s
  | nfWindowDone ent power => exact execNfWindowDone_keeps ent power s
  | phyModulate => exact execPhyModulate_keeps s
  | tmapRead => exact execTmapRead_keeps s
  | tmapWrite => exact execTmapWrite_keeps s
  | tmapFree => exact execTmapFree_keeps s
  | tonemapTableWrite => exact execTonemapTableWrite_keeps s
  | ntbLookup => exact execNtbLookup_keeps s
  | tblInsert => exact execTblInsert_keeps s
  | tblWrite => exact execTblWrite_keeps s
  | tblRead => exact execTblRead_keeps s
  | tblRemove => exact execTblRemove_keeps s
  | tblLock => exact execTblLock_keeps s
  | tblLookup => exact execTblLookup_keeps s
  | purgeEnd => exact execPurgeEnd_keeps s
  | stashDrainTick => exact execStashDrainTick_keeps s
  | sweepVisit => exact execSweepVisit_keeps s
  | compareRemove => exact execCompareRemove_keeps s
  | lockTimeout handle => exact execLockTimeout_keeps handle s
  | bucketProcess => exact execBucketProcess_keeps s
  | overflowMove => exact execOverflowMove_keeps s
  | hourlyContactClamp => exact execHourlyContactClamp_keeps s
  | predCmd => exact execPredCmd_keeps s
  | ulClassify => exact execUlClassify_keeps s
  | joinInsert => exact execJoinInsert_keeps s
  | ackWindowClose handle => exact execAckWindowClose_keeps handle s
  | beaconDispatch slot => exact execBeaconDispatch_keeps slot s
  | mcBlockDispatch sess => exact execMcBlockDispatch_keeps sess s
  | abtFrame => exact execAbtFrame_keeps s
  | abtNode => exact execAbtNode_keeps s
  | abtTable => exact execAbtTable_keeps s
  | txDescFetch ring desc buf => exact execTxDescFetch_keeps ring desc buf s
  | admitRetry => exact execAdmitRetry_keeps s
  | tblDescFetch rec => exact execTblDescFetch_keeps rec s
  | rxDeliver ring buf => exact execRxDeliver_keeps ring buf s
  | txCompletionWrite ring => exact execTxCompletionWrite_keeps ring s
  | tevPop => exact execTevPop_keeps s
  | sevPop => exact execSevPop_keeps s
  | carafeDoubleError cell mem => exact execCarafeDoubleError_keeps cell mem s
  | keyUlCheck => exact execKeyUlCheck_keeps s
  | keySecure => exact execKeySecure_keeps s
  | epochCmd => exact execEpochCmd_keeps s
  | epochComplete => exact execEpochComplete_keeps s
  | graceExpire => exact execGraceExpire_keeps s
  | kuDeploy => exact execKuDeploy_keeps s
  | kuKeys => exact execKuKeys_keeps s
  | kuRmaAuth => exact execKuRmaAuth_keeps s
  | kuScrap => exact execKuScrap_keeps s
  | tamperEvent src keyOp => exact execTamperEvent_keeps src keyOp s
  | sessionOpen => exact execSessionOpen_keeps s
  | sessionData readBackOk => exact execSessionData_keeps readBackOk s
  | sessionCommit => exact execSessionCommit_keeps s
  | sessionAbort => exact execSessionAbort_keeps s
  | attest => exact execAttest_keeps s
  | attSignDone => exact execAttSignDone_keeps s
  | sessionIdleExpire => exact execSessionIdleExpire_keeps s
  | updKill => exact execUpdKill_keeps s
  | attTokenTick => exact execAttTokenTick_keeps s
  | steerUpdate => exact execSteerUpdate_keeps s
  | timeAcqExpire => exact execTimeAcqExpire_keeps s
  | ptpAnnounceRx d h a => exact execPtpAnnounceRx_keeps d h a s
  | ptpSyncRx d h twoStep t1 => exact execPtpSyncRx_keeps d h twoStep t1 s
  | ptpFollowUpRx d h t1 => exact execPtpFollowUpRx_keeps d h t1 s
  | followUpTimeout d => exact execFollowUpTimeout_keeps d s
  | delayReqSend d => exact execDelayReqSend_keeps d s
  | ptpDelayRespRx d h t4 freq span => exact execPtpDelayRespRx_keeps d h t4 freq span s
  | syncTimeout d => exact execSyncTimeout_keeps d s
  | announceTimeout d port => exact execAnnounceTimeout_keeps d port s
  | ppsEdge => exact execPpsEdge_keeps s
  | spineTapError isl => exact execSpineTapError_keeps isl s
  | linkChange p up los => exact execLinkChange_keeps p up los s
  | bridgeRx p f => exact execBridgeRx_keeps p f s
  | reassemblyTimeout id => exact execReassemblyTimeout_keeps id s
  | datagramRx d => exact execDatagramRx_keeps d s
  | mgtSession => exact execMgtSession_keeps s
  | mgtKeyUpdate => exact execMgtKeyUpdate_keeps s
  | mgtStatus => exact execMgtStatus_keeps s
  | tunDown => exact execTunDown_keeps s
  | tunTable => exact execTunTable_keeps s
  | tunAckRx => exact execTunAckRx_keeps s
  | tunAckSend => exact execTunAckSend_keeps s
  | tunDrain => exact execTunDrain_keeps s
  | tunRtoExpire => exact execTunRtoExpire_keeps s
  | doorbell ring tbl prod => exact execDoorbell_keeps ring tbl prod s
  | ringEnWrite en => exact execRingEnWrite_keeps en s
  | dmaError ring => exact execDmaError_keeps ring s
  | mbxSession r => exact execMbxSession_keeps r s
  | mbxKeyUpdate m => exact execMbxKeyUpdate_keeps m s
  | heartbeatSend => exact execHeartbeatSend_keeps s
  | heartbeatRx hb => exact execHeartbeatRx_keeps hb s
  | heartbeatMiss held => exact execHeartbeatMiss_keeps held s
  | xlockReleaseSensed => exact execXlockReleaseSensed_keeps s
  | claimCheck low => exact execClaimCheck_keeps low s
  | takeover us => exact execTakeover_keeps us s
  | mirrorCut => exact execMirrorCut_keeps s
  | mirrorCycleApply c => exact execMirrorCycleApply_keeps c s
  | syncDone => exact execSyncDone_keeps s
  | twSwap => exact execTwSwap_keeps s
  | twCancel => exact execTwCancel_keeps s
  | swapArmTimeout => exact execSwapArmTimeout_keeps s
  | relayRecord r => exact execRelayRecord_keeps r s
  | eventLatch src => exact execEventLatch_keeps src s
  | srcEnWrite src en => exact execSrcEnWrite_keeps src en s
  | pendClear c => exact execPendClear_keeps c s
  | tgtWrite src tgt => exact execTgtWrite_keeps src tgt s
  | replay => exact execReplay_keeps s
  | swi bits => exact execSwi_keeps bits s
  | bistMemory grps faults => exact execBistMemory_keeps grps faults s
  | bistLogic grps lbist => exact execBistLogic_keeps grps lbist s
  | bistPercPass => exact execBistPercPass_keeps s
  | fuse => exact execFuse_keeps s
  | percSlice faults hurt => exact execPercSlice_keeps faults hurt s
  | percCutoff => exact execPercCutoff_keeps s
  | aonSwitchOver io4 vbatOk => exact execAonSwitchOver_keeps io4 vbatOk s
  | rcRead addr => exact execRcRead_keeps addr s
  | pcieLinkTrained speed width => exact execPcieLinkTrained_keeps speed width s
  | reqRise g => exact execReqRise_keeps g s

theorem Part.agree_iff (s t : State) (l : List Part) :
    Part.agree s t l ↔ (∀ p ∈ l, p.same s t) ∧ t.pending = s.pending := by
  induction l with
  | nil => simp [Part.agree]
  | cons p l ih => simp [Part.agree, ih, and_assoc]

theorem mem_untouched (c : Instr) (p : Part) : p ∈ untouched c ↔ p ∉ touches c := by
  simp [untouched, p.mem_all]

/-- The frame of a command, as the outcome's state gives it. -/
theorem exec_keeps (c : Instr) (s t : State) (h : exec c s = .next t) :
    (∀ p, p ∉ touches c → p.same s t) ∧ t.pending = s.pending := by
  have kept := exec_agrees c s
  rw [h, Outcome.get_next, Part.agree_iff] at kept
  exact ⟨fun p untouchedPart => kept.1 p ((mem_untouched c p).mpr untouchedPart), kept.2⟩

/-- A step is a period of the clock or the command at the front of the queue (log entry 5). -/
theorem step_cases {s t : State} (h : step s = .next t) :
    (s.pending = [] ∧ t = s.clock) ∨ ∃ c rest, s.pending = c :: rest ∧ exec c { s with pending := rest } = .next t := by
  unfold step at h
  split at h
  · cases h
    exact .inl ⟨by assumption, rfl⟩
  · exact .inr ⟨_, _, by assumption, h⟩

/-- Settles O5: the frame lemma of each command lists every part that `touches` does not name for it. -/
theorem frame : Obligations.Frame := by
  intro c s t h
  obtain ⟨parts, queue⟩ := exec_keeps c s t h
  exact ⟨queue, parts⟩

end Sys2Proof.Machine

/-!
PROOF. What a host write and a configuration record do to OTP and to the NVM bytes: of OTP they add repairs at most (R452).
-/

namespace Sys2Proof.Machine

/-! ### NVM bytes and OTP under a host write and a configuration record -/

/-- From `s` to `t` the NVM bytes stay, and of OTP only repairs are added (R452). -/
def State.fusedTo (s t : State) : Prop :=
  t.nvm.bytes = s.nvm.bytes ∧ ∃ l, t.otp = { s.otp with repairs := s.otp.repairs ++ l }

theorem State.fusedTo_of_eq {s t : State} (bytes : t.nvm.bytes = s.nvm.bytes) (otp : t.otp = s.otp) : s.fusedTo t :=
  ⟨bytes, [], by simp [otp]⟩

theorem State.fusedTo_refl (s : State) : s.fusedTo s := State.fusedTo_of_eq rfl rfl

theorem State.fusedTo_trans {s t u : State} (a : s.fusedTo t) (b : t.fusedTo u) : s.fusedTo u := by
  obtain ⟨ha, l, ea⟩ := a
  obtain ⟨hb, m, eb⟩ := b
  exact ⟨hb.trans ha, l ++ m, by simp [eb, ea]⟩

theorem State.fusedTo_foldl {α : Type} (g : State → α → State) (l : List α) (s : State) (h : ∀ (t : State) (x : α), t.fusedTo (g t x)) :
    s.fusedTo (l.foldl g s) :=
  List.foldlRecOn l g (motive := s.fusedTo) s.fusedTo_refl (fun _ ht x _ => State.fusedTo_trans ht (h _ x))

/-- A step ahead of `fusedTo` that touches neither OTP nor the NVM. -/
theorem State.fusedTo_from {s u t : State} (nvm : u.nvm = s.nvm) (otp : u.otp = s.otp) (h : u.fusedTo t) : s.fusedTo t :=
  State.fusedTo_trans (State.fusedTo_of_eq (by rw [nvm]) otp) h

theorem State.hostOp_fusedTo (s : State) (isl : Isl) (f : State → State) (n : Nat) (h : ∀ t : State, t.fusedTo (f t)) :
    s.fusedTo (s.hostOp isl f n) := by
  have gate : (s.hostGate isl n).2.nvm = s.nvm ∧ (s.hostGate isl n).2.otp = s.otp := by simp
  unfold State.hostOp
  dsimp only
  split
  · exact State.fusedTo_from gate.1 gate.2 (h _)
  · exact State.fusedTo_of_eq (by rw [gate.1]) gate.2

theorem State.fuseCmd_fusedTo (s : State) : s.fusedTo s.fuseCmd := by
  unfold State.fuseCmd
  dsimp only
  split
  · exact ⟨by simp, _, rfl⟩
  · exact State.fusedTo_of_eq (by simp) (by simp)

@[simp] theorem State.reserve_bytes (s : State) (sgen : BitVec 16) (epoch : Byte) (block : Nat) :
    (s.reserve sgen epoch block).nvm.bytes = s.nvm.bytes := by
  simp [State.reserve]

@[simp] theorem State.writeStore_bytes (s : State) (k : Option Key) (st : KeyStore) :
    (s.writeStore k st).nvm.bytes = s.nvm.bytes := rfl

@[simp] theorem State.changeEpoch_bytes (s : State) (st : KeyStore) : (s.changeEpoch st).nvm.bytes = s.nvm.bytes := by
  simp [State.changeEpoch]

@[simp] theorem State.epochCmd_bytes (s : State) : s.epochCmd.nvm.bytes = s.nvm.bytes := by
  unfold State.epochCmd
  dsimp only
  split <;> simp

theorem State.tstWrite_fusedTo (s : State) (host : Bool) (base w : Nat) (l : List (Fld × Nat)) :
    s.fusedTo (s.tstWrite host base w l) := by
  unfold State.tstWrite
  split
  · (repeat' split) <;> exact State.fusedTo_of_eq (by simp) (by simp)
  · split
    · exact s.fuseCmd_fusedTo
    · exact s.fusedTo_refl
  · exact State.fusedTo_of_eq (by simp) (by simp)

theorem State.groupWrite_fusedTo (s : State) (host : Bool) (base w : Nat) (l : List (Fld × Nat)) :
    s.fusedTo (s.groupWrite host base w l) := by
  unfold State.groupWrite
  split
  case h_12 => exact s.tstWrite_fusedTo host base w l
  all_goals
    (repeat' split) <;> exact State.fusedTo_of_eq (by simp) (by simp)

theorem State.stageByte_fusedTo (s : State) (host : Bool) (a v : Nat) (l : List (Fld × Nat)) :
    s.fusedTo (s.stageByte host a v l) := by
  unfold State.stageByte
  dsimp only
  split
  · exact State.fusedTo_from (by simp) (by simp) (State.groupWrite_fusedTo _ host _ _ l)
  · exact State.fusedTo_of_eq rfl rfl

theorem State.hostByte_fusedTo (s : State) (a v : Nat) : s.fusedTo (s.hostByte a v) := by
  unfold State.hostByte
  dsimp only
  (repeat' split)
  · exact s.fusedTo_refl
  · exact State.fusedTo_from (by simp) (by simp) (State.groupWrite_fusedTo _ true _ _ _)
  · exact State.fusedTo_of_eq (by simp) (by simp)
  · exact s.stageByte_fusedTo true a v _
  · exact State.fusedTo_of_eq (by simp) (by simp)

theorem State.hostWrite_fusedTo (s : State) (a v : Nat) : s.fusedTo (s.hostWrite a v) := by
  unfold State.hostWrite
  split
  · exact State.fusedTo_of_eq (by simp) (by simp)
  · exact s.hostOp_fusedTo _ _ _ (fun t => t.hostByte_fusedTo a v)

theorem State.cfgPut_fusedTo (s : State) (a op v : Nat) : s.fusedTo (s.cfgPut a op v) := by
  unfold State.cfgPut
  dsimp only
  (repeat' split)
  · exact State.fusedTo_of_eq (by simp) (by simp)
  · exact State.fusedTo_from (by simp) (by simp) (State.groupWrite_fusedTo _ false _ _ _)
  · exact State.fusedTo_from (by simp) (by simp) (State.stageByte_fusedTo _ false _ _ _)

theorem State.cfgStep_fusedTo (s : State) (c : CfgOp) : s.fusedTo (s.cfgStep c) := by
  cases c with
  | plain => exact State.fusedTo_of_eq (by simp [State.cfgStep]) (by simp [State.cfgStep])
  | put a op v => exact s.cfgPut_fusedTo a op v
  | nodes l => exact State.fusedTo_of_eq (by simp [State.cfgStep]) (by simp [State.cfgStep])
  | maps l => exact State.fusedTo_of_eq (by simp [State.cfgStep]) (by simp [State.cfgStep])

theorem State.applyConfig_fusedTo (s : State) (v : Verdict) : s.fusedTo (s.applyConfig v) := by
  unfold State.applyConfig
  split
  · exact State.fusedTo_of_eq (by simp) (by simp)
  · have applied := State.fusedTo_foldl State.cfgStep ((s.cfgOps cfgBase).getD []) s State.cfgStep_fusedTo
    exact State.fusedTo_trans applied (State.fusedTo_of_eq (by simp) (by simp))

end Sys2Proof.Machine

/-!
PROOF. OTP only rises (O6, R283, R285, R307, R321, R330, R332, R452): what each command that burns it burns.
-/

namespace Sys2Proof.Machine

/-! ### Key-update messages: what passing the checks says (R306) -/

/-- A message whose every check passes (R306). -/
theorem State.kuCheck_none {s : State} {m : KuMsg} {st : KeyStore} (h : s.kuCheck m st = none) :
    kindAccepted s.key.lc.toNat m.kind.toNat = true ∧
    (m.kind = 1 → (s.otp.ownerPub = none ∨ s.otp.ownerPub = some m.ownerPub) ∧
      (s.otp.ownerSet = 0 ∨ s.otp.ownerSet = m.ownerSet) ∧
      (s.otp.ownerRoot = none ∨ s.otp.ownerRoot = s.ownerSlot m)) ∧
    (s.key.lc ≠ 1 → s.otp.kuCtr < m.ctr) := by
  simp only [State.kuCheck] at h
  split_ifs at h with _ _ kind ctr _ _ _ root
  simp only [Bool.or_eq_true, Bool.and_eq_true, Bool.not_eq_true', decide_eq_true_eq, not_or, not_and, Bool.not_eq_false,
    Bool.or_eq_false_iff, Bool.and_eq_false_iff, decide_eq_false_iff_not, Option.isNone_eq_false_iff,
    Option.isSome_iff_ne_none, not_not] at kind ctr root
  simp only [or_iff_not_imp_left]
  exact ⟨kind.1, fun k => ⟨(kind.2 k).1, (kind.2 k).2, root k⟩, fun lc => (ctr lc).1⟩

/-- What KEY does with the message at its front (R306): nothing, a refusal, or the message's own effect. -/
theorem State.kuRun_cases (s : State) (kind : Byte) (f : State → ReplyTo → KuMsg → State) :
    s.kuRun kind f = s ∨ ∃ r m rest, s.key.msgQ = (r, m) :: rest ∧ m.kind = kind ∧
      ((∃ why, s.kuRun kind f = ({ s with key.msgQ := rest } : State).kuRefuse r why) ∨
        (({ s with key.msgQ := rest } : State).kuCheck m (if kind = 1 then KeyStore.empty else s.aon.store) = none ∧
          s.kuRun kind f = f { s with key.msgQ := rest } r m)) := by
  unfold State.kuRun
  split
  · exact .inl rfl
  · rename_i r m rest front
    split
    · exact .inl rfl
    · rename_i run
      have same : m.kind = kind := by simp at run; exact run.1
      refine .inr ⟨r, m, rest, front, same, ?_⟩
      dsimp only
      split
      · exact .inl ⟨_, rfl⟩
      · exact .inr ⟨by assumption, rfl⟩

/-! ### OTP -/

theorem Otp.rose_refl (a : Otp) : a.rose a := by simp [Otp.rose]

theorem Otp.rose_of_eq {a b : Otp} (h : b = a) : a.rose b := h ▸ a.rose_refl

/-- The bits blown in a word stay blown in a third. -/
theorem blown_trans {a b c : BitVec 5} (h : a ||| b = b) (k : b ||| c = c) : a ||| c = c := by
  rw [← k, ← BitVec.or_assoc, h]

theorem Otp.rose_trans {a b c : Otp} (h : a.rose b) (k : b.rose c) : a.rose c := by
  obtain ⟨h0, h1, h2, h3, h4, h5, h6, h7, h8, h9, h10, h11, h12, h13, h14, h15, h16, h17, h18⟩ := h
  obtain ⟨k0, k1, k2, k3, k4, k5, k6, k7, k8, k9, k10, k11, k12, k13, k14, k15, k16, k17, k18⟩ := k
  exact ⟨blown_trans h0 k0, blown_trans h1 k1, blown_trans h2 k2, h3.trans k3, h4.trans k4, h5.trans k5, h6.trans k6,
    fun x hx => k7 x (h7 x hx), fun x hx => k8 x (h8 x hx), fun x hx => k9 x (h9 x hx), fun x hx => k10 x (h10 x hx),
    k11.trans h11, k12.trans h12, k13.trans h13, k14.trans h14, k15.trans h15, k16.trans h16, k17.trans h17,
    fun set => (k18 (by rwa [h18 set])).trans (h18 set)⟩

theorem State.otp_rose_of_fusedTo {s t : State} (h : s.fusedTo t) : s.otp.rose t.otp := by
  obtain ⟨-, l, e⟩ := h
  simp [e, Otp.rose]

/-- OTP with bits of the life-cycle word blown in all three copies (R283). -/
def Otp.blown (a : Otp) (bits : BitVec 5) : Otp := { a with lc0 := a.lc0 ||| bits, lc1 := a.lc1 ||| bits, lc2 := a.lc2 ||| bits }

@[simp] theorem State.blowLc_otp (s : State) (bits : BitVec 5) : (s.blowLc bits).otp = s.otp.blown bits := rfl

theorem Otp.blown_rose (a : Otp) (bits : BitVec 5) : a.rose (a.blown bits) := by
  have blown (a : BitVec 5) : a ||| (a ||| bits) = a ||| bits := by rw [← BitVec.or_assoc, BitVec.or_self]
  simp [Otp.blown, Otp.rose, blown]

@[simp] theorem State.writeStore_key (s : State) (k : Option Key) (st : KeyStore) : (s.writeStore k st).key = s.key := rfl

/-- OTP once a message with counter `ctr` has completed in the life-cycle state `lc`: in TEST the counter stays (R307). -/
def Otp.advanced (a : Otp) (lc : BitVec 3) (ctr : Nat) : Otp := if lc = 1 then a else { a with kuCtr := ctr }

@[simp] theorem State.advanceKu_otp (s : State) (ctr : Nat) : (s.advanceKu ctr).otp = s.otp.advanced s.key.lc ctr := by
  unfold State.advanceKu Otp.advanced
  split <;> rfl

theorem Otp.advanced_rose {a : Otp} {lc : BitVec 3} {ctr : Nat} (h : lc ≠ 1 → a.kuCtr < ctr) :
    a.rose (a.advanced lc ctr) := by
  unfold Otp.advanced
  split
  · exact a.rose_refl
  · rename_i other
    simp [Otp.rose, (h other).le]

/-- A transition blows its bits (R283). -/
@[simp] theorem State.transition_otp (s : State) (bits : BitVec 5) : (s.transition bits).otp = s.otp.blown bits := by
  simp [State.transition]

@[simp] theorem State.changeEpoch_lc (s : State) (st : KeyStore) : (s.changeEpoch st).key.lc = s.key.lc := by
  simp [State.changeEpoch]

@[simp] theorem State.applyKeys_otp (s : State) (r : ReplyTo) (m : KuMsg) :
    (s.applyKeys r m).otp = s.otp.advanced s.key.lc m.ctr := by
  unfold State.applyKeys
  dsimp only
  split <;> simp

@[simp] theorem State.applyMove_otp (s : State) (r : ReplyTo) (m : KuMsg) (bits : BitVec 5) :
    (s.applyMove r m bits).otp = (s.otp.advanced s.key.lc m.ctr).blown bits := by
  simp [State.applyMove]

/-- OTP with the owner's root, key and parameter set burnt (R307). -/
def Otp.owned (a : Otp) (root : Option RootSlot) (m : KuMsg) : Otp :=
  { a with ownerRoot := root, ownerPub := some m.ownerPub, ownerSet := m.ownerSet }

@[simp] theorem State.applyDeploy_otp (s : State) (r : ReplyTo) (m : KuMsg) :
    (s.applyDeploy r m).otp = ((s.otp.owned (s.ownerSlot m) m).advanced s.key.lc m.ctr).blown 0b00100 := by
  simp [State.applyDeploy, Otp.owned, State.ownerSlot]


theorem State.takeLeaf_rose (s : State) : s.otp.rose s.takeLeaf.2.otp := by
  have segment : s.takeLeaf.2.otp = s.otp ∨ s.takeLeaf.2.otp = { s.otp with attSeg := s.otp.attSeg + 1 } := by
    unfold State.takeLeaf
    dsimp only
    split_ifs <;> simp
  obtain e | e := segment
  · exact Otp.rose_of_eq e
  · simp [e, Otp.rose]

theorem State.attStart_rose (s : State) (r : ReplyTo) (rec : SessRec) : s.otp.rose (s.attStart r rec).otp := by
  unfold State.attStart
  split
  · exact Otp.rose_of_eq (by simp)
  · simpa using State.takeLeaf_rose ((s.wr Reg.KEY_ATT_STAT 1).wr Reg.KEY_ATT_TOKENS (s.rd Reg.KEY_ATT_TOKENS - 1))

theorem execAttest_rose (s : State) : s.otp.rose (Outcome.get (execAttest s) s).otp := by
  simp only [execAttest, Outcome.get_next, State.sessRun]
  split
  · exact s.otp.rose_refl
  · rename_i r rec rest _
    split
    · simpa using State.attStart_rose { s with sys.sessQ := rest } r rec
    · exact s.otp.rose_refl

/-- Keys are burnt where none were (R330). -/
theorem execAttKeygen_rose (s : State) : s.otp.rose (Outcome.get (execAttKeygen s) s).otp := by
  unfold execAttKeygen
  split
  · exact s.otp.rose_refl
  · cases slot : s.otp.slot4 <;> cases root : s.otp.attRoot <;> cases puf : s.key.pufKey <;>
      simp [slot, root, puf, Otp.rose]

theorem execFuse_rose (s : State) : s.otp.rose (Outcome.get (execFuse s) s).otp := by
  unfold execFuse
  rw [Outcome.get_next]
  split
  · exact State.otp_rose_of_fusedTo s.fuseCmd_fusedTo
  · exact State.otp_rose_of_fusedTo (s.hostOp_fusedTo .TST _ _ State.fuseCmd_fusedTo)

theorem execTamperEvent_otp (src : BitVec 6) (keyOp : Bool) (s : State) :
    (Outcome.get (execTamperEvent src keyOp s) s).otp = s.otp ∨
      (Outcome.get (execTamperEvent src keyOp s) s).otp = s.otp.blown 0b10000 := by
  unfold execTamperEvent
  dsimp only
  (repeat' split) <;> simp

/-- A key-update message that is not applied leaves OTP; one that is applied has passed its checks (R306). -/
theorem State.kuRun_rose (s : State) (kind : Byte) (f : State → ReplyTo → KuMsg → State)
    (h : ∀ (t : State) r m st, m.kind = kind → t.kuCheck m st = none → t.otp.rose (f t r m).otp) :
    s.otp.rose (s.kuRun kind f).otp := by
  obtain e | ⟨r, m, rest, -, same, ⟨why, e⟩ | ⟨pass, e⟩⟩ := s.kuRun_cases kind f
  · rw [e]; exact s.otp.rose_refl
  · rw [e]; exact Otp.rose_of_eq (by simp)
  · rw [e]; exact h { s with key.msgQ := rest } r m _ same pass

theorem State.applyMove_rose (s : State) (r : ReplyTo) (m : KuMsg) (bits : BitVec 5) (st : KeyStore)
    (pass : s.kuCheck m st = none) : s.otp.rose (s.applyMove r m bits).otp := by
  obtain ⟨-, -, ctr⟩ := State.kuCheck_none pass
  rw [State.applyMove_otp]
  exact Otp.rose_trans (Otp.advanced_rose ctr) (Otp.blown_rose _ _)

theorem State.applyKeys_rose (s : State) (r : ReplyTo) (m : KuMsg) (st : KeyStore)
    (pass : s.kuCheck m st = none) : s.otp.rose (s.applyKeys r m).otp := by
  obtain ⟨-, -, ctr⟩ := State.kuCheck_none pass
  rw [State.applyKeys_otp]
  exact Otp.advanced_rose ctr

/-- What a DEPLOY burns agrees with what is burnt (R285, R306). -/
theorem Otp.owned_rose {a : Otp} {root : Option RootSlot} {m : KuMsg}
    (pub : a.ownerPub = none ∨ a.ownerPub = some m.ownerPub) (set : a.ownerSet = 0 ∨ a.ownerSet = m.ownerSet)
    (slot : a.ownerRoot = none ∨ a.ownerRoot = root) : a.rose (a.owned root m) := by
  simp [Otp.rose, Otp.owned]
  grind

theorem State.applyDeploy_rose (s : State) (r : ReplyTo) (m : KuMsg) (st : KeyStore) (deploy : m.kind = 1)
    (pass : s.kuCheck m st = none) : s.otp.rose (s.applyDeploy r m).otp := by
  obtain ⟨-, owner, ctr⟩ := State.kuCheck_none pass
  obtain ⟨pub, set, slot⟩ := owner deploy
  rw [State.applyDeploy_otp]
  exact Otp.rose_trans (Otp.rose_trans (Otp.owned_rose pub set slot) (Otp.advanced_rose ctr)) (Otp.blown_rose _ _)

/-- Stage 6 advances the anti-rollback field, and completes a transition that was cut off (R307, R321). -/
theorem execStage6FwVerify_otp (v : Verdict) (pufOk slot4Ok : Bool) (s : State) :
    (Outcome.get (execStage6FwVerify v pufOk slot4Ok s) s).otp = s.otp ∨
      ∃ arb, s.otp.arb ≤ arb ∧ ((Outcome.get (execStage6FwVerify v pufOk slot4Ok s) s).otp = { s.otp with arb := arb } ∨
        ∃ b, (Outcome.get (execStage6FwVerify v pufOk slot4Ok s) s).otp = ({ s.otp with arb := arb } : Otp).blown b) := by
  unfold execStage6FwVerify
  split
  · dsimp only
    (repeat' split)
    · simp
    · simp
    · rename_i arb _ b _
      refine .inr ⟨_, Nat.le_of_not_lt arb, .inr ⟨b, by simp⟩⟩
    · rename_i arb _ _
      refine .inr ⟨_, Nat.le_of_not_lt arb, .inl (by simp)⟩
  · simp

/-- Stage 7 leaves OTP, or blows SCRAP (R290). -/
theorem execStage7ConfigApply_otp (v : Verdict) (s : State) :
    ∃ l, (Outcome.get (execStage7ConfigApply v s) s).otp = { s.otp with repairs := s.otp.repairs ++ l } ∨
      (Outcome.get (execStage7ConfigApply v s) s).otp = ({ s.otp with repairs := s.otp.repairs ++ l } : Otp).blown 0b10000 := by
  unfold execStage7ConfigApply
  split
  · obtain ⟨-, l, e⟩ := (s.wr Reg.SYS_BOOT_STAGE 7).applyConfig_fusedTo v
    dsimp only
    split
    · refine ⟨[], ?_⟩
      split <;> simp
    · refine ⟨l, ?_⟩
      split <;> simp [e]
  · exact ⟨[], by simp⟩


theorem Otp.repaired_rose (a : Otp) (l : List Repair) : a.rose { a with repairs := a.repairs ++ l } := by
  simp [Otp.rose]

/-- The commands that may burn OTP each burn it upwards; every other leaves it as it was. -/
theorem exec_otp_rises (c : Instr) (s t : State) (h : exec c s = .next t) : s.otp.rose t.otp := by
  have answer : Outcome.get (exec c s) s = t := by rw [h, Outcome.get_next]
  have kept : decide (Part.otp ∉ touches c) = true → t.otp = s.otp := fun outside =>
    (exec_keeps c s t h).1 .otp (of_decide_eq_true outside)
  subst answer
  cases c with
  | regWrite addr v => exact State.otp_rose_of_fusedTo (s.hostWrite_fusedTo addr.toNat v.toNat)
  | stage6FwVerify v pufOk slot4Ok =>
    obtain e | ⟨arb, up, e | ⟨b, e⟩⟩ := execStage6FwVerify_otp v pufOk slot4Ok s
    · exact Otp.rose_of_eq e
    · simp [exec, e, Otp.rose, up]
    · have raised : s.otp.rose { s.otp with arb := arb } := by simp [Otp.rose, up]
      rw [exec, e]
      exact Otp.rose_trans raised (Otp.blown_rose _ b)
  | stage7ConfigApply v =>
    obtain ⟨l, e | e⟩ := execStage7ConfigApply_otp v s
    · rw [exec, e]; exact s.otp.repaired_rose l
    · rw [exec, e]; exact Otp.rose_trans (s.otp.repaired_rose l) (Otp.blown_rose _ _)
  | attKeygen => exact execAttKeygen_rose s
  | attest => exact execAttest_rose s
  | fuse => exact execFuse_rose s
  | kuDeploy => exact s.kuRun_rose 1 _ (fun t r m st kind pass => t.applyDeploy_rose r m st kind pass)
  | kuKeys => exact s.kuRun_rose 2 _ (fun t r m st _ pass => t.applyKeys_rose r m st pass)
  | kuRmaAuth => exact s.kuRun_rose 3 _ (fun t r m st _ pass => t.applyMove_rose r m _ st pass)
  | kuScrap => exact s.kuRun_rose 4 _ (fun t r m st _ pass => t.applyMove_rose r m _ st pass)
  | tamperEvent src keyOp =>
    obtain e | e := execTamperEvent_otp src keyOp s
    · exact Otp.rose_of_eq e
    · rw [exec, e]; exact s.otp.blown_rose _
  | _ => exact Otp.rose_of_eq (kept rfl)

/-- Settles O6: a step is the clock's, which leaves OTP, or a command's. -/
theorem otpOnlyRises : Obligations.OtpOnlyRises := by
  intro s t h
  obtain ⟨-, rfl⟩ | ⟨c, rest, -, ran⟩ := step_cases h
  · exact Otp.rose_of_eq (by simp)
  · exact exec_otp_rises c { s with pending := rest } t ran

end Sys2Proof.Machine

/-!
PROOF. The canonical form of the NVM bytes (O8, R67, R68): what each command leaves of them, or programs.
-/

namespace Sys2Proof.Machine

/-! ### The NVM bytes that operations leave -/

@[simp] theorem State.takeFc_bytes (s : State) : s.takeFc.2.nvm.bytes = s.nvm.bytes := by
  unfold State.takeFc
  dsimp only
  split_ifs <;> simp

@[simp] theorem State.eraseCopies_bytes (s : State) : s.eraseCopies.nvm.bytes = s.nvm.bytes := rfl

@[simp] theorem State.transition_bytes (s : State) (bits : BitVec 5) : (s.transition bits).nvm.bytes = s.nvm.bytes := by
  simp [State.transition]

@[simp] theorem State.applyDeploy_bytes (s : State) (r : ReplyTo) (m : KuMsg) :
    (s.applyDeploy r m).nvm.bytes = s.nvm.bytes := by
  simp [State.applyDeploy]

@[simp] theorem State.applyKeys_bytes (s : State) (r : ReplyTo) (m : KuMsg) :
    (s.applyKeys r m).nvm.bytes = s.nvm.bytes := by
  unfold State.applyKeys
  dsimp only
  split <;> simp

@[simp] theorem State.applyMove_bytes (s : State) (r : ReplyTo) (m : KuMsg) (bits : BitVec 5) :
    (s.applyMove r m bits).nvm.bytes = s.nvm.bytes := by
  simp [State.applyMove]

theorem State.kuRun_bytes (s : State) (kind : Byte) (f : State → ReplyTo → KuMsg → State)
    (h : ∀ t r m, (f t r m).nvm.bytes = t.nvm.bytes) : (s.kuRun kind f).nvm.bytes = s.nvm.bytes := by
  obtain e | ⟨r, m, rest, -, -, ⟨why, e⟩ | ⟨-, e⟩⟩ := s.kuRun_cases kind f
  · rw [e]
  · simp [e]
  · rw [e, h]

@[simp] theorem State.takeLeaf_bytes (s : State) : s.takeLeaf.2.nvm.bytes = s.nvm.bytes := by
  unfold State.takeLeaf
  dsimp only
  split_ifs <;> simp

@[simp] theorem State.attStart_bytes (s : State) (r : ReplyTo) (rec : SessRec) :
    (s.attStart r rec).nvm.bytes = s.nvm.bytes := by
  unfold State.attStart
  split <;> simp

@[simp] theorem State.logRepair_bytes (s : State) (kind src mac index : Nat) :
    (s.logRepair kind src mac index).nvm.bytes = s.nvm.bytes := by
  unfold State.logRepair
  split_ifs <;> simp [State.logFull]

@[simp] theorem State.logRepairs_bytes (s : State) (l : List Repair) : (s.logRepairs l).nvm.bytes = s.nvm.bytes :=
  foldl_keeps (fun t : State => t.nvm.bytes) _ l s (fun t _ => t.logRepair_bytes ..)

@[simp] theorem State.logUnrep_bytes (s : State) (f : MacroFault) (src : Nat) :
    (s.logUnrep f src).nvm.bytes = s.nvm.bytes :=
  foldl_keeps (fun t : State => t.nvm.bytes) _ _ s (fun t _ => t.logRepair_bytes ..)

@[simp] theorem State.logFault_bytes (s : State) (isl cause : Nat) : (s.logFault isl cause).nvm.bytes = s.nvm.bytes := by
  unfold State.logFault
  split_ifs <;> simp [State.logFull]

@[simp] theorem State.islandFault_bytes (s : State) (isl : Isl) (cause : Nat) :
    (s.islandFault isl cause).nvm.bytes = s.nvm.bytes := by
  unfold State.islandFault
  dsimp only
  (repeat' split) <;> simp

@[simp] theorem State.hostOp_bytes (s : State) (isl : Isl) (f : State → State) (n : Nat)
    (h : ∀ t, (f t).nvm.bytes = t.nvm.bytes) : (s.hostOp isl f n).nvm.bytes = s.nvm.bytes := by
  have gate : (s.hostGate isl n).2.nvm = s.nvm := by simp
  unfold State.hostOp
  dsimp only
  split
  · rw [h, gate]
  · rw [gate]

@[simp] theorem State.bistMem_bytes (s : State) (g : BitVec 4) (faults : List MacroFault) :
    (s.bistMem g faults).nvm.bytes = s.nvm.bytes := by
  have one (t : State) (f : MacroFault) : (if t.mends f then (t.mapRepairs (t.needs f 3)).logRepairs (t.needs f 3)
      else t.logUnrep f 3).nvm.bytes = t.nvm.bytes := by
    split <;> simp
  have all := foldl_keeps (fun t : State => t.nvm.bytes) _ (faultsIn (bistGrps g) faults) s one
  simpa [State.bistMem] using all

theorem execBistMemory_bytes (grps : BitVec 4) (faults : List MacroFault) (s : State) :
    (Outcome.get (execBistMemory grps faults s) s).nvm.bytes = s.nvm.bytes := by
  simp only [execBistMemory, Outcome.get_next, State.bistHalt]
  split_ifs <;> simp

theorem execPercSlice_bytes (faults : List MacroFault) (hurt : List Upset) (s : State) :
    (Outcome.get (execPercSlice faults hurt s) s).nvm.bytes = s.nvm.bytes := by
  have unrep (l : List MacroFault) (t : State) : (l.foldl (fun s f => s.logUnrep f 2) t).nvm.bytes = t.nvm.bytes :=
    foldl_keeps (fun t : State => t.nvm.bytes) _ l t (fun t f => t.logUnrep_bytes f 2)
  unfold execPercSlice
  dsimp only
  split_ifs <;> simp [unrep]

theorem execKeySecure_bytes (s : State) : (Outcome.get (execKeySecure s) s).nvm.bytes = s.nvm.bytes := by
  unfold execKeySecure
  dsimp only
  (repeat' split) <;> simp

theorem execAttest_bytes (s : State) : (Outcome.get (execAttest s) s).nvm.bytes = s.nvm.bytes := by
  simp only [execAttest, Outcome.get_next, State.sessRun]
  (repeat' split) <;> simp

theorem execAttKeygen_bytes (s : State) : (Outcome.get (execAttKeygen s) s).nvm.bytes = s.nvm.bytes := by
  unfold execAttKeygen
  dsimp only
  (repeat' split) <;> simp

theorem execAttCacheRebuildDone_bytes (s : State) :
    (Outcome.get (execAttCacheRebuildDone s) s).nvm.bytes = s.nvm.bytes := by
  unfold execAttCacheRebuildDone
  split <;> simp

theorem execTamperEvent_bytes (src : BitVec 6) (keyOp : Bool) (s : State) :
    (Outcome.get (execTamperEvent src keyOp s) s).nvm.bytes = s.nvm.bytes := by
  unfold execTamperEvent
  dsimp only
  split_ifs <;> simp

theorem execFabTagCheckFail_bytes (rcv snd : Isl) (tag : Word64) (s : State) :
    (Outcome.get (execFabTagCheckFail rcv snd tag s) s).nvm.bytes = s.nvm.bytes := by
  unfold execFabTagCheckFail
  dsimp only
  (repeat' split) <;> simp

theorem execStage4NvmProbe_bytes (probeOk : Bool) (s : State) :
    (Outcome.get (execStage4NvmProbe probeOk s) s).nvm.bytes = s.nvm.bytes := by
  unfold execStage4NvmProbe
  dsimp only
  split_ifs <;> simp

theorem execStage6FwVerify_bytes (v : Verdict) (pufOk slot4Ok : Bool) (s : State) :
    (Outcome.get (execStage6FwVerify v pufOk slot4Ok s) s).nvm.bytes = s.nvm.bytes := by
  unfold execStage6FwVerify
  dsimp only
  (repeat' split) <;> simp

@[simp] theorem State.resumeFc_bytes (s : State) : s.resumeFc.nvm.bytes = s.nvm.bytes := by
  unfold State.resumeFc
  dsimp only
  (repeat' split) <;> simp

@[simp] theorem State.pickSource_bytes (s : State) : s.pickSource.2.nvm.bytes = s.nvm.bytes := by
  unfold State.pickSource
  (repeat' split) <;> simp

@[simp] theorem State.loadKeys_bytes (s : State) : s.loadKeys.nvm.bytes = s.nvm.bytes := by
  unfold State.loadKeys
  dsimp only
  split_ifs <;> simp

theorem execStage7ConfigApply_bytes (v : Verdict) (s : State) :
    (Outcome.get (execStage7ConfigApply v s) s).nvm.bytes = s.nvm.bytes := by
  have config (t : State) : (t.applyConfig v).nvm.bytes = t.nvm.bytes := (t.applyConfig_fusedTo v).1
  unfold execStage7ConfigApply
  dsimp only
  split_ifs <;> simp [config]

/-! ### The canonical form of the NVM bytes (R68) -/

theorem State.nvmOk_of_bytes {s t : State} (h : t.nvm.bytes = s.nvm.bytes) (ok : s.nvmOk = true) : t.nvmOk = true := by
  rwa [State.nvmOk, h]

theorem State.setStg_nvmOk (s : State) (v : BitVec 8) (ok : s.nvmOk = true) : (s.setStg v).nvmOk = true :=
  nvmProg_wf _ _ _ ok

theorem copySector_wf (dst len : Nat) (m : List Host.Cell) (k : Nat) (h : Memory.wf m = true) :
    Memory.wf (copySector dst len m k) = true :=
  List.foldlRecOn _ _ (motive := fun m => Memory.wf m = true) (nvmErase_wf m _ _ h) (fun m hm c _ => nvmProg_wf m _ _ hm)

theorem copySectors_wf (fmt dst len : Nat) (l : List Nat) (m : List Host.Cell) (h : Memory.wf m = true) :
    Memory.wf (copySectors fmt dst len m l).2 = true := by
  induction l generalizing m with
  | nil => exact h
  | cons k l ih =>
    have copied := copySector_wf dst len m k h
    rw [copySectors]
    split
    · exact copied
    · exact ih _ (nvmProgs_wf _ _ _ copied)

theorem State.copyImage_nvmOk (s : State) (ok : s.nvmOk = true) : s.copyImage.nvmOk = true := by
  have begun := s.setStg_nvmOk 0x1F ok
  unfold State.copyImage
  dsimp only
  generalize (if s.imgKind stagingBase = 1 then fwBase else cfgBase) = dst
  generalize run : copySectors _ dst _ _ _ = r
  have copied : State.nvmOk { s.setStg 0x1F with nvm.bytes := r.2 } = true := run ▸ copySectors_wf _ _ _ _ _ begun
  split
  · exact State.nvmOk_of_bytes (by simp) (State.setStg_nvmOk _ 0x0F copied)
  · exact copied

theorem execStage5StagingCopy_nvmOk (v : Verdict) (s : State) (ok : s.nvmOk = true) :
    (Outcome.get (execStage5StagingCopy v s) s).nvmOk = true := by
  have staged : (s.wr Reg.SYS_BOOT_STAGE 5).nvmOk = true := State.nvmOk_of_bytes (by simp) ok
  unfold execStage5StagingCopy
  split
  · dsimp only
    split
    · exact staged
    · generalize shown : (if (s.wr Reg.SYS_BOOT_STAGE 5).imgFormat stagingBase then _ else s.wr Reg.SYS_BOOT_STAGE 5) = u
      have checked : u.nvmOk = true := State.nvmOk_of_bytes (by rw [← shown]; simp) staged
      split
      · exact State.nvmOk_of_bytes (by simp) (u.setStg_nvmOk 0x07 checked)
      · exact u.copyImage_nvmOk checked
  · exact ok

theorem State.openHeader_nvmOk (s : State) (ok : s.nvmOk = true) : s.openHeader.nvmOk = true := by
  unfold State.openHeader
  apply State.setStg_nvmOk
  split
  · exact ok
  · exact nvmProgs_wf _ _ _ (nvmErase_wf _ _ _ ok)

theorem State.sessOpen_nvmOk (s : State) (r : ReplyTo) (rec : SessRec) (ok : s.nvmOk = true) :
    (s.sessOpen r rec).nvmOk = true := by
  unfold State.sessOpen
  dsimp only
  (repeat' split)
  · exact State.nvmOk_of_bytes (by simp) ok
  · exact State.nvmOk_of_bytes (by simp) ok
  · exact State.nvmOk_of_bytes (by simp) ok
  · exact State.nvmOk_of_bytes (by simp) (s.openHeader_nvmOk ok)

theorem State.sessData_nvmOk (s : State) (readBackOk : Bool) (r : ReplyTo) (rec : SessRec) (ok : s.nvmOk = true) :
    (s.sessData readBackOk r rec).nvmOk = true := by
  have erased (b a : Nat) : Memory.wf (if b % 16 = 0 then nvmErase s.nvm.bytes a 0x10000 else s.nvm.bytes) = true := by
    split
    · exact nvmErase_wf _ _ _ ok
    · exact ok
  have programmed (b a : Nat) (l : List Byte) (x : Option Sess) : State.nvmOk { s with
      nvm.bytes := nvmProgs (if b % 16 = 0 then nvmErase s.nvm.bytes a 0x10000 else s.nvm.bytes) a l, sys.sess := x } = true :=
    nvmProgs_wf l _ a (erased b a)
  unfold State.sessData
  split
  · exact State.nvmOk_of_bytes (by simp) ok
  · dsimp only
    (split; · exact State.nvmOk_of_bytes (by simp) ok)
    (split; · exact State.nvmOk_of_bytes (by simp) ok)
    (split; · exact State.nvmOk_of_bytes (by simp) ok)
    (split; · exact State.nvmOk_of_bytes (by simp) ok)
    split
    · rename_i x _ _ _ _ _ _
      exact State.nvmOk_of_bytes (by simp) (programmed rec.block (stagingBase + 4096 * rec.block) rec.data x)
    · exact State.nvmOk_of_bytes (by simp) (programmed rec.block (stagingBase + 4096 * rec.block)
        (leBytes rec.blen (s.freeVal (8 * rec.blen))) s.sys.sess)

theorem State.sessCommit_nvmOk (s : State) (r : ReplyTo) (rec : SessRec) (ok : s.nvmOk = true) :
    (s.sessCommit r rec).nvmOk = true := by
  unfold State.sessCommit
  (repeat' split)
  · exact State.nvmOk_of_bytes (by simp) ok
  · exact State.nvmOk_of_bytes (by simp) ok
  · exact State.nvmOk_of_bytes (by simp) ok
  · exact State.nvmOk_of_bytes (by simp) (s.setStg_nvmOk 0x3F ok)

theorem State.sessRun_nvmOk (s : State) (op : Byte) (f : State → ReplyTo → SessRec → State)
    (h : ∀ (t : State) r rec, t.nvmOk = true → (f t r rec).nvmOk = true) (ok : s.nvmOk = true) : (s.sessRun op f).nvmOk = true := by
  unfold State.sessRun
  split
  · exact ok
  · rename_i r rec rest _
    split
    · exact State.nvmOk_of_bytes (by simp) (h { s with sys.sessQ := rest } r rec ok)
    · exact ok


/-- Four commands program the NVM, each through `nvmProg` and `nvmErase`; every other leaves its bytes. -/
theorem exec_nvmOk (c : Instr) (s t : State) (h : exec c s = .next t) (ok : s.nvmOk = true) : t.nvmOk = true := by
  have answer : Outcome.get (exec c s) s = t := by rw [h, Outcome.get_next]
  have kept : decide (Part.nvm ∉ touches c) = true → t.nvm = s.nvm := fun outside =>
    (exec_keeps c s t h).1 .nvm (of_decide_eq_true outside)
  have same : t.nvm.bytes = s.nvm.bytes → t.nvmOk = true := fun bytes => State.nvmOk_of_bytes bytes ok
  subst answer
  cases c with
  | stage5StagingCopy v => exact execStage5StagingCopy_nvmOk v s ok
  | sessionOpen => exact s.sessRun_nvmOk 1 _ (fun t r rec => t.sessOpen_nvmOk r rec) ok
  | sessionData readBackOk => exact s.sessRun_nvmOk 2 _ (fun t r rec => t.sessData_nvmOk readBackOk r rec) ok
  | sessionCommit => exact s.sessRun_nvmOk 3 _ (fun t r rec => t.sessCommit_nvmOk r rec) ok
  | regWrite addr v => exact same (s.hostWrite_fusedTo addr.toNat v.toNat).1
  | handshakeTimeout isl => exact same (by simp only [exec, execHandshakeTimeout]; split <;> simp)
  | fabTagCheckFail rcv snd tag => exact same (execFabTagCheckFail_bytes rcv snd tag s)
  | islandStateParity isl => exact same (s.islandFault_bytes isl 1)
  | spineTapError isl => exact same (by simp only [exec, execSpineTapError]; split <;> simp)
  | carafeDoubleError cell mem => exact same (by simp only [exec, execCarafeDoubleError]; split <;> simp)
  | stage4NvmProbe probeOk => exact same (execStage4NvmProbe_bytes probeOk s)
  | stage6FwVerify v pufOk slot4Ok => exact same (execStage6FwVerify_bytes v pufOk slot4Ok s)
  | stage7ConfigApply v => exact same (execStage7ConfigApply_bytes v s)
  | attKeygen => exact same (execAttKeygen_bytes s)
  | attCacheRebuildDone => exact same (execAttCacheRebuildDone_bytes s)
  | attest => exact same (execAttest_bytes s)
  | keySecure => exact same (execKeySecure_bytes s)
  | epochCmd => exact same (s.hostOp_bytes .KEY _ _ State.epochCmd_bytes)
  | kuDeploy => exact same (s.kuRun_bytes 1 _ State.applyDeploy_bytes)
  | kuKeys => exact same (s.kuRun_bytes 2 _ State.applyKeys_bytes)
  | kuRmaAuth => exact same (s.kuRun_bytes 3 _ (fun t r m => t.applyMove_bytes r m _))
  | kuScrap => exact same (s.kuRun_bytes 4 _ (fun t r m => t.applyMove_bytes r m _))
  | tamperEvent src keyOp => exact same (execTamperEvent_bytes src keyOp s)
  | bistMemory grps faults => exact same (execBistMemory_bytes grps faults s)
  | percSlice faults hurt => exact same (execPercSlice_bytes faults hurt s)
  | _ => exact same (by rw [kept rfl])

/-- Settles O8: the clock leaves the NVM, and every command keeps the canonical form of its bytes. -/
theorem nvmStaysCanonical : Obligations.NvmStaysCanonical := by
  intro s t ok h
  obtain ⟨-, rfl⟩ | ⟨c, rest, -, ran⟩ := step_cases h
  · exact State.nvmOk_of_bytes (by simp) ok
  · exact exec_nvmOk c { s with pending := rest } t ran ok

end Sys2Proof.Machine

/-!
PROOF. The changes of the life-cycle words (O9, R283, R290, R307).
-/

namespace Sys2Proof.Machine

/-! ### Changes of the life-cycle words -/

/-- The three copies of the life-cycle word are as they were. -/
def Otp.sameLc (a b : Otp) : Prop := b.lc0 = a.lc0 ∧ b.lc1 = a.lc1 ∧ b.lc2 = a.lc2

theorem Otp.sameLc_of_eq {a b : Otp} (h : b = a) : a.sameLc b := by simp [h, Otp.sameLc]

theorem Otp.sameLc_advanced (a : Otp) (lc : BitVec 3) (ctr : Nat) : a.sameLc (a.advanced lc ctr) := by
  unfold Otp.advanced
  split <;> simp [Otp.sameLc]

theorem State.sameLc_of_fusedTo {s t : State} (h : s.fusedTo t) : s.otp.sameLc t.otp := by
  obtain ⟨-, l, e⟩ := h
  simp [e, Otp.sameLc]

theorem State.internalReset_cause (s : State) (cause : Nat) (hold : Hold) :
    (s.internalReset cause hold).rd Reg.SYS_RST_CAUSE = cause % 8 :=
  State.rd_wr_same _ Reg.SYS_RST_CAUSE cause

/-- A transition shows itself as RST_CAUSE 6 (R283). -/
theorem State.transition_cause (s : State) (bits : BitVec 5) : (s.transition bits).rd Reg.SYS_RST_CAUSE = 6 :=
  State.internalReset_cause _ 6 _

theorem State.applyDeploy_cause (s : State) (r : ReplyTo) (m : KuMsg) : (s.applyDeploy r m).rd Reg.SYS_RST_CAUSE = 6 :=
  State.internalReset_cause _ 6 _

theorem State.applyMove_cause (s : State) (r : ReplyTo) (m : KuMsg) (bits : BitVec 5) :
    (s.applyMove r m bits).rd Reg.SYS_RST_CAUSE = 6 :=
  State.transition_cause _ bits

/-- A key-update message whose effect ends in RST_CAUSE 6 changes the words only so. -/
theorem State.kuRun_sameLc (s : State) (kind : Byte) (f : State → ReplyTo → KuMsg → State)
    (h : ∀ t r m, (f t r m).rd Reg.SYS_RST_CAUSE = 6) :
    s.otp.sameLc (s.kuRun kind f).otp ∨ (s.kuRun kind f).rd Reg.SYS_RST_CAUSE = 6 := by
  obtain e | ⟨r, m, rest, -, -, ⟨why, e⟩ | ⟨-, e⟩⟩ := s.kuRun_cases kind f
  · exact .inl (Otp.sameLc_of_eq (by rw [e]))
  · exact .inl (Otp.sameLc_of_eq (by simp [e]))
  · exact .inr (by rw [e, h])

theorem execKuKeys_sameLc (s : State) : s.otp.sameLc (s.kuRun 2 State.applyKeys).otp := by
  obtain e | ⟨r, m, rest, -, -, ⟨why, e⟩ | ⟨-, e⟩⟩ := s.kuRun_cases 2 State.applyKeys
  · exact Otp.sameLc_of_eq (by rw [e])
  · exact Otp.sameLc_of_eq (by rw [e]; simp)
  · rw [e, State.applyKeys_otp]
    exact Otp.sameLc_advanced ..

theorem execAttest_sameLc (s : State) : s.otp.sameLc (Outcome.get (execAttest s) s).otp := by
  simp only [execAttest, Outcome.get_next, State.sessRun, State.attStart, State.takeLeaf]
  (repeat' split) <;> simp [Otp.sameLc]

theorem execAttKeygen_sameLc (s : State) : s.otp.sameLc (Outcome.get (execAttKeygen s) s).otp := by
  unfold execAttKeygen
  dsimp only
  (repeat' split) <;> simp [Otp.sameLc]

theorem execFuse_sameLc (s : State) : s.otp.sameLc (Outcome.get (execFuse s) s).otp := by
  unfold execFuse
  rw [Outcome.get_next]
  split
  · exact State.sameLc_of_fusedTo s.fuseCmd_fusedTo
  · exact State.sameLc_of_fusedTo (s.hostOp_fusedTo .TST _ _ State.fuseCmd_fusedTo)

theorem execTamperEvent_sameLc (src : BitVec 6) (keyOp : Bool) (s : State) :
    s.otp.sameLc (Outcome.get (execTamperEvent src keyOp s) s).otp ∨
      (Outcome.get (execTamperEvent src keyOp s) s).rd Reg.SYS_RST_CAUSE = 6 := by
  unfold execTamperEvent
  dsimp only
  generalize src &&& BitVec.ofNat 6 (s.rd Reg.KEY_TAMPER_EN) &&& (if s.sys.hold = .porst then 3 else 0x3F) = m
  (split; · exact .inl (Otp.sameLc_of_eq (by simp)))
  (split; · exact .inl (Otp.sameLc_of_eq (by simp)))
  (split; · exact .inl (Otp.sameLc_of_eq (by simp)))
  (split; · exact .inl (Otp.sameLc_of_eq (by simp)))
  rw [Outcome.get_next]
  generalize aborted : (if keyOp = true then _ else _) = u
  have words : u.otp = s.otp := by rw [← aborted]; split <;> simp
  split
  · exact .inr (State.transition_cause _ _)
  · exact .inl (Otp.sameLc_of_eq (by simpa using words))

theorem execStage6FwVerify_sameLc (v : Verdict) (pufOk slot4Ok : Bool) (s : State) :
    s.otp.sameLc (Outcome.get (execStage6FwVerify v pufOk slot4Ok s) s).otp ∨
      (Outcome.get (execStage6FwVerify v pufOk slot4Ok s) s).rd Reg.SYS_RST_CAUSE = 6 := by
  unfold execStage6FwVerify
  dsimp only
  split
  · (repeat' split)
    · exact .inl (Otp.sameLc_of_eq (by simp))
    · exact .inl (Otp.sameLc_of_eq (by simp))
    · exact .inr (State.transition_cause _ _)
    · exact .inl (by simp [Otp.sameLc])
  · exact .inl (Otp.sameLc_of_eq rfl)

theorem execStage7ConfigApply_sameLc (v : Verdict) (s : State) :
    s.otp.sameLc (Outcome.get (execStage7ConfigApply v s) s).otp ∨
      (Outcome.get (execStage7ConfigApply v s) s).rd Reg.SYS_RST_CAUSE = 6 := by
  obtain config := State.sameLc_of_fusedTo ((s.wr Reg.SYS_BOOT_STAGE 7).applyConfig_fusedTo v)
  unfold execStage7ConfigApply
  dsimp only
  split
  · generalize applied : (if (s.wr Reg.SYS_BOOT_STAGE 7).rd Reg.KEY_KSTATE = 4 then s.wr Reg.SYS_BOOT_STAGE 7 else _) = u
    have words : s.otp.sameLc u.otp := by
      rw [← applied]
      split
      · exact Otp.sameLc_of_eq (by simp)
      · simpa using config
    split
    · exact .inr (State.transition_cause _ _)
    · exact .inl (by simpa using words)
  · exact .inl (Otp.sameLc_of_eq rfl)

/-- A command that changes the life-cycle words is one of those that end in RST_CAUSE 6. -/
theorem exec_sameLc (c : Instr) (s t : State) (h : exec c s = .next t) :
    s.otp.sameLc t.otp ∨ ((c = .kuDeploy ∨ c = .kuRmaAuth ∨ c = .kuScrap ∨ (∃ src kop, c = .tamperEvent src kop) ∨
      (∃ v p k, c = .stage6FwVerify v p k) ∨ ∃ v, c = .stage7ConfigApply v) ∧ t.rd Reg.SYS_RST_CAUSE = 6) := by
  have answer : Outcome.get (exec c s) s = t := by rw [h, Outcome.get_next]
  have kept : decide (Part.otp ∉ touches c) = true → t.otp = s.otp := fun outside =>
    (exec_keeps c s t h).1 .otp (of_decide_eq_true outside)
  subst answer
  cases c with
  | regWrite addr v => exact .inl (State.sameLc_of_fusedTo (s.hostWrite_fusedTo addr.toNat v.toNat))
  | fuse => exact .inl (execFuse_sameLc s)
  | attest => exact .inl (execAttest_sameLc s)
  | attKeygen => exact .inl (execAttKeygen_sameLc s)
  | kuKeys => exact .inl (execKuKeys_sameLc s)
  | kuDeploy => exact (s.kuRun_sameLc 1 _ State.applyDeploy_cause).imp_right (⟨by simp, ·⟩)
  | kuRmaAuth => exact (s.kuRun_sameLc 3 _ (fun t r m => t.applyMove_cause r m _)).imp_right (⟨by simp, ·⟩)
  | kuScrap => exact (s.kuRun_sameLc 4 _ (fun t r m => t.applyMove_cause r m _)).imp_right (⟨by simp, ·⟩)
  | tamperEvent src keyOp => exact (execTamperEvent_sameLc src keyOp s).imp_right (⟨by simp, ·⟩)
  | stage6FwVerify v p k => exact (execStage6FwVerify_sameLc v p k s).imp_right (⟨by simp, ·⟩)
  | stage7ConfigApply v => exact (execStage7ConfigApply_sameLc v s).imp_right (⟨by simp, ·⟩)
  | _ => exact .inl (Otp.sameLc_of_eq (kept rfl))

/-- Settles O9: the words are blown in a transition or a DEPLOY alone, whose last act is the reset. -/
theorem lifeCycleChanges : Obligations.LifeCycleChanges := by
  intro c s t h changed
  refine (exec_sameLc c s t h).resolve_left ?_
  rintro ⟨e0, e1, e2⟩
  simp [e0, e1, e2] at changed

end Sys2Proof.Machine

/-!
PROOF. The clock of an idle step (O3, R339, R340).
-/

namespace Sys2Proof.Machine

theorem step_idle (s : State) (h : s.pending = []) : step s = .next s.clock := by simp [step, h]

theorem State.clock_held (s : State) (h : s.sys.hold ≠ .none) : s.clock = s := by simp [State.clock, h]

theorem State.clock_unset (s : State) (h : s.sys.hold = .none) (run : s.sys.meshRun = false) :
    s.clock = { s with sys.uptime := s.sys.uptime + 1 } := by
  simp [State.clock, h, run]

/-- One period adds to the accumulator without loss: what it carries goes to the nanoseconds. -/
theorem carry_exact {ns frac : Nat} {rate : Int} (hf : frac < 2 ^ 40) (hn : ns + 16 < 2 ^ 64) (lo : -(2 ^ 31) ≤ rate)
    (hi : rate < 2 ^ 31) :
    let acc := (frac : Int) + 8 * (2 ^ 40 + rate)
    (acc % 2 ^ 40).toNat < 2 ^ 40 ∧
      (((ns + (acc / 2 ^ 40).toNat) % 2 ^ 64 : Nat) : Int) * 2 ^ 40 + ((acc % 2 ^ 40).toNat : Int) =
        ns * 2 ^ 40 + frac + 8 * (2 ^ 40 + rate) := by
  intro acc
  have few : 0 ≤ acc / 2 ^ 40 ∧ acc / 2 ^ 40 < 16 := by omega
  have whole : (ns + (acc / 2 ^ 40).toNat) % 2 ^ 64 = ns + (acc / 2 ^ 40).toNat := Nat.mod_eq_of_lt (by omega)
  rw [whole]
  omega

/-- Settles O3: the clock is held, or counts uptime, or counts the time base too with its carry exact. -/
theorem idleTick : Obligations.IdleTick := by
  intro s idle
  rw [step_idle s idle]
  refine ⟨fun held => by rw [s.clock_held held], fun free run => by rw [s.clock_unset free run], ?_⟩
  intro free run hf hn lo hi
  obtain ⟨below, sum⟩ := carry_exact hf hn lo hi
  refine ⟨_, rfl, ?_⟩
  simp only [State.clock, free, run, if_true]
  exact ⟨trivial, below, sum⟩

end Sys2Proof.Machine

/-!
PROOF. The register file as a map of fields: each operation's registers as reads and writes of fields, so that the frame
lemmas for `regs` and the equations here compute what a field reads after a chain of operations.
-/

namespace Sys2Proof.Machine

/-- What a field reads in a register file. -/
def Fld.get (f : Fld) (r : List (Nat × Nat)) (i b : Nat) : Nat := (mget r (f.key i b)).getD f.rst

/-- A register file with a field set. -/
def Fld.put (f : Fld) (r : List (Nat × Nat)) (i b v : Nat) : List (Nat × Nat) :=
  mset r (f.key i b) (if v % 2 ^ f.width = f.rst then none else some (v % 2 ^ f.width))

@[simp] theorem Fld.get_put_same (f : Fld) (r : List (Nat × Nat)) (i b v : Nat) :
    f.get (f.put r i b v) i b = v % 2 ^ f.width := by
  unfold Fld.get Fld.put
  rw [mget_mset_same]
  split
  · rename_i h; simp [h]
  · rfl

theorem Fld.get_put_of_ne {f g : Fld} {i b j c : Nat} (h : g.key j c ≠ f.key i b) (r : List (Nat × Nat)) (v : Nat) :
    g.get (f.put r i b v) j c = g.get r j c := by
  unfold Fld.get Fld.put
  rw [mget_mset_other _ _ _ _ h]

/-- Fields of different places do not meet in any bank. -/
@[simp] theorem Fld.get_put_place {f g : Fld} (h : g.place ≠ f.place) (r : List (Nat × Nat)) (b c v : Nat) :
    g.get (f.put r 0 b v) 0 c = g.get r 0 c :=
  Fld.get_put_of_ne (Fld.key_ne_of_place h b c) r v

/-! ### Reads -/

@[simp] theorem State.rdB_get (s : State) (f : Fld) (i b : Nat) : s.rdB f i b = f.get s.regs i b := (rfl)
@[simp] theorem State.rdI_get (s : State) (f : Fld) (i : Nat) : s.rdI f i = f.get s.regs i 0 := (rfl)
@[simp] theorem State.rd_get (s : State) (f : Fld) : s.rd f = f.get s.regs 0 0 := (rfl)
@[simp] theorem State.on_get (s : State) (f : Fld) : s.on f = decide (f.get s.regs 0 0 = 1) := (rfl)

/-- A signed field depends on the register file alone. -/
theorem State.rdS_congr {s t : State} {f : Fld} (h : f.get t.regs 0 0 = f.get s.regs 0 0) : t.rdS f = s.rdS f := by
  have h' : t.rd f = s.rd f := h
  simp only [State.rdS, h']

/-! ### Writes -/

@[simp] theorem State.wrB_regs (s : State) (f : Fld) (i b v : Nat) : (s.wrB f i b v).regs = f.put s.regs i b v := rfl
@[simp] theorem State.wrI_regs (s : State) (f : Fld) (i v : Nat) : (s.wrI f i v).regs = f.put s.regs i 0 v := rfl
@[simp] theorem State.wr_regs (s : State) (f : Fld) (v : Nat) : (s.wr f v).regs = f.put s.regs 0 0 v := rfl

@[simp] theorem State.bumpN_regs (s : State) (f : Fld) (n : Nat) :
    (s.bumpN f n).regs = f.put s.regs 0 0 (min (f.get s.regs 0 0 + n) (2 ^ f.width - 1)) := rfl

@[simp] theorem State.bump_regs (s : State) (f : Fld) :
    (s.bump f).regs = f.put s.regs 0 0 (min (f.get s.regs 0 0 + 1) (2 ^ f.width - 1)) := rfl

@[simp] theorem State.bumpI_regs (s : State) (f : Fld) (i : Nat) :
    (s.bumpI f i).regs = f.put s.regs i 0 (min (f.get s.regs i 0 + 1) (2 ^ f.width - 1)) := rfl

@[simp] theorem State.wrap_regs (s : State) (f : Fld) : (s.wrap f).regs = f.put s.regs 0 0 (f.get s.regs 0 0 + 1) := rfl

@[simp] theorem State.wrapN_regs (s : State) (f : Fld) (n : Nat) :
    (s.wrapN f n).regs = f.put s.regs 0 0 (f.get s.regs 0 0 + n) := rfl

/-- A saturated count is in the range of its field. -/
@[simp] theorem saturated_mod (n w : Nat) : min n (2 ^ w - 1) % 2 ^ w = min n (2 ^ w - 1) :=
  Nat.mod_eq_of_lt (by have := Nat.two_pow_pos w; omega)

/-- An event sets its own field or none. -/
theorem State.ev_regs (s : State) (f : Fld) (b base : Nat) :
    (s.ev f b base).regs = if (f.get s.regs 0 0).testBit b then s.regs else f.put s.regs 0 0 (f.get s.regs 0 0 + 2 ^ b) := by
  unfold State.ev
  split
  · exact (if_pos ‹_›).symm
  · exact (if_neg ‹_›).symm

/-- An event bit is set after its event (R433). -/
theorem State.ev_testBit (s : State) {f : Fld} {b : Nat} (base : Nat) (h : b < f.width) :
    (f.get (s.ev f b base).regs 0 0).testBit b = true :=
  State.ev_sets s f b base h

@[simp] theorem State.get_ev_place {f g : Fld} (h : g.place ≠ f.place) (s : State) (b base c : Nat) :
    g.get (s.ev f b base).regs 0 c = g.get s.regs 0 c :=
  s.rdB_ev_place b base c h

end Sys2Proof.Machine

/-!
PROOF. The work of a group beside the rest of the state, and the calibrations and states of its synthesiser (O10, R91 to
R95).
-/

namespace Sys2Proof.Machine

/-! ### The work of a group -/

@[simp] theorem State.fe_setFe (s : State) (g : Grp) (x : GrpSt) : (s.setFe g x).fe g = x := by cases g <;> rfl

/-- The work of a group stands apart from everything but the three groups' own parts. -/
theorem State.fe_of_parts {s t : State} (l : t.feL = s.feL) (h : t.feH = s.feH) (i : t.feI = s.feI) (g : Grp) :
    t.fe g = s.fe g := by
  cases g <;> assumption

@[simp] theorem State.fe_wrB (s : State) (f : Fld) (i b v : Nat) (g : Grp) : (s.wrB f i b v).fe g = s.fe g :=
  State.fe_of_parts rfl rfl rfl g

@[simp] theorem State.fe_wr (s : State) (f : Fld) (v : Nat) (g : Grp) : (s.wr f v).fe g = s.fe g :=
  State.fe_of_parts rfl rfl rfl g

@[simp] theorem State.fe_wrI (s : State) (f : Fld) (i v : Nat) (g : Grp) : (s.wrI f i v).fe g = s.fe g :=
  State.fe_of_parts rfl rfl rfl g

@[simp] theorem State.fe_bumpN (s : State) (f : Fld) (n : Nat) (g : Grp) : (s.bumpN f n).fe g = s.fe g :=
  State.fe_of_parts rfl rfl rfl g

@[simp] theorem State.fe_bump (s : State) (f : Fld) (g : Grp) : (s.bump f).fe g = s.fe g :=
  State.fe_of_parts rfl rfl rfl g

@[simp] theorem State.fe_wrap (s : State) (f : Fld) (g : Grp) : (s.wrap f).fe g = s.fe g :=
  State.fe_of_parts rfl rfl rfl g

@[simp] theorem State.fe_ev (s : State) (f : Fld) (b base : Nat) (g : Grp) : (s.ev f b base).fe g = s.fe g :=
  State.fe_of_parts (by simp) (by simp) (by simp) g

@[simp] theorem State.fe_abortGrp (s : State) (h : Grp) (f : Fld) (g : Grp) : (s.abortGrp h f).fe g = s.fe g :=
  State.fe_of_parts (by simp) (by simp) (by simp) g

@[simp] theorem State.fe_numbered (s : State) (n : Nat) (g : Grp) : (s.numbered n).fe g = s.fe g :=
  State.fe_of_parts rfl rfl rfl g

/-! ### Lanes aborted (R98) -/

theorem State.chanGrp_grn {s t : State} (h : t.grn = s.grn) (c : Byte) : t.chanGrp c = s.chanGrp c := by
  simp only [State.chanGrp, State.planAt, h]

@[simp] theorem State.chanGrp_wr (s : State) (f : Fld) (v : Nat) (c : Byte) : (s.wr f v).chanGrp c = s.chanGrp c := (rfl)

@[simp] theorem State.chanGrp_ev (s : State) (f : Fld) (b base : Nat) (c : Byte) :
    (s.ev f b base).chanGrp c = s.chanGrp c := State.chanGrp_grn (by simp) c

/-- An abort takes every lane that the group feeds, and no other. -/
theorem State.abortGrp_lanes (s : State) (g : Grp) (f : Fld) :
    (s.abortGrp g f).grn.lanes = s.grn.lanes.filter (fun l => s.chanGrp l.2.ent ≠ g) := by
  simp [State.abortGrp, State.abortLanes]

@[simp] theorem State.abortGrp_regs (s : State) (g : Grp) (f : Fld) :
    (s.abortGrp g f).regs =
      f.put s.regs 0 0 (min (f.get s.regs 0 0 + (s.grn.lanes.filter (fun l => s.chanGrp l.2.ent = g)).length)
        (2 ^ f.width - 1)) := rfl

/-! ### A calibration is asked for (R91, R92) -/

/-- A usable group notes the calibration: one that is pending keeps the count it began. -/
theorem State.reqCal_usable (s : State) (g : Grp) (force : Bool) (h : s.usable g = true) :
    s.reqCal g force = s.setFe g { s.fe g with
      cal := some { ((s.fe g).cal.getD { since := s.sys.uptime, forced := force }) with
        forced := ((s.fe g).cal.getD { since := s.sys.uptime, forced := force }).forced || force } } := by
  unfold State.reqCal
  rw [if_pos h]
  cases (s.fe g).cal <;> simp

theorem State.usable_numbered (s : State) (n : Nat) (g : Grp) : (s.numbered n).usable g = s.usable g := rfl

theorem State.calCmd_gap (s : State) (g : Grp) (h : s.usable g = true) :
    s.calCmd g 1 = s.setFe g { s.fe g with
      cal := some ((s.fe g).cal.getD { since := s.sys.uptime, forced := false }) } := by
  simp [State.calCmd, s.reqCal_usable g false h]

theorem State.calCmd_now (s : State) (g : Grp) (h : s.usable g = true) :
    s.calCmd g 2 = s.setFe g { s.fe g with
      cal := some { ((s.fe g).cal.getD { since := s.sys.uptime, forced := true }) with forced := true } } := by
  simp [State.calCmd, s.reqCal_usable g true h]

/-- A group stays usable while its temperature is updated. -/
theorem State.usable_temp (s : State) (g : Grp) (v : Nat) : (s.wr (Reg.FE_GRP_TEMP g) v).usable g = s.usable g := by
  cases g <;>
  simp (disch := decide) only [State.usable, State.radioOn, State.up, State.live, State.halted, State.testHalt,
    State.testMode, State.rd_get, State.on_get, State.wr_regs, Fld.get_put_place] <;> rfl

/-- A temperature update of a usable group: a calibration is pending afterwards if one was, or if the temperature has moved
10 °C or more from CAL_TEMP in CALIBRATING, SETTLING or LOCKED (R91). -/
theorem exec_grpTempUpdate (s : State) (g : Grp) (x : Byte) (run : s.runs g.isl = true) (use : s.usable g = true) :
    ∃ t, exec (.grpTempUpdate g x) s = .next t ∧ (t.rd (Reg.FE_GRP_TEMP g) = x.toNat ∧
      ((t.fe g).cal.isSome ↔ ((s.fe g).cal.isSome = true ∨
        (10 ≤ (x.toInt - s.rdS (Reg.FE_CAL_TEMP g)).natAbs ∧ 1 ≤ s.rd (Reg.FE_SYN_STATE g) ∧
          s.rd (Reg.FE_SYN_STATE g) ≤ 3)))) := by
  have temp : (s.wr (Reg.FE_GRP_TEMP g) x.toNat).rd (Reg.FE_GRP_TEMP g) = x.toNat := by
    rw [State.rd_wr_same]
    exact Nat.mod_eq_of_lt x.isLt
  have cal : (s.wr (Reg.FE_GRP_TEMP g) x.toNat).rdS (Reg.FE_CAL_TEMP g) = s.rdS (Reg.FE_CAL_TEMP g) :=
    State.rdS_congr (by cases g <;> simp (disch := decide))
  have syn : (s.wr (Reg.FE_GRP_TEMP g) x.toNat).rd (Reg.FE_SYN_STATE g) = s.rd (Reg.FE_SYN_STATE g) :=
    s.rd_wrB_place 0 _ (by cases g <;> decide)
  refine ⟨_, by simp only [exec, execGrpTempUpdate, run, if_true]; rfl, ?_⟩
  rw [cal, syn]
  by_cases far : (10 ≤ (x.toInt - s.rdS (Reg.FE_CAL_TEMP g)).natAbs ∧ 1 ≤ s.rd (Reg.FE_SYN_STATE g) ∧
      s.rd (Reg.FE_SYN_STATE g) ≤ 3)
  · rw [if_pos (by simpa [and_assoc] using far), State.reqCal_usable _ g false ((s.usable_temp g _).trans use)]
    exact ⟨by simpa using temp, ⟨fun _ => .inr far, fun _ => by simp⟩⟩
  · rw [if_neg (by simpa [and_assoc] using far)]
    exact ⟨temp, ⟨fun h => .inl (by simpa using h), fun h => by simpa using h.resolve_right far⟩⟩

/-- The 200 ms mark forces a calibration that is pending (R92). -/
theorem exec_calForceTimeout (s : State) (g : Grp) (c : CalPend) (pend : (s.fe g).cal = some c) (soft : c.forced = false) :
    ∃ t, exec (.calForceTimeout g) s = .next t ∧ ((t.fe g).cal = some { c with forced := true } ∧
      (t.rd (Reg.FE_GRP_EVT g)).testBit 1 = true) := by
  refine ⟨_, by simp only [exec, execCalForceTimeout, pend, soft]; rfl, by simp, ?_⟩
  exact State.ev_testBit _ _ (by decide : 1 < 5)

/-! ### A calibration runs (R93, R95) -/

/-- A calibration starts: CAL_TEMP is taken from GRP_TEMP and the group's lanes are aborted. -/
theorem exec_calibrationStart (s : State) (g : Grp) (c : CalPend) (pend : (s.fe g).cal = some c)
    (idle : (s.fe g).burst = none) (may : c.forced = true ∨ (s.fe g).gap = true) :
    ∃ t, exec (.calibrationStart g) s = .next t ∧ (t.rd (Reg.FE_SYN_STATE g) = 1 ∧
      t.rd (Reg.FE_CAL_TEMP g) = s.rd (Reg.FE_GRP_TEMP g) % 256 ∧ (t.fe g).cal = none ∧ (t.fe g).calAt = s.sys.uptime ∧
      t.grn.lanes = s.grn.lanes.filter (fun l => s.chanGrp l.2.ent ≠ g)) := by
  refine ⟨s.startCal g, by simp only [exec, execCalibrationStart, pend, idle]; simp [may], ?_⟩
  unfold State.startCal
  refine ⟨?_, ?_, by simp, by simp, ?_⟩
  · cases g <;> simp (disch := decide)
  · cases g <;> simp (disch := decide) <;> rfl
  · simp [State.abortGrp_lanes]

/-- A write to a group's state of the synthesiser reads back. -/
theorem State.synState_wr (s : State) (g : Grp) {n : Nat} (h : n < 8) :
    (s.wr (Reg.FE_SYN_STATE g) n).rd (Reg.FE_SYN_STATE g) = n := by
  rw [State.rd_wr_same]
  exact Nat.mod_eq_of_lt h

/-- A group that loses lock shows FAILED and SYN_FAIL (R95). -/
theorem State.synFail_reads (s : State) (g : Grp) :
    let t := (s.wr (Reg.FE_SYN_STATE g) 4).ev (Reg.FE_GRP_EVT g) 0 (32 + 8 * g.code)
    t.rd (Reg.FE_SYN_STATE g) = 4 ∧ (t.rd (Reg.FE_GRP_EVT g)).testBit 0 = true := by
  refine ⟨?_, State.ev_testBit _ _ (by decide : 0 < 5)⟩
  rw [State.rd_ev_place _ 0 _ (by cases g <;> decide)]
  exact s.synState_wr g (by decide)

/-- The lock check ends a calibration in LOCKED or FAILED (R93). -/
theorem exec_synthLockCheck (s : State) (g : Grp) (lock : Bool) (run : s.runs g.isl = true)
    (settling : s.rd (Reg.FE_SYN_STATE g) = 2) :
    ∃ t, exec (.synthLockCheck g lock) s = .next t ∧ (t.rd (Reg.FE_SYN_STATE g) = (if lock then 3 else 4) ∧
      (lock = false → (t.rd (Reg.FE_GRP_EVT g)).testBit 0 = true)) := by
  simp only [exec, execSynthLockCheck, run, settling]
  cases lock with
  | true => exact ⟨_, rfl, State.synState_wr _ g (by decide), fun h => by cases h⟩
  | false =>
    obtain ⟨state, event⟩ := (s.writeIqcal g 128).synFail_reads g
    exact ⟨_, rfl, state, fun _ => event⟩

theorem State.cutBurst_none (s : State) (g : Grp) (c : Fld) (synth : Bool) (h : (s.fe g).burst = none) :
    s.cutBurst g c synth = s := by
  have air : s.truncate g = s := by simp [State.truncate, h]
  simp [State.cutBurst, air, h]

/-- A loss of lock outside a burst (R95). -/
theorem exec_lossOfLock (s : State) (g : Grp) (run : s.runs g.isl = true) (locked : s.rd (Reg.FE_SYN_STATE g) = 3)
    (idle : (s.fe g).burst = none) :
    ∃ t, exec (.lossOfLock g) s = .next t ∧ (t.rd (Reg.FE_SYN_STATE g) = 4 ∧
      (t.rd (Reg.FE_GRP_EVT g)).testBit 0 = true ∧
      t.grn.lanes = s.grn.lanes.filter (fun l => s.chanGrp l.2.ent ≠ g)) := by
  obtain ⟨state, event⟩ := s.synFail_reads g
  refine ⟨_, by simp only [exec, execLossOfLock, run, locked]; rfl, ?_⟩
  rw [State.cutBurst_none _ g _ _ (by simpa using idle)]
  refine ⟨?_, ?_, by simp [State.abortGrp_lanes]⟩
  · cases g <;> simpa (disch := decide) using state
  · cases g <;> simpa (disch := decide) using event

/-- Settles O10: each of the eight commands, by the lemma on it. -/
theorem calibration : Obligations.Calibration := by
  refine ⟨fun s g may use => ?_, fun s g => ⟨exec_grpTempUpdate s g, fun c => exec_calForceTimeout s g c⟩,
    fun s g c => exec_calibrationStart s g c, fun s g run => ⟨?_, ?_, ?_⟩⟩
  · constructor
    · simp only [exec, execCalCmdGap, s.hostOp_may _ _ _ may, State.calCmd_gap _ g ((s.usable_numbered 1 g).trans use)]
      rfl
    · simp only [exec, execCalCmdNow, s.hostOp_may _ _ _ may, State.calCmd_now _ g ((s.usable_numbered 1 g).trans use)]
      rfl
  · intro state
    simp only [exec, execCalSettling, run, state, decide_true, Bool.and_self, if_true]
  · exact fun lock => exec_synthLockCheck s g lock run
  · exact exec_lossOfLock s g run

end Sys2Proof.Machine

/-!
PROOF. Which registers the shared operations of the Carafe, the node table, the wheel and the air exchange leave as they
were: a field off the pages that an operation counts in reads as before.
-/

namespace Sys2Proof.Machine

/-- The 4 KiB page a field stands on: its island (R3). -/
def Fld.page (f : Fld) : Nat := f.place / 2 ^ 20

/-- Not counted in by the operations on queues: off CAR's page and none of the two counters of fenced items. -/
def Fld.offQueues (g : Fld) : Bool :=
  g.page ≠ 9 && g.place ≠ Reg.SYS_FENCED_UL.place && g.place ≠ Reg.SYS_FENCED_OTHER.place

/-- Nor by those on the node table. -/
def Fld.offTable (g : Fld) : Bool := g.page ≠ 7 && g.offQueues

/-- Nor by those on the wheel and the tries. -/
def Fld.offWheel (g : Fld) : Bool := g.page ≠ 8 && g.offTable

theorem Fld.get_put_page {f g : Fld} (h : g.page ≠ f.page) (r : List (Nat × Nat)) (b c v : Nat) :
    g.get (f.put r 0 b v) 0 c = g.get r 0 c :=
  Fld.get_put_place (fun e => h (by simp only [Fld.page, e])) r b c v

theorem State.get_ev_page {f g : Fld} (h : g.page ≠ f.page) (s : State) (b base c : Nat) :
    g.get (s.ev f b base).regs 0 c = g.get s.regs 0 c :=
  State.get_ev_place (fun e => h (by simp only [Fld.page, e])) s b base c

/-- A choice between two states that both leave a field leaves it. -/
theorem get_ite {g : Fld} {c v : Nat} {p : Prop} [Decidable p] {s t : State} (hs : g.get s.regs 0 c = v)
    (ht : g.get t.regs 0 c = v) : g.get (if p then s else t).regs 0 c = v := by
  split
  · exact hs
  · exact ht

/-! ### Queues -/

section
variable {g : Fld} (h : g.offQueues = true)
include h

theorem Fld.page_offQueues {f : Fld} (p : f.page = 9) : g.page ≠ f.page := by
  simp only [Fld.offQueues, Bool.and_eq_true, decide_eq_true_eq] at h
  rw [p]
  exact h.1.1

theorem Fld.place_offQueues : g.place ≠ Reg.SYS_FENCED_UL.place ∧ g.place ≠ Reg.SYS_FENCED_OTHER.place := by
  simp only [Fld.offQueues, Bool.and_eq_true, decide_eq_true_eq] at h
  exact ⟨h.1.2, h.2⟩

@[simp] theorem State.correctCells_get (s : State) (l : List Nat) (c : Nat) :
    g.get (s.correctCells l).regs 0 c = g.get s.regs 0 c := by
  have off := fun {f} => Fld.page_offQueues h (f := f)
  unfold State.correctCells
  refine (foldl_keeps (fun s : State => g.get s.regs 0 c) _ _ _ (fun s a => ?_)).trans rfl
  simp (disch := (refine off ?_; decide)) only [State.get_ev_page, State.wr_regs, State.bump_regs, Fld.get_put_page]

@[simp] theorem State.noteFree_get (s : State) (c : Nat) : g.get s.noteFree.regs 0 c = g.get s.regs 0 c := by
  have off := fun {f} => Fld.page_offQueues h (f := f)
  unfold State.noteFree State.trough
  split
  · exact Fld.get_put_page (off rfl) ..
  · rfl

@[simp] theorem State.linkSys_get (s : State) (q : Nat) (hdr : Option Hdr) (b : List Byte) (n : ItemNote) (c : Nat) :
    g.get (s.linkSys q hdr b n).regs 0 c = g.get s.regs 0 c := by
  have off := fun {f} => Fld.page_offQueues h (f := f)
  unfold State.linkSys
  dsimp only
  refine get_ite ((State.get_ev_page (off rfl) ..).trans (get_ite ((State.get_ev_page (off rfl) ..).trans ?_) ?_))
    (get_ite ((State.get_ev_page (off rfl) ..).trans ?_) ?_) <;> simp [h]

@[simp] theorem State.takeItem_get (s : State) (q : Nat) (hdr : Option Hdr) (b : List Byte) (n : ItemNote) (c : Nat) :
    g.get (s.takeItem q hdr b n).regs 0 c = g.get s.regs 0 c := by
  have off := fun {f} => Fld.page_offQueues h (f := f)
  obtain ⟨ul, other⟩ := Fld.place_offQueues h
  cases hdr <;> simp only [State.takeItem, Option.isSome_none, Option.isSome_some, Bool.false_eq_true, if_false, if_true]
  case none =>
    split
    · exact Fld.get_put_place other ..
    · (repeat' split) <;>
        simp (disch := (refine off ?_; decide)) only [State.get_ev_page, State.bump_regs, Fld.get_put_page, s.linkSys_get h]
  case some =>
    split
    · exact Fld.get_put_place ul ..
    · (repeat' split) <;>
        simp (disch := (refine off ?_; decide)) only [State.get_ev_page, State.bump_regs, Fld.get_put_page, s.linkSys_get h]

@[simp] theorem State.deviceItem_get (s : State) (q : Nat) (hdr : Option Hdr) (b : List Byte) (n : ItemNote) (c : Nat) :
    g.get (s.deviceItem q hdr b n).regs 0 c = g.get s.regs 0 c := by
  unfold State.deviceItem
  split
  · exact s.takeItem_get h ..
  · rfl

@[simp] theorem State.record_get (s : State) (q : Nat) (b : List Byte) (c : Nat) :
    g.get (s.record q b).regs 0 c = g.get s.regs 0 c :=
  s.deviceItem_get h ..

@[simp] theorem State.releaseSys_get (s : State) (q c : Nat) : g.get (s.releaseSys q).regs 0 c = g.get s.regs 0 c := by
  unfold State.releaseSys
  exact (State.correctCells_get h ..).trans rfl

@[simp] theorem State.schedRecord_get (s : State) (k : Nat) (e : Entry) (u c : Nat) :
    g.get (s.schedRecord k e u).regs 0 c = g.get s.regs 0 c :=
  s.record_get h ..

end

/-! ### The node table -/

section
variable {g : Fld} (h : g.offTable = true)
include h

theorem Fld.page_offTable {f : Fld} (p : f.page = 7) : g.page ≠ f.page := by
  simp only [Fld.offTable, Bool.and_eq_true, decide_eq_true_eq] at h
  rw [p]
  exact h.1

theorem Fld.offQueues_of_offTable : g.offQueues = true := by
  simp only [Fld.offTable, Bool.and_eq_true] at h
  exact h.2

@[simp] theorem State.parityFail_get (s : State) (loc : Nat) (sl : Slot) (src c : Nat) :
    g.get (s.parityFail loc sl src).regs 0 c = g.get s.regs 0 c := by
  have off := fun {f} => Fld.page_offTable h (f := f)
  unfold State.parityFail
  dsimp only
  rw [State.record_get (Fld.offQueues_of_offTable h), State.get_ev_page (off (by decide))]
  split <;> simp (disch := (refine off ?_; decide)) only [State.wr_regs, State.bump_regs, Fld.get_put_page]

@[simp] theorem State.checkWords_get (s : State) (loc : Nat) (sl : Slot) (src c : Nat) :
    g.get (s.checkWords loc sl src).2.regs 0 c = g.get s.regs 0 c := by
  unfold State.checkWords
  split
  · rfl
  · exact s.parityFail_get h ..

@[simp] theorem State.dirLoc_get (s : State) (n : BitVec 18) (c : Nat) :
    g.get (s.dirLoc n).2.regs 0 c = g.get s.regs 0 c := by
  have off := fun {f} => Fld.page_offTable h (f := f)
  unfold State.dirLoc
  split
  · rfl
  · split
    · exact (State.record_get (Fld.offQueues_of_offTable h) ..).trans (Fld.get_put_page (off rfl) ..)
    · rfl

@[simp] theorem State.access_get (s : State) (n : BitVec 18) (src c : Nat) :
    g.get (s.access n src).2.regs 0 c = g.get s.regs 0 c := by
  unfold State.access
  dsimp only
  split
  · exact s.dirLoc_get h n c
  · split
    · exact s.dirLoc_get h n c
    · exact (State.checkWords_get h ..).trans (s.dirLoc_get h n c)

@[simp] theorem State.updEntry_get (s : State) (n : BitVec 18) (f : Entry → Entry) (c : Nat) :
    g.get (s.updEntry n f).regs 0 c = g.get s.regs 0 c := by
  unfold State.updEntry
  dsimp only
  split <;> exact s.access_get h n 5 c

@[simp] theorem State.setNodeQ_get (s : State) (n : BitVec 18) (q : Queue) (c : Nat) :
    g.get (s.setNodeQ n q).regs 0 c = g.get s.regs 0 c := by
  unfold State.setNodeQ
  exact get_ite ((State.updEntry_get h ..).trans rfl) rfl

@[simp] theorem State.releaseNode_get (s : State) (n : BitVec 18) (i : Nat) (st : Hdr → Byte) (r : Byte) (c : Nat) :
    g.get (s.releaseNode n i st r).regs 0 c = g.get s.regs 0 c := by
  unfold State.releaseNode
  dsimp only
  split
  · rfl
  · rw [State.correctCells_get (Fld.offQueues_of_offTable h), State.setNodeQ_get h]
    simp

end

/-! ### The wheel and the tries -/

section
variable {g : Fld} (h : g.offWheel = true)
include h

theorem Fld.page_offWheel {f : Fld} (p : f.page = 8) : g.page ≠ f.page := by
  simp only [Fld.offWheel, Bool.and_eq_true, decide_eq_true_eq] at h
  rw [p]
  exact h.1

theorem Fld.offTable_of_offWheel : g.offTable = true := by
  simp only [Fld.offWheel, Bool.and_eq_true] at h
  exact h.2

theorem Fld.offQueues_of_offWheel : g.offQueues = true := Fld.offQueues_of_offTable (Fld.offTable_of_offWheel h)

@[simp] theorem State.putEvent_get (s : State) (e : Entry) (n : Nat) (k : Int) (c : Nat) :
    g.get (s.putEvent e n k).regs 0 c = g.get s.regs 0 c := by
  have off := fun {f} => Fld.page_offWheel h (f := f)
  induction n generalizing s k with
  | zero => rfl
  | succ n ih =>
    unfold State.putEvent
    dsimp only
    split
    · rw [ih, State.get_ev_page (off (by decide)), State.bump_regs, Fld.get_put_page (off (by decide))]
    · rw [State.updEntry_get (Fld.offTable_of_offWheel h)]
      split <;> rfl

@[simp] theorem State.placeFrom_get (s : State) (n : BitVec 18) (t : Int) (c : Nat) :
    g.get (s.placeFrom n t).regs 0 c = g.get s.regs 0 c := by
  unfold State.placeFrom
  split
  · rfl
  · split
    · rfl
    · split
      · exact State.updEntry_get (Fld.offTable_of_offWheel h) ..
      · exact State.putEvent_get h ..

@[simp] theorem State.placeNode_get (s : State) (n : BitVec 18) (c : Nat) :
    g.get (s.placeNode n).regs 0 c = g.get s.regs 0 c :=
  s.placeFrom_get h ..

@[simp] theorem State.driftMiss_get (s : State) (e : Entry) (c : Nat) :
    g.get (s.driftMiss e).regs 0 c = g.get s.regs 0 c := by
  have off := fun {f} => Fld.page_offWheel h (f := f)
  unfold State.driftMiss
  rw [State.get_ev_page (off rfl), State.bump_regs, Fld.get_put_page (off rfl),
    State.schedRecord_get (Fld.offQueues_of_offWheel h), State.updEntry_get (Fld.offTable_of_offWheel h)]

@[simp] theorem State.afterWake_get (s : State) (n : BitVec 18) (c : Nat) :
    g.get (s.afterWake n).regs 0 c = g.get s.regs 0 c := by
  unfold State.afterWake
  (repeat' split) <;> simp [h]

@[simp] theorem State.frameOutcome_get (s : State) (n : BitVec 18) (q : BitVec 16) (rep : Nat) (o : TryEnd) (c : Nat) :
    g.get (s.frameOutcome n q rep o).regs 0 c = g.get s.regs 0 c := by
  have off := fun {f} => Fld.page_offWheel h (f := f)
  have tab := Fld.offTable_of_offWheel h
  unfold State.frameOutcome
  have released : ∀ (s : State) (i : Nat) (st : Hdr → Byte) (r : Byte),
      g.get (s.releaseNode n i st r).regs 0 c = g.get s.regs 0 c := fun s i st r => State.releaseNode_get tab s n i st r c
  (repeat' split) <;>
    simp (disch := (refine off ?_; decide)) only [State.bump_regs, Fld.get_put_page, released, State.rewind_keeps,
      State.updHdr_keeps]

@[simp] theorem State.orphanOutcome_get (s : State) (q : Queue) (hd : Hdr) (o : TryEnd) (c : Nat) :
    g.get (s.orphanOutcome q hd o).regs 0 c = g.get s.regs 0 c := by
  have off := fun {f} => Fld.page_offWheel h (f := f)
  unfold State.orphanOutcome
  (repeat' split) <;> simp (disch := (refine off ?_; decide)) [Fld.get_put_page]

@[simp] theorem State.settleTry_get (s : State) (t : Try) (o : TryEnd) (c : Nat) :
    g.get (s.settleTry t o).regs 0 c = g.get s.regs 0 c := by
  have off := fun {f} => Fld.page_offWheel h (f := f)
  have tab := Fld.offTable_of_offWheel h
  unfold State.settleTry
  dsimp only
  cases o <;> dsimp only <;> split <;>
    simp (disch := (refine off ?_; decide)) only [State.afterWake_get h, State.frameOutcome_get h, State.orphanOutcome_get h,
      State.updEntry_get tab, State.bump_regs, State.wrap_regs, Fld.get_put_page]

@[simp] theorem State.tryEnd_get (s : State) (t : Try) (o : TryEnd) (c : Nat) :
    g.get (s.tryEnd t o).regs 0 c = g.get s.regs 0 c := by
  unfold State.tryEnd
  dsimp only
  (repeat' split) <;> simp [h]

end

end Sys2Proof.Machine

/-!
PROOF. Bursts (O11): what a burst beginning, a frame joining and the tests of the due instant make of the work of a group
(R94, R96, R99, R100, R111).
-/

namespace Sys2Proof.Machine

/-! ### E of a burst (R100) -/

/-- A running maximum is at least where it begins and at least each value it passes. -/
theorem le_foldl_max {α : Type} (v : α → Nat) (l : List α) (m : Nat) :
    m ≤ l.foldl (fun m x => max m (v x)) m ∧ ∀ x ∈ l, v x ≤ l.foldl (fun m x => max m (v x)) m := by
  induction l generalizing m with
  | nil => simp
  | cons a l ih =>
    obtain ⟨start, rest⟩ := ih (max m (v a))
    refine ⟨by simp only [List.foldl_cons]; omega, fun x hx => ?_⟩
    rcases List.mem_cons.mp hx with rfl | hx
    · simp only [List.foldl_cons]; omega
    · exact rest x hx

/-- E of a burst that carries frames is past the end of each. -/
theorem Burst.end_le_calcE (b : Burst) {f : TxItem} (plain : b.search = none) (h : f ∈ b.frames) : f.first + f.dur ≤ b.calcE := by
  simp only [Burst.calcE, plain, Option.isSome_none, Bool.false_eq_true, if_false]
  exact (le_foldl_max (fun f : TxItem => f.first + f.dur) b.frames _).2 f h

@[simp] theorem Burst.setFrames_frames (b : Burst) (l : List TxItem) : (b.setFrames l).frames = l := rfl
@[simp] theorem Burst.setFrames_search (b : Burst) (l : List TxItem) : (b.setFrames l).search = b.search := rfl
@[simp] theorem Burst.setFrames_port (b : Burst) (l : List TxItem) : (b.setFrames l).port = b.port := rfl
@[simp] theorem Burst.setFrames_first (b : Burst) (l : List TxItem) : (b.setFrames l).first = b.first := rfl

theorem Burst.end_le_setFrames (b : Burst) {l : List TxItem} {f : TxItem} (plain : b.search = none) (h : f ∈ l) :
    f.first + f.dur ≤ (b.setFrames l).e :=
  Burst.end_le_calcE { b with frames := l } plain h

@[simp] theorem State.fe_updBurst (s : State) (g : Grp) (f : Burst → Burst) :
    (s.updBurst g f).fe g = { s.fe g with burst := (s.fe g).burst.map f } := by
  simp [State.updBurst]

theorem State.setFe_self (s : State) (g : Grp) : s.setFe g (s.fe g) = s := by cases g <;> rfl

@[simp] theorem State.setFe_setFe (s : State) (g : Grp) (x y : GrpSt) : (s.setFe g x).setFe g y = s.setFe g y := by
  cases g <;> rfl

/-- Without a burst there is none to change. -/
theorem State.updBurst_none (s : State) (g : Grp) (f : Burst → Burst) (h : (s.fe g).burst = none) : s.updBurst g f = s := by
  have same : { s.fe g with burst := (s.fe g).burst.map f } = s.fe g := by rw [h, Option.map_none, ← h]
  rw [State.updBurst, same, s.setFe_self g]

/-! ### A burst under way on a usable port -/

/-- The burst under way carries frames on port `p`, began for first symbol `T`, and has frame `f` with its end within E; the
port is free of a mismatch. -/
structure State.Carries (s : State) (g : Grp) (T p : Nat) (f : TxItem) : Prop where
  matched : (s.rd (Reg.FE_PORT_MM g)).testBit p = false
  burst : ∃ b, (s.fe g).burst = some b ∧ b.first = T ∧ b.port = some p ∧ b.search = none ∧ f ∈ b.frames ∧
    f.first + f.dur ≤ b.e

/-- The tail events of a burst as a frame that joins undoes them (R100). -/
def Burst.retimed (b : Burst) (f : TxItem) (now : Nat) : Burst :=
  let b := if b.e + b.ramp + b.lag ≤ now then { b with paOn := none } else b
  if b.e + 80000 ≤ now then { b with trOn := max now (f.first - 100000), drvOn := max now (f.first - 60000) } else b

theorem Burst.retimed_keeps (b : Burst) (f : TxItem) (now : Nat) : (b.retimed f now).first = b.first ∧
    (b.retimed f now).port = b.port ∧ (b.retimed f now).search = b.search ∧ (b.retimed f now).frames = b.frames := by
  simp only [Burst.retimed]
  (repeat' split) <;> exact ⟨rfl, rfl, rfl, rfl⟩

theorem State.joinBurst_eq (s : State) (g : Grp) (f : TxItem) {b : Burst} {p : Nat} (under : (s.fe g).burst = some b)
    (plain : b.search = none) (port : b.port = some p) (ok : (s.rd (Reg.FE_PORT_MM g)).testBit p = false) :
    s.joinBurst g f = (s.setFe g { s.fe g with wait := (s.fe g).wait.erase f }).updBurst g
      (fun _ => (b.retimed f s.sys.timeNs).setFrames ((b.retimed f s.sys.timeNs).frames ++ [{ f with phase := .joined }])) := by
  have alive : ∀ x, ((s.setFe g x).rd (Reg.FE_PORT_MM g)).testBit p = false := fun x => by simpa using ok
  have now : ∀ x, (s.setFe g x).sys.timeNs = s.sys.timeNs := fun x => by simp
  simp only [State.joinBurst, under, port, alive, Bool.and_false, Bool.false_eq_true, if_false, now, Burst.retimed]

/-- What a frame that joins a burst on a usable port makes of the group (R99, R100). -/
theorem State.joinBurst_usable (s : State) (g : Grp) (f : TxItem) {b : Burst} {p : Nat} (under : (s.fe g).burst = some b)
    (plain : b.search = none) (port : b.port = some p) (ok : (s.rd (Reg.FE_PORT_MM g)).testBit p = false) :
    (s.joinBurst g f).regs = s.regs ∧ ∃ b', (s.joinBurst g f).fe g =
        { s.fe g with wait := (s.fe g).wait.erase f, burst := some b' } ∧ b'.first = b.first ∧ b'.port = b.port ∧
      b'.search = none ∧ b'.frames = b.frames ++ [{ f with phase := .joined }] ∧
      ∀ x ∈ b'.frames, x.first + x.dur ≤ b'.e := by
  obtain ⟨first, port', plain', frames⟩ := b.retimed_keeps f s.sys.timeNs
  rw [s.joinBurst_eq g f under plain port ok]
  refine ⟨by simp [State.updBurst],
    (b.retimed f s.sys.timeNs).setFrames ((b.retimed f s.sys.timeNs).frames ++ [{ f with phase := .joined }]), ?_, first,
    port', plain'.trans plain, by rw [Burst.setFrames_frames, frames],
    fun x hx => Burst.end_le_setFrames _ (plain'.trans plain) hx⟩
  simp only [State.fe_updBurst, State.fe_setFe, under, Option.map_some]

/-- A frame that joins leaves the burst on its port with the frames it had. -/
theorem State.Carries.join {s : State} {g : Grp} {T p : Nat} {f : TxItem} (h : s.Carries g T p f) (x : TxItem) :
    (s.joinBurst g x).Carries g T p f := by
  obtain ⟨ok, b, under, first, port, plain, has, -⟩ := h
  obtain ⟨regs, b', fe, first', port', plain', frames', ends⟩ := s.joinBurst_usable g x under plain port ok
  have has' : f ∈ b'.frames := by rw [frames']; exact List.mem_append_left _ has
  exact ⟨by simpa [regs] using ok, b', by rw [fe], first'.trans first, port'.trans port, plain', has', ends f has'⟩

theorem State.Carries.joinWaiting {s : State} {g : Grp} {T p : Nat} {f : TxItem} (h : s.Carries g T p f) (n : Nat) :
    (s.joinWaiting g n).Carries g T p f := by
  induction n generalizing s with
  | zero => exact h
  | succ n ih =>
    unfold State.joinWaiting
    split
    · split
      · exact ih (h.join _)
      · exact h
    · exact h

/-- The port that a group chooses is free of a mismatch (R111). -/
theorem State.choosePort_matched {s : State} {g : Grp} {p : Nat} (h : s.choosePort g = some p) :
    (s.rd (Reg.FE_PORT_MM g)).testBit p = false := by
  unfold State.choosePort at h
  dsimp only at h
  split at h
  · rename_i ok
    cases h
    simp only [Bool.and_eq_true, Bool.not_eq_true'] at ok
    exact ok.1.2
  · split at h
    · rename_i ok
      cases h
      simp only [Bool.and_eq_true, Bool.not_eq_true'] at ok
      exact ok.2.1.2
    · cases h

/-- The burst that begins for a frame on a port. -/
theorem State.fe_beginBurst (s : State) (g : Grp) (first p : Nat) (f : TxItem) :
    ∃ b, ((s.beginBurst g first (some p) none first [f]).fe g).burst = some b ∧ b.first = first ∧ b.port = some p ∧
      b.search = none ∧ b.frames = [f] ∧ b.e = f.first + f.dur ∧
      ((s.beginBurst g first (some p) none first [f]).fe g).wait = (s.fe g).wait.filter (fun x => !(List.contains [f] x)) := by
  refine ⟨_, by simp [State.beginBurst]; rfl, rfl, rfl, rfl, rfl, by simp [Burst.calcE], ?_⟩
  simp [State.beginBurst]

theorem State.beginBurst_carries (s : State) (g : Grp) (first p : Nat) (f : TxItem)
    (ok : (s.rd (Reg.FE_PORT_MM g)).testBit p = false) :
    (s.beginBurst g first (some p) none first [f]).Carries g first p f := by
  obtain ⟨b, under, hfirst, port, plain, frames, e, -⟩ := s.fe_beginBurst g first p f
  refine ⟨?_, b, under, hfirst, port, plain, by simp [frames], e.ge⟩
  cases g <;> simpa (disch := decide) [State.beginBurst] using ok

theorem State.joinWaiting_empty (s : State) (g : Grp) (n : Nat) (h : (s.fe g).wait = []) : s.joinWaiting g n = s := by
  cases n <;> simp [State.joinWaiting, h, earliest]

/-- The frame first past its tests begins a burst on the port that the group chooses (R96, R100). -/
theorem exec_burstBegin (s : State) (g : Grp) (f : TxItem) (p : Nat) (idle : (s.fe g).burst = none)
    (due : earliest (s.fe g).wait (fun x => x.phase = .due) = some f) (locked : s.locked g = true)
    (soft : s.calForced g = false) (port : s.choosePort g = some p) :
    ∃ t, exec (.burstBegin g) s = .next t ∧ (∃ b, (t.fe g).burst = some b ∧ b.first = f.first ∧ b.port = some p ∧
      b.search = none ∧ f ∈ b.frames ∧ f.first + f.dur ≤ b.e ∧
      ((s.fe g).wait = [f] → b.frames = [f] ∧ b.e = f.first + f.dur ∧ (t.fe g).wait = [])) := by
  refine ⟨(s.beginBurst g f.first (some p) none f.first [f]).joinWaiting g (s.fe g).wait.length, ?_, ?_⟩
  · simp [exec, execBurstBegin, idle, due, locked, soft, port]
  · by_cases alone : (s.fe g).wait = [f]
    · obtain ⟨b, under, first, port', plain, frames, e, wait⟩ := s.fe_beginBurst g f.first p f
      have none_left : ((s.beginBurst g f.first (some p) none f.first [f]).fe g).wait = [] := by simp [wait, alone]
      rw [State.joinWaiting_empty _ g _ none_left]
      exact ⟨b, under, first, port', plain, by simp [frames], e.ge, fun _ => ⟨frames, e, none_left⟩⟩
    · obtain ⟨b, under, first, port', plain, has, ends⟩ :=
        ((s.beginBurst_carries g f.first p f (State.choosePort_matched port)).joinWaiting (s.fe g).wait.length).burst
      exact ⟨b, under, first, port', plain, has, ends, fun h => absurd h alone⟩

/-! ### A frame arrives (R99) -/

theorem State.calForced_eq (s : State) (g : Grp) : s.calForced g = (s.fe g).cal.any (fun c => c.forced) := by
  unfold State.calForced
  cases (s.fe g).cal <;> rfl

/-- A frame of the burst under way joins it. -/
theorem exec_frameJoin (s : State) (g : Grp) (b : Burst) (f : TxItem) (rest : List TxItem) (p : Nat)
    (under : (s.fe g).burst = some b) (arrive : (s.fe g).arrive = f :: rest) (item : f.fence = false) (kind : f.kind ≠ .ack)
    (plain : b.search = none) (port : b.port = some p) (ok : (s.rd (Reg.FE_PORT_MM g)).testBit p = false)
    (near : f.first < b.e + 240000) (early : s.sys.timeNs ≤ f.first - b.ramp - 10000) (soft : s.calForced g = false) :
    ∃ t, exec (.frameJoin g) s = .next t ∧ ((t.fe g).arrive = rest ∧
      ∃ b', (t.fe g).burst = some b' ∧ b'.frames = b.frames ++ [{ f with phase := .joined }] ∧ f.first + f.dur ≤ b'.e) := by
  have joins : b.joins f = true := decide_eq_true near
  rw [State.calForced_eq] at soft
  obtain ⟨-, b', fe, -, -, -, frames, ends⟩ := (s.setFe g { s.fe g with arrive := rest }).joinBurst_usable g f
    (b := b) (p := p) (by simpa using under) plain port (by simpa using ok)
  refine ⟨(s.setFe g { s.fe g with arrive := rest }).joinBurst g f, ?_, by simp [fe], b', by simp [fe], frames,
    ends { f with phase := .joined } (by simp [frames])⟩
  have late : ¬ (f.first - b.ramp - 10000 < s.sys.timeNs) := by omega
  simp [exec, execFrameJoin, arrive, item, kind, under, joins, State.calForced_eq, soft, late]

/-! ### The tests of the due instant (R94) -/

/-- The frame past its tests, in a list that holds it. -/
def markDue (f : TxItem) (l : List TxItem) : List TxItem := l.map (fun x => if x = f then { f with phase := .due } else x)

/-- A frame of a group that is LOCKED with no forced calibration, not secured under an earlier epoch, passes. -/
theorem State.dueTest_passes (s : State) (g : Grp) (f : TxItem) (locked : s.locked g = true) (soft : s.calForced g = false)
    (epoch : f.secured = false ∨ f.epoch = s.key.egress) :
    s.dueTest g f = (s.updBurst g (fun b => b.setFrames (markDue f b.frames))).setFe g
      { (s.updBurst g (fun b => b.setFrames (markDue f b.frames))).fe g with
        wait := markDue f ((s.updBurst g (fun b => b.setFrames (markDue f b.frames))).fe g).wait } := by
  have current : (f.secured && decide (f.epoch ≠ s.key.egress)) = false := by
    rcases epoch with h | h <;> simp [h]
  simp only [State.dueTest, locked, soft, current]
  rfl

/-- Settles O11: a burst begins, a frame joins, a burst ends, a frame passes its tests. -/
theorem bursts : Obligations.Bursts := by
  refine ⟨fun s g => ⟨exec_burstBegin s g, exec_frameJoin s g, fun b under ended => ?_⟩,
    fun s g f locked soft epoch => ⟨fun idle due => ?_, fun b under plain due => ?_⟩⟩
  · simp only [exec, execBurstEnd, under, ended, if_true]
  · have test : exec (.frameDue g) s = .next (s.dueTest g f) := by simp only [exec, execFrameDue, idle, due]
    rw [test, s.dueTest_passes g f locked soft epoch, State.updBurst_none s g _ idle]
    rfl
  · refine ⟨s.dueTest g f, by simp only [exec, execFrameDue, under, due, plain]; rfl, ?_⟩
    simp [s.dueTest_passes g f locked soft epoch, under, markDue]

end Sys2Proof.Machine

/-!
PROOF. Frames on the air, REQ and GRANT (O12), return-loss mismatch and the tuner search (O13): what a frame that is lost,
committed or ended makes of the burst (R94, R100, R112 to R117).
-/

namespace Sys2Proof.Machine

/-! ### What SCH and CAR do with a frame leaves the groups -/

@[simp] theorem State.fe_notSent (s : State) (f : TxItem) (b : Bool) (g : Grp) : (s.notSent f b).fe g = s.fe g :=
  State.fe_of_parts (by simp) (by simp) (by simp) g

@[simp] theorem State.fe_commitFrame (s : State) (f : TxItem) (g : Grp) : (s.commitFrame f).fe g = s.fe g :=
  State.fe_of_parts (by simp) (by simp) (by simp) g

@[simp] theorem State.fe_offAir (s : State) (f : TxItem) (g : Grp) : (s.offAir f).fe g = s.fe g :=
  State.fe_of_parts (by simp) (by simp) (by simp) g

@[simp] theorem State.fe_tryDur (s : State) (f : TxItem) (d : Nat) (g : Grp) : (s.tryDur f d).fe g = s.fe g :=
  State.fe_of_parts (by simp) (by simp) (by simp) g

@[simp] theorem State.fe_noteRl (s : State) (h g : Grp) : (s.noteRl h).fe g = s.fe g :=
  State.fe_of_parts (by simp) (by simp) (by simp) g

theorem State.fe_ite (p : Prop) [Decidable p] (s t : State) (g : Grp) :
    (if p then s else t).fe g = if p then s.fe g else t.fe g := apply_ite (fun s : State => s.fe g) p s t

/-- The frames of the burst under way. -/
def GrpSt.frames (x : GrpSt) : Option (List TxItem) := x.burst.map (fun b => b.frames)

@[simp] theorem State.frames_setPhase (s : State) (g : Grp) (f : TxItem) (p : Phase) :
    ((s.setPhase g f p).fe g).frames =
      (s.fe g).frames.map (fun l => l.map (fun x => if x = f then { x with phase := p } else x)) := by
  simp [State.setPhase, GrpSt.frames, Function.comp_def]

theorem Burst.without_frames (b : Burst) (f : TxItem) (now : Nat) : (b.without f now).frames = b.frames.erase f := by
  unfold Burst.without
  dsimp only
  split <;> rfl

/-- A frame that is lost leaves the burst and the frames that wait (R94, R103, R111, R117). -/
theorem State.fe_lose (s : State) (g : Grp) (f : TxItem) (c : Option Fld) (synth : Bool) :
    (s.lose g f c synth).fe g = { s.fe g with
      burst := (s.fe g).burst.map (fun b => b.without f s.sys.timeNs), wait := (s.fe g).wait.erase f } := by
  cases c <;>
    simp only [State.lose, State.fe_notSent, State.fe_bump, State.fe_setFe, State.fe_ite, State.fe_noteRl, ite_self,
      State.fe_updBurst]

@[simp] theorem State.frames_lose (s : State) (g : Grp) (f : TxItem) (c : Option Fld) (synth : Bool) :
    ((s.lose g f c synth).fe g).frames = (s.fe g).frames.map (fun l => l.erase f) := by
  simp [s.fe_lose g f c synth, GrpSt.frames, Burst.without_frames, Function.comp_def]

theorem State.grant_lose (s : State) (g : Grp) (f : TxItem) (c : Option Fld) (synth : Bool) :
    ((s.lose g f c synth).fe g).grant = (s.fe g).grant := by
  rw [s.fe_lose g f c synth]

/-- Frames lost one after another leave the burst; GRANT stays as sampled. -/
theorem State.lose_all (s : State) (g : Grp) (l : List TxItem) (c : Option Fld) (synth : Bool) :
    let t := l.foldl (fun s f => s.lose g f c synth) s
    (t.fe g).frames = (s.fe g).frames.map (fun k => k.diff l) ∧ (t.fe g).grant = (s.fe g).grant := by
  induction l generalizing s with
  | nil => simp
  | cons f l ih =>
    obtain ⟨frames, grant⟩ := ih (s.lose g f c synth)
    refine ⟨frames.trans ?_, grant.trans (s.grant_lose g f c synth)⟩
    simp [Function.comp_def, List.diff_cons]

/-- What is left of a list after all its members that `p` names are taken from it. -/
theorem not_of_mem_diff_filter {α : Type} [BEq α] [LawfulBEq α] {l : List α} {p : α → Bool} {x : α}
    (h : x ∈ l.diff (l.filter p)) : p x = false := by
  by_contra hp
  have all : (l.filter p).count x = l.count x := List.count_filter (by simpa using hp)
  have left := List.count_pos_iff.mpr h
  rw [List.count_diff, all] at left
  omega

/-! ### A burst that is cut (R95, R113, R117) -/

/-- A burst whose frames on the air are ended at an instant. -/
def Burst.truncated (b : Burst) (now : Nat) : Burst :=
  b.setFrames (b.frames.map (fun f =>
    if f.phase = .onAir then { f with phase := .ended, first := min f.first now, dur := now - f.first } else f))

theorem Burst.truncated_phase (b : Burst) (now : Nat) {f : TxItem} (h : f ∈ (b.truncated now).frames) : f.phase ≠ .onAir := by
  obtain ⟨x, -, rfl⟩ := List.mem_map.mp h
  split
  · simp
  · assumption

theorem State.fe_truncate (s : State) (g : Grp) {b : Burst} (under : (s.fe g).burst = some b) :
    (s.truncate g).fe g = { s.fe g with burst := some (b.truncated s.sys.timeNs) } := by
  simp only [State.truncate, under, State.fe_bumpN]
  rw [foldl_keeps (fun t : State => t.fe g) _ _ _ (fun t f => by simp)]
  simp [under, Burst.truncated]

/-- A cut ends every frame: what was on the air is ended, what had not begun is lost. -/
theorem State.cutBurst_ends (s : State) (g : Grp) (c : Fld) (synth : Bool) {b : Burst} (under : (s.fe g).burst = some b) :
    ((s.cutBurst g c synth).fe g).grant = (s.fe g).grant ∧
      ∃ b', ((s.cutBurst g c synth).fe g).burst = some b' ∧ ∀ f ∈ b'.frames, f.phase = .ended := by
  have cut := s.fe_truncate g under
  obtain ⟨frames, grant⟩ := (s.truncate g).lose_all g (b.truncated s.sys.timeNs).unstarted (some c) synth
  simp only [cut, GrpSt.frames, Option.map_some, Option.map_eq_some_iff] at frames grant
  obtain ⟨b', under', left⟩ := frames
  simp only [State.cutBurst, cut, State.fe_noteRl]
  refine ⟨grant, b', under', fun f hf => ?_⟩
  rw [left] at hf
  have started := not_of_mem_diff_filter hf
  have air := b.truncated_phase _ (List.diff_subset _ _ hf)
  simpa [air] using started

/-! ### The GRANT check (R102, R103, R110, R116) -/

/-- No frame in the composite slots: none is lacking. -/
theorem State.takeSlot_free (s : State) (g : Grp) (b : Burst) (f : TxItem) (dl : f.kind = .dl)
    (free : holders b.frames b.ramp (f.first - b.ramp) (f.first + f.dur + b.ramp) = []) :
    s.takeSlot g b f = (true, s) := by
  have some_slot : s.slots g ≠ 0 := by
    unfold State.slots
    split <;> simp
  simp [State.takeSlot, dl, free, lacking, some_slot]

/-- A node frame passes with GRANT high, XLOCK held, the burst allowed and a slot free. -/
theorem State.grantCheck_passes (s : State) (g : Grp) (b : Burst) (f : TxItem) (dl : f.kind = .dl)
    (high : s.grantHigh g = true) (hold : s.holds = true) (allow : b.allow = true)
    (free : holders b.frames b.ramp (f.first - b.ramp) (f.first + f.dur + b.ramp) = []) :
    s.grantCheck g b f = (s.updBurst g (fun b =>
      { b with paOn := some (b.paOn.getD (f.first - b.ramp - b.lead)) })).setPhase g f .checked := by
  simp [State.grantCheck, dl, high, hold, allow, s.takeSlot_free g b f dl free]

/-- The earliest frame that is due passes its GRANT check. -/
theorem exec_grantCheck (s : State) (g : Grp) (b : Burst) (f : TxItem) (grant : Bool) (under : (s.fe g).burst = some b)
    (due : earliest b.frames (fun x => x.phase = .due) = some f) (dl : f.kind = .dl) (hold : s.holds = true)
    (allow : b.allow = true) (high : grant = true ∨ s.rd (Reg.FE_COEX_EN g) = 0)
    (free : holders b.frames b.ramp (f.first - b.ramp) (f.first + f.dur + b.ramp) = []) :
    ∃ t, exec (.grantCheck g grant) s = .next t ∧ ((t.fe g).grant = grant ∧
      (t.fe g).frames = some (b.frames.map (fun x => if x = f then { x with phase := .checked } else x))) := by
  have taken : (s.setFe g { s.fe g with grant := grant }).grantHigh g = true := by
    rcases high with rfl | off
    · simp [State.grantHigh]
    · have off' : (s.setFe g { s.fe g with grant := grant }).on (Reg.FE_COEX_EN g) = false := by
        simp only [State.on_get, State.setFe_keeps]
        exact decide_eq_false (by rw [← State.rd_get, off]; decide)
      simp [State.grantHigh, off', -State.on_get]
  have hold' : (s.setFe g { s.fe g with grant := grant }).holds = true := by
    simpa [State.holds] using hold
  refine ⟨(s.setFe g { s.fe g with grant := grant }).grantCheck g b f, ?_, ?_⟩
  · have under' : ((s.setFe g { s.fe g with grant := grant }).fe g).burst = some b := by rw [State.fe_setFe]; exact under
    simp only [exec, execGrantCheck, under', due]
  · rw [State.grantCheck_passes _ g b f dl taken hold' allow free, State.frames_setPhase]
    exact ⟨by simp [State.setPhase], by simp [GrpSt.frames, under]⟩

/-! ### First and last symbol (R100) -/

/-- A node frame's commit marks its try. -/
theorem State.commitFrame_tries (s : State) (f : TxItem) (dl : f.kind = .dl) :
    (s.commitFrame f).sch.tries = s.sch.tries.map (fun t =>
      if t.kind = .dl && t.handle = f.copy.handle && t.seq = f.seq then { t with committed := true } else t) := by
  simp only [State.commitFrame, dl]
  split <;> simp

theorem exec_firstSymbol (s : State) (g : Grp) (b : Burst) (f : TxItem) (under : (s.fe g).burst = some b)
    (checked : earliest b.frames (fun x => x.phase = .checked) = some f) :
    ∃ t, exec (.firstSymbol g) s = .next t ∧
      ((t.fe g).frames = some (b.frames.map (fun x => if x = f then { x with phase := .onAir } else x)) ∧
        (f.kind = .dl → ∀ x ∈ t.sch.tries, x.kind = .dl → x.handle = f.copy.handle → x.seq = f.seq →
          x.committed = true)) := by
  refine ⟨(s.setPhase g f .onAir).commitFrame f, by simp only [exec, execFirstSymbol, under, checked], ?_,
    fun dl x hx kind handle seq => ?_⟩
  · rw [State.fe_commitFrame, State.frames_setPhase]
    simp [GrpSt.frames, under]
  · rw [State.commitFrame_tries _ f dl] at hx
    obtain ⟨y, -, rfl⟩ := List.mem_map.mp hx
    by_cases own : (y.kind = .dl && y.handle = f.copy.handle && y.seq = f.seq) = true
    · rw [if_pos own]
    · rw [if_neg own] at kind handle seq
      exact absurd (by simp [kind, handle, seq]) own

/-- The earliest end among the frames on the air, as LAST_SYMBOL_END finds it. -/
def airEnd (l : List TxItem) (r : Option TxItem) : Option TxItem :=
  l.foldl (fun (r : Option TxItem) f =>
    if f.phase ≠ .onAir then r
    else match r with
      | some x => if f.first + f.dur < x.first + x.dur then some f else r
      | none => some f) r

/-- The one frame on the air is the first to end. -/
theorem airEnd_unique (l : List TxItem) (f : TxItem) (air : f.phase = .onAir) (only : ∀ x ∈ l, x.phase = .onAir → x = f)
    (r : Option TxItem) (hr : r = some f ∨ r = none ∧ f ∈ l) : airEnd l r = some f := by
  induction l generalizing r with
  | nil => simpa [airEnd] using hr
  | cons x l ih =>
    have rest := fun y hy => only y (List.mem_cons_of_mem _ hy)
    have here := only x List.mem_cons_self
    show airEnd l _ = some f
    by_cases hx : x.phase = .onAir
    · obtain rfl := here hx
      refine ih rest _ (.inl ?_)
      rcases hr with rfl | ⟨rfl, -⟩ <;> simp [air]
    · refine ih rest _ ?_
      simp only [ne_eq, hx, not_false_eq_true, if_true]
      exact hr.imp id (fun h => ⟨h.1, (List.mem_cons.mp h.2).resolve_left (fun e => hx (by rw [← e]; exact air))⟩)

theorem exec_lastSymbolEnd (s : State) (g : Grp) (b : Burst) (f : TxItem) (under : (s.fe g).burst = some b)
    (has : f ∈ b.frames) (air : f.phase = .onAir) (only : ∀ x ∈ b.frames, x.phase = .onAir → x = f) :
    ∃ t, exec (.lastSymbolEnd g) s = .next t ∧
      (t.fe g).frames = some (b.frames.map (fun x => if x = f then { x with phase := .ended } else x)) := by
  have first := airEnd_unique b.frames f air only none (.inr ⟨rfl, has⟩)
  refine ⟨((s.setPhase g f .ended).offAir f).noteRl g, ?_, ?_⟩
  · simp only [exec, execLastSymbolEnd, under]
    change (match airEnd b.frames none with
      | none => _
      | some f => _) = _
    rw [first]
  rw [State.fe_noteRl, State.fe_offAir, State.frames_setPhase]
  simp [GrpSt.frames, under]

/-! ### GRANT falls, REQ rises (R116, R117) -/

theorem State.coexOn_setFe (s : State) (g : Grp) (x : GrpSt) : (s.setFe g x).on (Reg.FE_COEX_EN g) = s.on (Reg.FE_COEX_EN g) := by
  simp

/-- With COEX_EN set, GRANT that falls ends the burst's claim to the air. -/
theorem exec_grantLow (s : State) (g : Grp) (on : s.rd (Reg.FE_COEX_EN g) = 1) :
    exec (.grantLow g) s = .next ((s.setFe g { s.fe g with grant := false }).grantFell g) := by
  have on' : s.on (Reg.FE_COEX_EN g) = true := decide_eq_true on
  simp only [exec, execGrantLow, State.coexOn_setFe, on', if_true]

theorem State.grantFell_onAir (s : State) (g : Grp) {b : Burst} (under : (s.fe g).burst = some b)
    (air : b.frames.any (fun f => f.phase = .onAir) = true) :
    s.grantFell g = s.cutBurst g (Reg.FE_TX_ABANDON g) false := by
  simp only [State.grantFell, under, air, if_true]

theorem State.grantFell_before (s : State) (g : Grp) {b : Burst} {f : TxItem} (under : (s.fe g).burst = some b)
    (alone : b.frames = [f]) (checked : f.phase = .checked) :
    s.grantFell g = s.lose g f (some (Reg.FE_TX_ABANDON g)) false := by
  simp [State.grantFell, under, alone, checked]

/-- The one frame of a burst, past its check and not on the air, is taken off it. -/
theorem exec_grantLow_before (s : State) (g : Grp) (b : Burst) (f : TxItem) (on : s.rd (Reg.FE_COEX_EN g) = 1)
    (under : (s.fe g).burst = some b) (alone : b.frames = [f]) (checked : f.phase = .checked) :
    ∃ t, exec (.grantLow g) s = .next t ∧ ((t.fe g).grant = false ∧ (t.fe g).frames = some []) := by
  have under' : ((s.setFe g { s.fe g with grant := false }).fe g).burst = some b := by rw [State.fe_setFe]; exact under
  refine ⟨_, exec_grantLow s g on, ?_⟩
  rw [State.grantFell_before _ g under' alone checked, State.grant_lose, State.frames_lose]
  exact ⟨by rw [State.fe_setFe], by simp [GrpSt.frames, under, alone]⟩

/-- With a frame on the air every frame is ended. -/
theorem exec_grantLow_onAir (s : State) (g : Grp) (b : Burst) (on : s.rd (Reg.FE_COEX_EN g) = 1)
    (under : (s.fe g).burst = some b) (air : b.frames.any (fun f => f.phase = .onAir) = true) :
    ∃ t, exec (.grantLow g) s = .next t ∧ ((t.fe g).grant = false ∧
      ∃ b', (t.fe g).burst = some b' ∧ ∀ f ∈ b'.frames, f.phase = .ended) := by
  have under' : ((s.setFe g { s.fe g with grant := false }).fe g).burst = some b := by rw [State.fe_setFe]; exact under
  obtain ⟨grant, ended⟩ := State.cutBurst_ends _ g (Reg.FE_TX_ABANDON g) false under'
  refine ⟨_, exec_grantLow s g on, ?_⟩
  rw [State.grantFell_onAir _ g under' air]
  exact ⟨grant.trans (by rw [State.fe_setFe]), ended⟩

/-- Settles O12: a frame from its GRANT check to its last symbol; GRANT falls; REQ rises. -/
theorem framesOnTheAir : Obligations.FramesOnTheAir := by
  refine ⟨fun s g b f under _ => ⟨fun grant due dl hold allow high free => exec_grantCheck s g b f grant under due dl hold allow
    high free, exec_firstSymbol s g b f under, exec_lastSymbolEnd s g b f under⟩,
    fun s g => ⟨fun off => ?_, exec_grantLow_before s g, exec_grantLow_onAir s g, fun on => ⟨fun b under low => ?_, ?_⟩⟩⟩
  · have off' : s.on (Reg.FE_COEX_EN g) = false := decide_eq_false (by rw [off]; decide)
    simp only [exec, execGrantLow, State.coexOn_setFe, off', Bool.false_eq_true, if_false]
  · have on' : s.on (Reg.FE_COEX_EN g) = true := decide_eq_true on
    simp [exec, execReqRise, on', under, low, State.updBurst, -State.on_get]
  · intro f risen next
    have on' : s.on (Reg.FE_COEX_EN g) = true := decide_eq_true on
    cases under : (s.fe g).burst with
    | none => simp [exec, execReqRise, on', under, next, -State.on_get]
    | some b => simp [exec, execReqRise, on', under, risen b under, next, -State.on_get]

end Sys2Proof.Machine

/-!
PROOF. The tuner search against a register file whose one-bit field holds 2 (O13).
-/

namespace Sys2Proof.Machine

/-- A tuner search of FEL is under way in a device that holds XLOCK; COEX_EN, a field of one bit, is listed as 2: it reads
neither set nor 0. -/
def searchCoexTwo : State :=
  { State.reset with
    regs := [((Reg.FE_COEX_EN .L).key 0 0, 2), (Reg.TWN_TW_HOLD.key 0 0, 1)]
    feL := { GrpSt.empty with burst := some {
      first := 0, e := 0, port := some 0, frames := [], search := some 0, paOn := none, trOn := 0, drvOn := 0, req := false,
      ramp := 0, lead := 0, lag := 0, pwr := 0, aux := [], allow := true } } }

/-- A field that is not set gates nothing: the search ends NOT_MET, with GRANT low. -/
theorem searchCoexTwo_ends :
    (Outcome.get (exec (.tuneSearchEnd .L false [] [] 0) searchCoexTwo) searchCoexTwo).rd (Reg.FE_TUNE_STAT .L) = 3 := by
  decide +kernel

/-- Refutes O13: the statement takes COEX_EN as clear only where it reads 0, the model wherever it does not read 1; over a
register file that lists 2 for it, a search with GRANT low ends NOT_MET and not NO_GRANT. -/
theorem not_mismatchAndTuner : ¬ Obligations.MismatchAndTuner := by
  intro h
  obtain ⟨-, -, -, search⟩ := h searchCoexTwo .L
  obtain ⟨t, ht, -, stat⟩ := (search _ 0 false [] [] 0 rfl rfl (by decide)).1 (by decide)
  have ends := searchCoexTwo_ends
  rw [ht] at ends
  exact absurd (ends.symm.trans stat) (by decide)

end Sys2Proof.Machine

/-!
PROOF. Plan writes and slot boundaries (O15, R123, R124, R109, R223, R217).
-/

namespace Sys2Proof.Machine

/-! ### A plan write (R124) -/

/-- The first slot boundary 100 µs or more ahead. -/
theorem State.boundary_bounds (s : State) :
    s.sys.timeNs + 100000 ≤ s.boundary * 1000000 ∧ s.boundary * 1000000 < s.sys.timeNs + 1100000 := by
  unfold State.boundary ceilDiv
  omega

theorem State.planClamp_of_grn {s t : State} (h : t.grn = s.grn) (i w : Nat) : t.planClamp i w = s.planClamp i w := by
  simp only [State.planClamp, h]

/-- A plan table that holds a word, and the change that waits. -/
theorem State.planWrite_eq (s : State) (i w : Nat) :
    s.planWrite i w = State.capChange { s with
      grn.plan := mset s.grn.plan i (if s.planClamp i w = 0 then none else some (s.planClamp i w)) }
      (.plan (BitVec.ofNat 8 i) (s.planClamp i w)) := by
  unfold State.planWrite
  rfl

/-- A change waits for the boundary, with the plan in effect as it was. -/
theorem State.capChange_waits (s : State) (p : List (Nat × Word)) (c : CapChange) :
    (State.capChange { s with grn.plan := p } c).grn.live = s.grn.live ∧
      (State.capChange { s with grn.plan := p } c).grn.cap = s.grn.cap ++ [(s.boundary, c)] := ⟨rfl, rfl⟩

/-- The word reads back clamped, waits for its boundary and is not yet in effect. -/
theorem State.planWrite_waits {s t : State} (h : t.grn = s.grn) (now : t.sys.timeNs = s.sys.timeNs) (i w : Nat) :
    (mget (t.planWrite i w).grn.plan i).getD 0 = s.planClamp i w ∧ (t.planWrite i w).grn.live = s.grn.live ∧
      (t.planWrite i w).grn.cap = s.grn.cap ++ [(s.boundary, .plan (BitVec.ofNat 8 i) (s.planClamp i w))] := by
  have clamped := State.planClamp_of_grn h i w
  have bound : t.boundary = s.boundary := by simp only [State.boundary, now]
  have live := (congrArg (fun u : State => u.grn.live) (t.planWrite_eq i w)).trans (t.capChange_waits _ _).1
  have cap := (congrArg (fun u : State => u.grn.cap) (t.planWrite_eq i w)).trans (t.capChange_waits _ _).2
  rw [clamped, bound, h] at cap
  exact ⟨by rw [State.planWrite_plan, clamped, Option.getD_some], live.trans (congrArg GrnSt.live h), cap⟩

theorem exec_planEntWrite (s : State) (v : Word) (may : s.hostMay .GRN = true) :
    ∃ t, exec (.planEntWrite v) s = .next t ∧ (
      let i := s.rd Reg.GRN_PLAN_IDX
      (mget t.grn.plan i).getD 0 = s.planClamp i v.toNat ∧ t.grn.live = s.grn.live ∧
      ∃ m, s.sys.timeNs + 100000 ≤ m * 1000000 ∧ m * 1000000 < s.sys.timeNs + 1100000 ∧
        t.grn.cap = s.grn.cap ++ [(m, .plan (BitVec.ofNat 8 i) (s.planClamp i v.toNat))]) := by
  obtain ⟨soon, near⟩ := s.boundary_bounds
  have wrote := fun u h now => State.planWrite_waits (s := s) (t := u) h now (s.rd Reg.GRN_PLAN_IDX) v.toNat
  refine ⟨_, rfl, ?_⟩
  rw [s.hostOp_may _ _ _ may]
  obtain ⟨plan, live, cap⟩ := wrote { s.numbered 4 with
    staged := (s.numbered 4).staged.filter (fun p => p.1 < 0x5004 || 0x5008 ≤ p.1) } rfl rfl
  exact ⟨plan, live, s.boundary, soon, near, cap⟩

/-! ### What a boundary leaves of the registers -/

section
variable {g : Fld} (h : g.offWheel = true)
include h

@[simp] theorem State.unreach_get (s : State) (n : BitVec 18) (c : Nat) :
    g.get (s.unreach n).regs 0 c = g.get s.regs 0 c := by
  have off := fun {f} => Fld.page_offWheel h (f := f)
  unfold State.unreach
  split
  · rfl
  · dsimp only
    split
    · rw [State.get_ev_page (off rfl), State.bump_regs, Fld.get_put_page (off rfl),
        State.schedRecord_get (Fld.offQueues_of_offWheel h), State.updEntry_get (Fld.offTable_of_offWheel h)]
    · rfl

@[simp] theorem State.unreachScan_get (s : State) (l : List Nat) (c : Nat) :
    g.get (s.unreachScan l).regs 0 c = g.get s.regs 0 c :=
  foldl_keeps (fun s : State => g.get s.regs 0 c) _ _ _ (fun t _ => t.unreach_get h _ c)

@[simp] theorem State.capHeld_get (s : State) (x : Try) (c : Nat) :
    g.get (s.capHeld x).regs 0 c = g.get s.regs 0 c := by
  have off := fun {f} => Fld.page_offWheel h (f := f)
  unfold State.capHeld
  rw [State.tryEnd_get h, State.unreach_get h, State.bump_regs, Fld.get_put_page (off rfl)]
  simp

end

/-! ### A boundary with one waiting change (R124, R109, R223) -/

/-- The change whose boundary has come is taken from the list. -/
theorem State.due_one (s : State) {m : Nat} {c : CapChange} (one : s.grn.cap = [(m, c)])
    (come : m * 1000000 ≤ s.sys.timeNs) (ready : s.capReady c = true) :
    s.grn.cap.filter (fun c => c.1 * 1000000 ≤ s.sys.timeNs && s.capReady c.2) = [(m, c)] ∧
      s.grn.cap.filter (fun c => !(c.1 * 1000000 ≤ s.sys.timeNs && s.capReady c.2)) = [] := by
  simp [one, come, ready]

@[simp] theorem State.abortLanes_grn (s : State) (p : Nat × Lane → Bool) (f : Fld) :
    (s.abortLanes p f).grn = { s.grn with lanes := s.grn.lanes.filter (fun l => !p l) } := rfl

@[simp] theorem State.abortLanes_regs (s : State) (p : Nat × Lane → Bool) (f : Fld) :
    (s.abortLanes p f).regs = f.put s.regs 0 0 (min (f.get s.regs 0 0 + (s.grn.lanes.filter p).length) (2 ^ f.width - 1)) :=
  rfl

@[simp] theorem State.fe_abortLanes (s : State) (p : Nat × Lane → Bool) (f : Fld) (g : Grp) :
    (s.abortLanes p f).fe g = s.fe g := State.fe_of_parts rfl rfl rfl g

/-- The word that a boundary puts in effect. -/
theorem State.applyPlan_live (s : State) (i : Nat) (v : Word) : (mget (s.applyPlan i v).grn.live i).getD 0 = v := by
  by_cases zero : v = 0#32 <;> simp [State.applyPlan, zero]

/-- Port enables as they take effect (R109). -/
theorem State.fe_applyPorts (s : State) (g : Grp) (rx tx : BitVec 4) :
    (s.applyPorts g rx tx).fe g = { s.fe g with rxEn := rx, txEn := tx } := by
  rw [State.applyPorts, State.fe_abortLanes]
  exact (State.fe_of_parts rfl rfl rfl g).trans (s.fe_setFe g _)

theorem State.applyPorts_plan (s : State) (g : Grp) (rx tx : BitVec 4) :
    (s.applyPorts g rx tx).grn.cap = s.grn.cap ∧ (s.applyPorts g rx tx).grn.live = s.grn.live := by
  simp [State.applyPorts]

/-- What a boundary does for plan entries that are removed: their node frames that have not begun are held, their nodes
become UNREACHABLE, and the scan of R217 begins. -/
def State.removed (s : State) (gone : List Nat) (held : List Try) : State :=
  let s := held.foldl State.capHeld s
  if gone.isEmpty then s
  else { (if s.runs .NTB then s.unreachScan gone else s) with sch.scan := some (s.sch.scan.getD [] ++ gone) }

@[simp] theorem State.removed_grn (s : State) (gone : List Nat) (held : List Try) : (s.removed gone held).grn = s.grn := by
  have first : (held.foldl State.capHeld s).grn = s.grn := foldl_keeps State.grn _ _ _ (fun t x => by simp)
  unfold State.removed
  (repeat' split) <;> simp [first]

theorem State.removed_get {g : Fld} (h : g.offWheel = true) (s : State) (gone : List Nat) (held : List Try) :
    g.get (s.removed gone held).regs 0 0 = g.get s.regs 0 0 := by
  have first : g.get (held.foldl State.capHeld s).regs 0 0 = g.get s.regs 0 0 :=
    foldl_keeps (fun s : State => g.get s.regs 0 0) _ _ _ (fun t x => t.capHeld_get h x 0)
  unfold State.removed
  dsimp only
  split
  · exact first
  · dsimp only
    split
    · exact (State.unreachScan_get h ..).trans first
    · exact first

section
variable (s : State) {m : Nat} (run : s.runs .SCH = true) (come : m * 1000000 ≤ s.sys.timeNs)
include run come

/-- A change that is no plan word takes effect alone. -/
theorem exec_capBoundary_other {c : CapChange} (one : s.grn.cap = [(m, c)]) (ready : s.capReady c = true)
    (other : lastPlan [(m, c)] = []) :
    exec .capBoundary s =
      .next (((State.applyCap { s with grn.cap := [] } c).applyTwin c).wr Reg.SCH_CAP_LAST m) := by
  obtain ⟨due, rest⟩ := s.due_one one come ready
  simp only [exec, execCapBoundary, due, rest, run, other]
  simp

/-- A plan word takes effect, and then the removals it makes. -/
theorem exec_capBoundary_word (e : Byte) (v : Word) (one : s.grn.cap = [(m, .plan e v)]) (ready : s.runs .GRN = true) :
    ∃ gone held, exec .capBoundary s = .next ((State.removed
      ((State.applyPlan { s with grn.cap := [] } e.toNat v).ev Reg.GRN_GRN_EVT 1 56) gone held).wr Reg.SCH_CAP_LAST m) := by
  obtain ⟨due, rest⟩ := s.due_one one come ready
  have word : lastPlan [(m, .plan e v)] = [(e.toNat, v)] := rfl
  have last : max 0 m = m := Nat.zero_max m
  have step := rfl (a := execCapBoundary s)
  conv at step =>
    rhs
    simp only [execCapBoundary, due, rest, run, word, List.isEmpty_cons, Bool.or_self, Bool.not_true, Bool.false_eq_true,
      if_false, List.foldl_cons, List.foldl_nil, last]
  exact ⟨_, _, step⟩

/-- A plan word takes effect (R124). -/
theorem exec_capBoundary_plan (e : Byte) (v : Word) (one : s.grn.cap = [(m, .plan e v)]) (ready : s.runs .GRN = true) :
    ∃ t, exec .capBoundary s = .next t ∧ ((mget t.grn.live e.toNat).getD 0 = v ∧ t.grn.cap = [] ∧
      t.rd Reg.SCH_CAP_LAST = m % 2 ^ 32 ∧ (t.rd Reg.GRN_GRN_EVT).testBit 1 = true) := by
  obtain ⟨gone, held, step⟩ := exec_capBoundary_word s run come e v one ready
  refine ⟨_, step, ?_, ?_, State.rd_wr_same .., ?_⟩
  · simp only [State.wr_keeps, State.removed_grn, State.ev_keeps, State.applyPlan_live]
  · simp [State.applyPlan]
  · rw [State.rd_get, State.wr_regs, Fld.get_put_page (by decide), State.removed_get (by decide)]
    exact State.ev_testBit _ _ (by decide : 1 < 2)

/-- Port enables take effect (R109). -/
theorem exec_capBoundary_ports (g : Grp) (rx tx : BitVec 4) (one : s.grn.cap = [(m, .ports g rx tx)])
    (ready : s.runs g.isl = true) :
    ∃ t, exec .capBoundary s = .next t ∧ ((t.fe g).rxEn = rx ∧ (t.fe g).txEn = tx ∧ t.grn.cap = [] ∧
      t.rd Reg.SCH_CAP_LAST = m % 2 ^ 32 ∧ t.grn.live = s.grn.live) := by
  refine ⟨_, exec_capBoundary_other s run come one ready rfl, ?_⟩
  simp only [State.applyTwin, State.applyCap]
  obtain ⟨cap, live⟩ := State.applyPorts_plan { s with grn.cap := [] } g rx tx
  exact ⟨by simp [State.fe_applyPorts], by simp [State.fe_applyPorts], by simp [cap], by simp; rfl, by simp [live]⟩

/-- The twin joins, or leaves (R223). -/
theorem exec_capBoundary_twinJoin (one : s.grn.cap = [(m, .twinJoin)]) (ready : s.runs .TWN = true) :
    ∃ t, exec .capBoundary s = .next t ∧ (t.twn.joined = true ∧ t.twn.fullCopy = true ∧ t.grn.cap = []) :=
  ⟨_, exec_capBoundary_other s run come one ready rfl, rfl, rfl, rfl⟩

theorem exec_capBoundary_twinLeave (one : s.grn.cap = [(m, .twinLeave)]) (ready : s.runs .TWN = true) :
    ∃ t, exec .capBoundary s = .next t ∧ (t.twn.joined = false ∧ t.grn.cap = []) :=
  ⟨_, exec_capBoundary_other s run come one ready rfl, rfl, rfl⟩

end

/-- Settles O15: a word waits for its boundary; each kind of change takes effect at its own; the scan ends. -/
theorem planWriteAndBoundary : Obligations.PlanWriteAndBoundary := by
  intro s
  refine ⟨exec_planEntWrite s, fun m run come => ⟨exec_capBoundary_plan s run come, exec_capBoundary_ports s run come,
    exec_capBoundary_twinJoin s run come, exec_capBoundary_twinLeave s run come⟩, fun l scan run tab => ?_⟩
  simp [exec, execScanDone, scan, run, tab]

end Sys2Proof.Machine

/-!
PROOF. Detections, the qualifier and the noise floor (O16, R125 to R129, R134, R139).
-/

namespace Sys2Proof.Machine

/-! ### A detection takes a lane (R127 to R129) -/

/-- The lane that a detection takes, and no other, is changed. -/
theorem State.takeLane_lanes (s : State) (n : Nat) (e : Byte) (opt : BitVec 2) (m : Byte) (priv : Bool) :
    ∃ l, mget (s.takeLane n e opt m priv).grn.lanes n = some l ∧ l.ent = e ∧ l.opt = opt ∧ l.metric = m ∧
      l.decoding = false ∧ l.since = s.sys.uptime ∧
      ∀ k, k ≠ n → mget (s.takeLane n e opt m priv).grn.lanes k = mget s.grn.lanes k := by
  simp only [State.takeLane, State.peak_keeps]
  exact ⟨_, mget_mput_same _ _ _, rfl, rfl, rfl, rfl, rfl, fun k hk => mget_mput_other _ _ _ _ hk⟩

/-- An entry's own reserved lane is taken while it is IDLE. -/
theorem State.placeDet_own (s : State) (e : Byte) (opt : BitVec 2) (m : Byte) (priv : Bool) {n : Nat}
    (own : s.rsvOf e.toNat = some n) (idle : s.laneIdle n = true) :
    s.placeDet e opt m priv = s.takeLane n e opt m priv := by
  simp only [State.placeDet, own, idle, if_true]

/-- A fold whose steps each leave the value leaves it. -/
theorem foldl_fixed_of_mem {α β : Type} (f : β → α → β) (b : β) (l : List α) (h : ∀ a ∈ l, f b a = b) : l.foldl f b = b := by
  induction l with
  | nil => rfl
  | cons a l ih =>
    rw [List.foldl_cons, h a List.mem_cons_self]
    exact ih (fun x hx => h x (List.mem_cons_of_mem _ hx))

/-- The first shared lane that is IDLE is taken by an entry without a reserved lane and without a detection under way. -/
theorem State.placeDet_shared (s : State) (e : Byte) (opt : BitVec 2) (m : Byte) (priv : Bool) {n : Nat}
    (none_own : s.rsvOf e.toNat = none) (alone : ∀ p ∈ s.grn.lanes, p.2.ent ≠ e) (lane : n < 96)
    (shared : s.isRsv n = false) (idle : s.laneIdle n = true) (first : ∀ j < n, s.isRsv j = true ∨ s.laneIdle j = false) :
    s.placeDet e opt m priv = s.takeLane n e opt m priv := by
  have found : (List.range 96).find? (fun n => !s.isRsv n && s.laneIdle n) = some n := by
    rw [List.find?_range_eq_some]
    refine ⟨by simp [shared, idle], List.mem_range.mpr lane, fun j hj => ?_⟩
    rcases first j hj with h | h <;> simp [h]
  simp only [State.placeDet, none_own]
  rw [foldl_fixed_of_mem _ _ _ (fun p hp => if_neg (by simp [alone p hp]))]
  simp only [found]

theorem exec_detection (s : State) (e : Byte) (opt : BitVec 2) (m : Byte) (streams : s.streams e = true)
    (slow : s.fastPath e = false) (named : (planOpts (s.planAt e)).testBit opt.toNat = true)
    (reaches : s.srchThr (s.chanGrp e) ≤ m.toNat) :
    exec (.detection e opt m) s = .next (s.detect e opt m false) := by
  simp only [exec, execDetection, streams, slow, named, decide_eq_true reaches, Bool.not_false, Bool.and_self, if_true]

/-- What a detection counts before it is placed. -/
theorem State.detect_eq (s : State) (e : Byte) (opt : BitVec 2) (m : Byte) (priv : Bool) :
    s.detect e opt m priv = if s.aliased e opt then
      ((s.wrap Reg.GRN_DET_CNT).bumpB Reg.GRN_ENT_DET e.toNat).bump Reg.GRN_DET_ALIAS
    else ((s.wrap Reg.GRN_DET_CNT).bumpB Reg.GRN_ENT_DET e.toNat).placeDet e opt m priv := rfl

/-- A detection of a frame not yet detected takes its lane. -/
theorem State.detect_takes (s : State) (e : Byte) (opt : BitVec 2) (m : Byte) (priv : Bool) (n : Nat)
    (fresh : s.aliased e opt = false)
    (lane : s.rsvOf e.toNat = some n ∧ s.laneIdle n = true ∨
      s.rsvOf e.toNat = none ∧ (∀ p ∈ s.grn.lanes, p.2.ent ≠ e) ∧ n < 96 ∧ s.isRsv n = false ∧ s.laneIdle n = true ∧
        (∀ j < n, s.isRsv j = true ∨ s.laneIdle j = false)) :
    s.detect e opt m priv = ((s.wrap Reg.GRN_DET_CNT).bumpB Reg.GRN_ENT_DET e.toNat).takeLane n e opt m priv := by
  rw [s.detect_eq, if_neg (by simp [fresh])]
  rcases lane with ⟨own, idle⟩ | ⟨none_own, alone, lane, shared, idle, first⟩
  · exact State.placeDet_own _ e opt m priv own idle
  · exact State.placeDet_shared _ e opt m priv none_own alone lane shared idle first

/-! ### Energy detection (R134) -/

/-- A window above the floor of an enabled aerial starts the qualifier. -/
theorem exec_edWindow (s : State) (e : Byte) (pw : List Int) (i : Nat) (streams : s.streams e = true)
    (fast : s.fastPath e = true) (free : s.grn.qual.contains e.toNat = false) (aerial : i < 4)
    (enabled : (s.fe (s.chanGrp e)).rxEn.getLsbD i = true)
    (above : -140000 + 500 * ((((mget s.grn.nf e.toNat).elim [] (fun n => n.vals)).getD i 0 : Nat) : Int) +
      500 * (bits (s.planAt e) 24 8 : Nat) ≤ pw.getD i (-200000)) :
    exec (.edWindow e pw) s = .next ({ s with grn.qual := s.grn.qual ++ [e.toNat] }) := by
  have hit : (List.range 4).any (fun i => (s.fe (s.chanGrp e)).rxEn.getLsbD i &&
      -140000 + 500 * ((((mget s.grn.nf e.toNat).elim [] (fun n => n.vals)).getD i 0 : Nat) : Int) +
        500 * (bits (s.planAt e) 24 8 : Nat) ≤ pw.getD i (-200000)) = true :=
    List.any_eq_true.mpr ⟨i, List.mem_range.mpr aerial, by simp only [enabled, decide_eq_true above, Bool.and_self]⟩
  simp only [exec, execEdWindow, streams, fast, free, Bool.not_false, Bool.and_self, if_true, hit]

theorem exec_qualifierEnd (s : State) (e : Byte) (opt : BitVec 2) (m : Byte) (under : s.grn.qual.contains e.toNat = true)
    (streams : s.streams e = true) :
    let s' := { s with grn.qual := s.grn.qual.erase e.toNat }
    exec (.qualifierEnd e opt m) s =
      .next (if (planOpts (s.planAt e)).testBit opt.toNat = true ∧ s.srchThr (s.chanGrp e) ≤ m.toNat
        then s'.detect e opt m true else s'.bump Reg.GRN_ED_REJECT) := by
  intro s'
  have streams' : s'.streams e = true := streams
  have plan : s'.planAt e = s.planAt e := rfl
  have thr : s'.srchThr (s'.chanGrp e) = s.srchThr (s.chanGrp e) := rfl
  simp only [exec, execQualifierEnd, under, if_true]
  change (if !s'.streams e then _ else if (planOpts (s'.planAt e)).testBit opt.toNat &&
    decide (s'.srchThr (s'.chanGrp e) ≤ m.toNat) then _ else _) = _
  rw [streams', plan, thr]
  simp only [Bool.not_true, Bool.false_eq_true, if_false, Bool.and_eq_true, decide_eq_true_eq]
  split <;> rfl

/-! ### The noise floor (R139) -/

theorem exec_nfWindowDone (s : State) (e : Byte) (pw : List Int) (streams : s.streams e = true)
    (alone : ∀ p ∈ s.grn.lanes, p.2.ent ≠ e) :
    exec (.nfWindowDone e pw) s = .next ({ s with grn.nf := mput s.grn.nf e.toNat { vals := (List.range 4).map (fun i =>
      if (s.fe (s.chanGrp e)).rxEn.getLsbD i then
        (max 0 (min 255 (roundDiv (pw.getD i (-140000) + 140000) 500))).toNat else 0), done := some s.sys.uptime } }) := by
  have none_of : s.grn.lanes.any (fun p => p.2.ent = e) = false := by simpa using alone
  simp only [exec, execNfWindowDone, streams, none_of, Bool.not_false, Bool.and_self, if_true]

/-- Settles O16: a detection, an energy window, the end of a qualifier and a noise-floor window. -/
theorem detections : Obligations.Detections := by
  refine ⟨fun s e opt m streams slow named reaches => ⟨fun aliased => ?_, fun n fresh lane => ?_⟩, fun s e => ⟨?_, ?_⟩,
    fun s e pw streams alone => ?_⟩
  · refine ⟨_, exec_detection s e opt m streams slow named reaches, ?_⟩
    rw [s.detect_eq, if_pos aliased]
    rfl
  · refine ⟨_, exec_detection s e opt m streams slow named reaches, ?_⟩
    rw [s.detect_takes e opt m false n fresh lane]
    exact State.takeLane_lanes ..
  · exact fun pw i streams fast free aerial enabled above => exec_edWindow s e pw i streams fast free aerial enabled above
  · exact fun opt m under streams => ⟨_, exec_qualifierEnd s e opt m under streams, rfl⟩
  · refine ⟨_, exec_nfWindowDone s e pw streams alone, fun k hk => mget_mput_other _ _ _ _ hk, rfl, _,
      mget_mput_same _ _ _, rfl, by simp, fun i hi => ?_⟩
    simp [List.getD_eq_getElem?_getD, hi]

end Sys2Proof.Machine

/-!
PROOF. A lane from its header to the end of its reception (O17, R27, R132, R137, R138, R147 to R149, R235).
-/

namespace Sys2Proof.Machine

/-! ### The header (R131, R132, R137) -/

/-- A header is taken where it passes its check and carries a rate of the option and a LENGTH above the FCS. -/
theorem State.phrOf_good (s : State) (n : Nat) (l : Lane) (phr : List Bool) (ok : phrOk phr = true)
    (low : minMcs l.opt ≤ natOf (phr.take 5)) (high : natOf (phr.take 5) ≤ maxMcs l.opt)
    (long : s.fcsLen < natOf ((phr.drop 6).take 11)) :
    s.phrOf n l phr = { s with grn.lanes := mput s.grn.lanes n { l with
      decoding := true, mcs := BitVec.ofNat 3 (natOf (phr.take 5)), len := natOf ((phr.drop 6).take 11),
      scr := BitVec.ofNat 2 (natOf ((phr.drop 18).take 2)) } } := by
  have rate : (decide (natOf (phr.take 5) < minMcs l.opt) || decide (maxMcs l.opt < natOf (phr.take 5))) = false := by
    simp [low, high]
  simp only [State.phrOf, ok, rate, Nat.not_le.mpr long, Bool.not_true, Bool.false_eq_true, if_false]

/-- A header that is not taken is counted under its one cause and frees the lane. -/
theorem State.phrOf_bad (s : State) (n : Nat) (l : Lane) (phr : List Bool)
    (bad : ¬ (phrOk phr = true ∧ minMcs l.opt ≤ natOf (phr.take 5) ∧ natOf (phr.take 5) ≤ maxMcs l.opt ∧
      s.fcsLen < natOf ((phr.drop 6).take 11))) :
    s.phrOf n l phr = ((s.bump (if phrOk phr = false then Reg.PHY_PHR_HCS_BAD
      else if natOf (phr.take 5) < minMcs l.opt ∨ maxMcs l.opt < natOf (phr.take 5) then Reg.PHY_PHR_RATE_BAD
      else Reg.PHY_PHR_LEN_BAD)).bump Reg.GRN_PHR_BAD).freeLane n := by
  unfold State.phrOf
  dsimp only
  by_cases ok : phrOk phr = true
  · by_cases rate : natOf (phr.take 5) < minMcs l.opt ∨ maxMcs l.opt < natOf (phr.take 5)
    · simp only [ok, rate, Bool.or_eq_true, decide_eq_true_eq, Bool.not_true, Bool.false_eq_true, Bool.true_eq_false, if_false,
        if_true]
    · have short : natOf ((phr.drop 6).take 11) ≤ s.fcsLen := by
        by_contra long
        exact bad ⟨ok, by omega, by omega, by omega⟩
      simp only [ok, rate, short, Bool.or_eq_true, decide_eq_true_eq, Bool.not_true, Bool.false_eq_true, Bool.true_eq_false,
        if_false, if_true]
  · simp only [Bool.not_eq_true] at ok
    simp only [ok, Bool.not_false, if_true]

theorem exec_phrReport (s : State) (n : Nat) (l : Lane) (first : List Int) (rest : List (List Int))
    (lane : mget s.grn.lanes n = some l) (acquiring : l.decoding = false) (grn : s.runs .GRN = true)
    (phy : s.runs .PHY = true) (kept : s.grn.late.contains n = false) :
    exec (.phrReport n first rest) s = .next (s.phrOf n l (decodePhr (first :: rest))) := by
  simp only [exec, execPhrReport, lane, acquiring, grn, phy, kept, Bool.not_true, Bool.or_self, Bool.false_eq_true, if_false]

/-! ### What a counter leaves of the run bits and the twin -/

theorem State.runs_of_rd {s t : State} (l : t.rd Reg.SYS_ISL_RUN_L = s.rd Reg.SYS_ISL_RUN_L)
    (h : t.rd Reg.SYS_ISL_RUN_H = s.rd Reg.SYS_ISL_RUN_H) (i : Isl) : t.runs i = s.runs i := by
  simp only [State.runs, l, h]

theorem State.quiet_of_rd {s t : State} (h : t.rd Reg.TWN_TW_STATE = s.rd Reg.TWN_TW_STATE) (twn : t.twn = s.twn) :
    t.quiet = s.quiet := by
  simp only [State.quiet, State.standby, h, twn]

theorem State.runs_wrap {f : Fld} (h : Reg.SYS_ISL_RUN_L.page ≠ f.page) (s : State) (i : Isl) :
    (s.wrap f).runs i = s.runs i :=
  State.runs_of_rd (by rw [State.rd_get, State.wrap_regs, Fld.get_put_page h, State.rd_get])
    (by rw [State.rd_get, State.wrap_regs, Fld.get_put_page (by exact h), State.rd_get]) i

theorem State.quiet_wrap {f : Fld} (h : Reg.TWN_TW_STATE.page ≠ f.page) (s : State) : (s.wrap f).quiet = s.quiet :=
  State.quiet_of_rd (by rw [State.rd_get, State.wrap_regs, Fld.get_put_page h, State.rd_get]) rfl

/-! ### The end of a reception (R27, R138, R235) -/

theorem insertUl_length (l : List UlItem) (u : UlItem) : (insertUl l u).length = l.length + 1 := by
  induction l with
  | nil => rfl
  | cons x t ih =>
    unfold insertUl
    split
    · rfl
    · simp [ih]

theorem mem_insertUl (l : List UlItem) (u : UlItem) : u ∈ insertUl l u := by
  induction l with
  | nil => exact List.mem_singleton_self u
  | cons x t ih =>
    unfold insertUl
    split
    · exact List.mem_cons_self
    · exact List.mem_cons_of_mem _ ih

/-- A lane that is IDLE stays so when lanes are aborted. -/
theorem mget_filter_none {α : Type} {l : List (Nat × α)} {n : Nat} (h : mget l n = none) (p : Nat × α → Bool) :
    mget (l.filter p) n = none := by
  induction l with
  | nil => rfl
  | cons x t ih =>
    obtain ⟨k, v⟩ := x
    have other : n ≠ k := fun e => by simp [mget, e] at h
    have rest : mget t n = none := by simpa [mget, other] using h
    rw [List.filter_cons]
    split
    · simpa [mget, other] using ih rest
    · exact ih rest

theorem State.beginBurst_grn (s : State) (g : Grp) (first : Nat) (port search : Option Nat) (e : Nat) (l : List TxItem) :
    (s.beginBurst g first port search e l).grn =
      { s.grn with lanes := s.grn.lanes.filter (fun l => !(decide (s.chanGrp l.2.ent = g))) } := by
  simp only [State.beginBurst, State.setFe_keeps]
  rfl

/-- Of GRN, the burst of an acknowledgement changes the lanes of its group alone. -/
theorem State.ackDeclare_grn (s : State) (g : Grp) (id : Nat) (m : RxMeta) (eui : Word64) :
    (s.ackDeclare g id m eui).grn =
      { s.grn with lanes := s.grn.lanes.filter (fun l => !(decide (s.chanGrp l.2.ent = g))) } := by
  unfold State.ackDeclare
  dsimp only
  split
  · simp only [State.joinWaiting_keeps, State.beginBurst_grn]
    rfl
  · simp only [State.joinWaiting_keeps, State.lose_keeps, State.beginBurst_grn]
    rfl

/-- The item that a reception hands to PHY's release order. -/
def State.ulOf (s : State) (l : Lane) (r : Reception) (p : Psdu) : UlItem :=
  { id := s.grn.recvNo, grp := s.chanGrp l.ent, rx := s.metaOf l r, psdu := p, tones := r.tones.map (fun x => min x 127),
    copy := none, ulSeq := 0, epoch := s.epochCur, auth := .unchecked, dup := false }

/-- The frame takes its place in the release order under the next number. -/
def State.ulNumbered (s : State) (l : Lane) (r : Reception) (p : Psdu) : State :=
  { s with grn.recvNo := s.grn.recvNo + 1, phy.ul := insertUl s.phy.ul (s.ulOf l r p) }

theorem State.received_eq (s : State) (l : Lane) (r : Reception) (p : Psdu) :
    s.received l r p = if p.ackReq && s.runs .SCH && !s.quiet then
      (s.ulNumbered l r p).ackDeclare (s.chanGrp l.ent) s.grn.recvNo (s.metaOf l r) p.eui else s.ulNumbered l r p := rfl

theorem State.received_places (s : State) (l : Lane) (r : Reception) (p : Psdu) :
    (s.received l r p).phy.ul = insertUl s.phy.ul (s.ulOf l r p) ∧ (s.received l r p).grn.recvNo = s.grn.recvNo + 1 ∧
      ∀ n, mget s.grn.lanes n = none → mget (s.received l r p).grn.lanes n = none := by
  rw [State.received_eq]
  split
  · simp only [State.ackDeclare_grn, State.ackDeclare_keeps]
    exact ⟨rfl, rfl, fun n idle => mget_filter_none idle _⟩
  · exact ⟨rfl, rfl, fun n idle => idle⟩

theorem State.choosePort_wrap_acksDecl (s : State) (g : Grp) :
    (s.wrap Reg.SCH_ACKS_DECL).choosePort g = s.choosePort g := by
  cases g <;> simp (disch := decide) [State.choosePort]

theorem State.choosePort_wrap_rxFrames (s : State) (g : Grp) :
    (s.wrap Reg.PHY_RX_FRAMES).choosePort g = s.choosePort g := by
  cases g <;> simp (disch := decide) [State.choosePort]

theorem State.beginBurst_wait_nil (s : State) (g : Grp) (first : Nat) (port search : Option Nat) (e : Nat) (l : List TxItem)
    (h : (s.fe g).wait = []) : ((s.beginBurst g first port search e l).fe g).wait = [] := by
  simp [State.beginBurst, h]

/-- An acknowledgement as it is declared (R235). -/
def ackDeclOf (m : RxMeta) (g : Grp) (id : Nat) : AckDecl :=
  { id := id, grp := g, chan := m.chan, opt := m.opt, mcs := m.mcs, endTime := m.endTime, classified := false, opp := none }

/-- With no frame waiting on its group, the acknowledgement declared is the last one, not yet classified. -/
theorem State.ackDeclare_acks (s : State) (g : Grp) (id : Nat) (m : RxMeta) (eui : Word64) {port : Nat}
    (alone : (s.fe g).wait = []) (free : s.choosePort g = some port) :
    (s.ackDeclare g id m eui).sch.acks = s.sch.acks ++ [ackDeclOf m g id] := by
  have free' := (s.choosePort_wrap_acksDecl g).trans free
  have alone' : ((s.wrap Reg.SCH_ACKS_DECL).fe g).wait = [] := by rw [State.fe_wrap, alone]
  unfold State.ackDeclare
  dsimp only
  split
  · refine (congrArg (fun t : State => t.sch.acks)
      (State.joinWaiting_empty _ g _ (State.beginBurst_wait_nil _ _ _ _ _ _ _ (by exact alone')))).trans ?_
    simp only [State.beginBurst_keeps, State.wrap_keeps]
    rfl
  · rename_i closed
    exact absurd (free'.symm.trans closed) (by simp)

theorem exec_receptionEnd (s : State) (n : Nat) (l : Lane) (r : Reception) (lane : mget s.grn.lanes n = some l)
    (decoding : l.decoding = true) (grn : s.runs .GRN = true) (phy : s.runs .PHY = true) {b : List Byte}
    (good : s.mpduOf l r = some b) {p : Psdu} (frame : readPsdu b r.mic r.plain = some p) :
    exec (.receptionEnd n r) s = .next (((s.freeLane n).wrap Reg.PHY_RX_FRAMES).received l r p) := by
  simp only [exec, execReceptionEnd, lane, decoding, grn, phy, good, frame, Bool.not_true, Bool.or_self, Bool.false_eq_true,
    if_false]

/-- Settles O17: a header, its lane's timeout, and the end of a reception. -/
theorem receptions : Obligations.Receptions := by
  refine ⟨⟨fun s n l lane acquiring grn => ⟨fun first rest phy kept => ?_, ?_⟩, fun s n first rest grn phy late => ?_⟩,
    fun s n l r lane decoding grn phy => ⟨fun bad => ?_, fun b good => ⟨fun frame => ?_, fun p frame => ⟨?_, fun quiet => ?_,
      fun port ask sch awake alone free => ?_⟩⟩⟩⟩
  · refine ⟨_, exec_phrReport s n l first rest lane acquiring grn phy kept, ?_⟩
    split
    · rename_i ok
      exact s.phrOf_good n l _ ok.1 ok.2.1 ok.2.2.1 ok.2.2.2
    · exact s.phrOf_bad n l _ ‹_›
  · simp only [exec, execAcqTimeout, lane, acquiring, grn, Bool.not_true, Bool.or_self, Bool.false_eq_true, if_false]
  · simp only [exec, execPhrReport, grn, phy, late, Bool.not_true, Bool.or_self, Bool.false_eq_true, if_false, if_true]
  · simp only [exec, execReceptionEnd, lane, decoding, grn, phy, bad, Bool.not_true, Bool.or_self, Bool.false_eq_true, if_false]
  · simp only [exec, execReceptionEnd, lane, decoding, grn, phy, good, frame, Bool.not_true, Bool.or_self, Bool.false_eq_true,
      if_false]
  · refine ⟨_, exec_receptionEnd s n l r lane decoding grn phy good frame, ?_⟩
    obtain ⟨order, number, idle⟩ := State.received_places ((s.freeLane n).wrap Reg.PHY_RX_FRAMES) l r p
    refine ⟨idle n (by simp [State.freeLane, mget_mdel]), ?_, number, _, order ▸ mem_insertUl _ _, rfl, rfl, rfl, rfl, rfl, rfl, rfl, rfl,
      fun x hx => ?_⟩
    · rw [order, insertUl_length]
      rfl
    · obtain ⟨y, -, rfl⟩ := List.mem_map.mp hx
      exact min_le_right _ _
  · refine ⟨_, exec_receptionEnd s n l r lane decoding grn phy good frame, ?_⟩
    rw [State.received_eq, if_neg (by simp [quiet])]
    exact ⟨rfl, Fld.get_put_same _ _ _ _ _⟩
  · refine ⟨_, exec_receptionEnd s n l r lane decoding grn phy good frame, ?_⟩
    have runs : ((s.freeLane n).wrap Reg.PHY_RX_FRAMES).runs .SCH = true := by
      rw [State.runs_wrap (by decide), ← sch]
      rfl
    have awake' : ((s.freeLane n).wrap Reg.PHY_RX_FRAMES).quiet = false := by
      rw [State.quiet_wrap (by decide), ← awake]
      rfl
    rw [State.received_eq, if_pos (by rw [ask, runs, awake']; rfl),
      State.ackDeclare_acks _ _ _ _ _ (port := port) (by exact alone) (by
        exact ((s.freeLane n).choosePort_wrap_rxFrames _).trans free)]
    exact ⟨_, rfl, rfl, rfl, rfl, rfl, rfl, rfl⟩

end Sys2Proof.Machine

/-!
PROOF. PHY: releases, modulation and tone maps (O18, O19, R27, R144, R150, R160 to R168).
-/

namespace Sys2Proof.Machine

/-! ### Release and modulation (R27, R144, R150, R163) -/

theorem exec_ulRelease (s : State) (u : UlItem) (rest : List UlItem) (order : s.phy.ul = u :: rest) (phy : s.runs .PHY = true)
    (ntb : s.runs .NTB = true) (past : u.rx.endTime < s.sys.timeNs) :
    exec .ulRelease s = .next ({ s with phy.ul := rest, ntb.ul := s.ntb.ul ++ [u] }) := by
  simp only [exec, execUlRelease, order, phy, ntb, decide_eq_true past, Bool.and_self, if_true]

/-- An item that is not tone-loaded has no tone map. -/
theorem State.toneMap_plain (s : State) (f : TxItem) (plain : f.kind ≠ .dl ∨ f.copy.tl = false) : s.toneMap f = none := by
  unfold State.toneMap
  rcases plain with h | h <;> simp [h]

@[simp] theorem State.fe_mapLeave (s : State) (f : TxItem) (g : Grp) : (s.mapLeave f).fe g = s.fe g :=
  State.fe_of_parts (by simp) (by simp) (by simp) g

@[simp] theorem State.fe_mapParity (s : State) (i : BitVec 12) (g : Grp) : (s.mapParity i).fe g = s.fe g :=
  State.fe_of_parts (by simp) (by simp) (by simp) g

theorem State.mapParity_tx (s : State) (i : BitVec 12) : (s.mapParity i).phy.tx = s.phy.tx := by
  unfold State.mapParity
  split
  · split
    · simp
    · rfl
  · rfl

theorem State.mapParity_txFrames (s : State) (i : BitVec 12) :
    Reg.PHY_TX_FRAMES.get (s.mapParity i).regs 0 0 = Reg.PHY_TX_FRAMES.get s.regs 0 0 := by
  unfold State.mapParity
  split
  · split
    · simp (disch := decide)
    · rfl
  · rfl

theorem State.mapLeave_tx (s : State) (f : TxItem) : (s.mapLeave f).phy.tx = s.phy.tx := by
  unfold State.mapLeave
  split
  · split <;> rfl
  · rfl

/-- PHY counts the item that it has modulated, and lets its tone map go. -/
def State.modulated (s : State) (f : TxItem) (fell loaded : Bool) (d : Nat) : State :=
  let s := if fell then s.bump Reg.PHY_TL_FALLBACK else s
  (((if loaded then s.wrap Reg.PHY_TX_TL else s).wrap Reg.PHY_TX_FRAMES).mapLeave f).tryDur f d

theorem State.fe_modulated (s : State) (f : TxItem) (fell loaded : Bool) (d : Nat) (g : Grp) :
    (s.modulated f fell loaded d).fe g = s.fe g := by
  cases fell <;> cases loaded <;> simp [State.modulated]

theorem State.modulated_tx (s : State) (f : TxItem) (fell loaded : Bool) (d : Nat) :
    (s.modulated f fell loaded d).phy.tx = s.phy.tx := by
  cases fell <;> cases loaded <;> simp [State.modulated, State.mapLeave_tx]

theorem State.modulated_counts (s : State) (f : TxItem) (fell loaded : Bool) (d : Nat) :
    Reg.PHY_TX_FRAMES.get (s.modulated f fell loaded d).regs 0 0 = (Reg.PHY_TX_FRAMES.get s.regs 0 0 + 1) % 2 ^ 32 := by
  have width : Reg.PHY_TX_FRAMES.width = 32 := rfl
  cases fell <;> cases loaded <;> simp (disch := decide) [State.modulated, width]

/-- The tone map of a tone-loaded item is checked before it is used (R163). -/
def State.mapChecked (s : State) (f : TxItem) : State :=
  if f.kind = .dl && f.copy.tl then s.mapParity f.copy.tmap else s

theorem State.mapChecked_plain (s : State) (f : TxItem) (plain : f.kind ≠ .dl ∨ f.copy.tl = false) : s.mapChecked f = s := by
  unfold State.mapChecked
  rcases plain with h | h <;> simp [h]

theorem State.mapChecked_tx (s : State) (f : TxItem) : (s.mapChecked f).phy.tx = s.phy.tx := by
  unfold State.mapChecked
  split
  · exact s.mapParity_tx _
  · rfl

theorem State.mapChecked_txFrames (s : State) (f : TxItem) :
    Reg.PHY_TX_FRAMES.get (s.mapChecked f).regs 0 0 = Reg.PHY_TX_FRAMES.get s.regs 0 0 := by
  unfold State.mapChecked
  split
  · exact s.mapParity_txFrames _
  · rfl

theorem State.fe_mapChecked (s : State) (f : TxItem) (g : Grp) : (s.mapChecked f).fe g = s.fe g := by
  unfold State.mapChecked
  split
  · exact s.fe_mapParity _ g
  · rfl

/-- An item reaches its group with its waveform and its time on the air. -/
def State.handOn (s : State) (f : TxItem) : State :=
  let loaded := (s.toneMap f).isSome
  let t := s.tick.modulated f (decide (f.kind = .dl) && f.copy.tl && !loaded) loaded (s.airtime f)
  t.setFe f.grp { t.fe f.grp with
    arrive := (t.fe f.grp).arrive ++ [{ f with dur := s.airtime f, ready := true, ppdu := some (s.modulate f) }] }

theorem State.handOn_spec (s : State) (f : TxItem) : (s.handOn f).phy.tx = s.phy.tx ∧
    (s.handOn f).rd Reg.PHY_TX_FRAMES = (s.rd Reg.PHY_TX_FRAMES + 1) % 2 ^ 32 ∧
    ((s.handOn f).fe f.grp).arrive =
      (s.fe f.grp).arrive ++ [{ f with dur := s.airtime f, ready := true, ppdu := some (s.modulate f) }] := by
  have tick : s.tick.fe f.grp = s.fe f.grp := State.fe_of_parts rfl rfl rfl _
  refine ⟨?_, ?_, ?_⟩
  · simp only [State.handOn, State.setFe_keeps, State.modulated_tx]
    rfl
  · simp only [State.handOn, State.rd_get, State.setFe_keeps, State.modulated_counts, State.tick]
  · simp only [State.handOn, State.fe_setFe, State.fe_modulated, tick]

/-- The item at the front, which no fence holds back, reaches its group. -/
theorem exec_phyModulate (s : State) (f : TxItem) (rest : List TxItem) (front : s.phy.tx = f :: rest) (phy : s.runs .PHY = true)
    (grp : s.runs f.grp.isl = true) (free : f.fence = false) :
    exec .phyModulate s = .next ((State.mapChecked { s with phy.tx := rest } f).handOn f) := by
  simp only [exec, execPhyModulate, front]
  rw [if_neg (by simp [phy, grp]), if_neg (by simp [free])]
  rfl

/-- Settles O18: the oldest uplink is released, the oldest item modulated. -/
theorem phyPassesOn : Obligations.PhyPassesOn := by
  refine fun s phy => ⟨fun u rest order ntb past => exec_ulRelease s u rest order phy ntb past, fun f rest front grp free => ?_⟩
  obtain ⟨tx, count, arrive⟩ := (State.mapChecked { s with phy.tx := rest } f).handOn_spec f
  refine ⟨_, exec_phyModulate s f rest front phy grp free, tx.trans (State.mapChecked_tx _ f), ?_,
    (State.mapChecked { s with phy.tx := rest } f).airtime f, (State.mapChecked { s with phy.tx := rest } f).modulate f, ?_,
    fun plain => ?_⟩
  · simp only [State.rd_get, State.mapChecked_txFrames] at count
    exact count
  · rw [arrive, State.fe_mapChecked]
    rfl
  · have none_loaded := State.toneMap_plain { s with phy.tx := rest } f plain
    rw [State.mapChecked_plain _ f plain]
    constructor
    · simp only [State.airtime, none_loaded]
      rfl
    · exact ⟨_, by simp only [State.modulate, none_loaded]; rfl⟩

/-! ### Tone-map commands (R160, R161) -/

theorem leBytes_length (n v : Nat) : (leBytes n v).length = n := by
  induction n generalizing v with
  | zero => rfl
  | succ n ih => simp [leBytes, ih]

theorem TMap.bytes_length (m : TMap) : m.bytes.length = 48 := by
  simp [TMap.bytes, codeBytes, leBytes_length]

/-- Writes of a register array at distinct places of its stride do not meet. -/
theorem Fld.key_stride {f : Fld} (pos : 0 < f.stride) {i j : Nat} (ne : i ≠ j) : f.key i 0 ≠ f.key j 0 := by
  intro h
  simp only [Fld.key, Nat.zero_mul, Nat.zero_add] at h
  exact ne (Nat.eq_of_mul_eq_mul_right pos (by omega))

/-- The window after it is filled from place `k` on. -/
theorem State.fill_rdI (l : List Byte) (k : Nat) (s : State) (i : Nat) :
    ((l.zipIdx k).foldl (fun s p => s.wrI Reg.PHY_TMAP_DATA p.2 p.1.toNat) s).rdI Reg.PHY_TMAP_DATA i =
      if k ≤ i ∧ i < k + l.length then (l.getD (i - k) 0).toNat else s.rdI Reg.PHY_TMAP_DATA i := by
  have stride : 0 < Reg.PHY_TMAP_DATA.stride := by decide
  induction l generalizing k s with
  | nil => simp
  | cons b l ih =>
    rw [List.zipIdx_cons, List.foldl_cons, ih (k + 1)]
    by_cases here : i = k
    · subst here
      have fits : b.toNat % 2 ^ Reg.PHY_TMAP_DATA.width = b.toNat := Nat.mod_eq_of_lt b.isLt
      simp [fits]
    · have other : (s.wrI Reg.PHY_TMAP_DATA k b.toNat).rdI Reg.PHY_TMAP_DATA i = s.rdI Reg.PHY_TMAP_DATA i := by
        simp only [State.rdI_get, State.wrI_regs]
        exact Fld.get_put_of_ne (Fld.key_stride stride here) _ _
      rw [other]
      by_cases inside : k + 1 ≤ i ∧ i < k + 1 + l.length
      · have next : i - k = i - (k + 1) + 1 := by omega
        rw [if_pos inside, if_pos (by simp; omega), next, List.getD_cons_succ]
      · rw [if_neg inside, if_neg (by simp; omega)]

/-- READ fills the window with the record's bytes. -/
theorem State.fillWindow_window (s : State) (l : List Byte) (whole : l.length = 48) : (s.fillWindow l).mapWindow = l := by
  apply List.ext_getElem
  · simp [State.mapWindow, whole]
  · intro i hi hl
    simp only [State.mapWindow, State.fillWindow, List.getElem_map, List.getElem_range, State.fill_rdI]
    rw [if_pos (by omega), Nat.sub_zero, List.getD_eq_getElem _ _ hl, BitVec.ofNat_toNat, BitVec.setWidth_eq]

theorem State.fillWindow_phy (s : State) (l : List Byte) : (s.fillWindow l).phy = s.phy :=
  foldl_keeps (fun s : State => s.phy) _ _ _ (fun _ _ => rfl)

theorem State.mapWindow_wr_stat (s : State) (v : Nat) : (s.wr Reg.PHY_TMAP_STAT v).mapWindow = s.mapWindow := by
  have apart : ∀ i < 48, Reg.PHY_TMAP_DATA.key i 0 ≠ Reg.PHY_TMAP_STAT.key 0 0 := by decide
  refine List.map_congr_left (fun i hi => ?_)
  simp only [State.rdI_get, State.wr_regs]
  rw [Fld.get_put_of_ne (apart i (List.mem_range.mp hi))]

theorem State.mapHeld_iff (s : State) (i : Nat) :
    s.mapHeld i = true ↔ ((mget s.phy.tmaps i).getD TMap.zero).valid = true ∧
      (1 ≤ ((mget s.phy.tmaps i).getD TMap.zero).users ∨ 1 ≤ ((mget s.phy.tmaps i).getD TMap.zero).inFlight) := by
  unfold State.mapHeld
  split
  · rename_i m h
    simp [h]
  · rename_i h
    simp [h, TMap.zero]

/-- A record that is set reads back, and no other is changed. -/
theorem State.setMap_maps (s : State) (i : Nat) (m : TMap) :
    (mget (s.setMap i m).phy.tmaps i).getD TMap.zero = m ∧
      ∀ k, k ≠ i → mget (s.setMap i m).phy.tmaps k = mget s.phy.tmaps k := by
  constructor
  · simp only [State.setMap, mget_mset_same]
    split
    · rename_i h
      rw [h]
      rfl
    · rfl
  · exact fun k hk => mget_mset_other _ _ _ _ hk

/-- A tone-map command on a record that is VALID and in use is REFUSED. -/
theorem State.tmapCmd_held (s : State) (held : s.mapHeld (s.rd Reg.PHY_TMAP_IDX) = true) :
    s.tmapCmd 2 = s.wr Reg.PHY_TMAP_STAT 3 ∧ s.tmapCmd 3 = s.wr Reg.PHY_TMAP_STAT 3 := by
  simp only [State.tmapCmd, State.mapWrite, held, if_true, Bool.false_eq_true, if_false, and_self]

/-- What a record becomes when it is set, with its users kept. -/
def State.keepUse (s : State) (i : Nat) (m : TMap) : TMap :=
  { m with users := ((mget s.phy.tmaps i).getD TMap.zero).users, inFlight := ((mget s.phy.tmaps i).getD TMap.zero).inFlight }

/-- A WRITE, or a FREE, of a record that is not held stores its record, and no other is changed. -/
theorem State.tmapCmd_sets (s : State) {t : State} {i : Nat} {m : TMap} (h : t = (s.setMap i m).wr Reg.PHY_TMAP_STAT 2) :
    t.rd Reg.PHY_TMAP_STAT = 2 ∧ (mget t.phy.tmaps i).getD TMap.zero = m ∧
      ∀ k, k ≠ i → mget t.phy.tmaps k = mget s.phy.tmaps k := by
  obtain ⟨here, others⟩ := s.setMap_maps i m
  subst h
  exact ⟨by rw [State.rd_get, State.wr_regs, Fld.get_put_same]; rfl, here, others⟩

/-- READ shows the record in the window, and changes nothing of PHY's state. -/
theorem State.tmapCmd_read (s : State) : (s.tmapCmd 1).rd Reg.PHY_TMAP_STAT = 2 ∧
    (s.tmapCmd 1).mapWindow = ((mget s.phy.tmaps (s.rd Reg.PHY_TMAP_IDX)).getD TMap.zero).bytes ∧
    (s.tmapCmd 1).phy = s.phy := by
  have read : s.tmapCmd 1 = (s.fillWindow ((mget s.phy.tmaps (s.rd Reg.PHY_TMAP_IDX)).getD TMap.zero).bytes).wr
    Reg.PHY_TMAP_STAT 2 := rfl
  rw [read]
  refine ⟨by rw [State.rd_get, State.wr_regs, Fld.get_put_same]; rfl, ?_, ?_⟩
  · rw [State.mapWindow_wr_stat, State.fillWindow_window _ _ (TMap.bytes_length _)]
  · simp only [State.wr_keeps, State.fillWindow_phy]

theorem State.tmapCmd_write (s : State) (free : ¬ s.mapHeld (s.rd Reg.PHY_TMAP_IDX) = true) :
    s.tmapCmd 2 = (s.setMap (s.rd Reg.PHY_TMAP_IDX) (s.keepUse (s.rd Reg.PHY_TMAP_IDX) (TMap.ofWrite s.mapWindow))).wr
      Reg.PHY_TMAP_STAT 2 := by
  simp only [State.tmapCmd, State.mapWrite]
  rw [if_neg free]
  rfl

theorem State.tmapCmd_free (s : State) (free : ¬ s.mapHeld (s.rd Reg.PHY_TMAP_IDX) = true) :
    s.tmapCmd 3 = (s.setMap (s.rd Reg.PHY_TMAP_IDX) (s.keepUse (s.rd Reg.PHY_TMAP_IDX) TMap.zero)).wr
      Reg.PHY_TMAP_STAT 2 := by
  simp only [State.tmapCmd]
  rw [if_neg free]
  rfl

/-! ### PHY's own table write (R166 to R168) -/

/-- A report leaves PHY's state and the table as they were, and sets its event. -/
theorem State.propReport_spec (s : State) (p : TMap) (h : BitVec 18) (chan : Byte) (action : Nat) (gen : Byte)
    (tmap : BitVec 12) (last : Nat) :
    (s.propReport p h chan action gen tmap last).phy = s.phy ∧ (s.propReport p h chan action gen tmap last).ntb = s.ntb ∧
      ((s.propReport p h chan action gen tmap last).rd Reg.PHY_PHY_EVT).testBit 0 = true ∧
      (s.propReport p h chan action gen tmap last).rd Reg.PHY_PROP_SUPERSEDED = s.rd Reg.PHY_PROP_SUPERSEDED := by
  refine ⟨by simp [State.propReport], by simp [State.propReport], State.ev_testBit _ _ (by decide), ?_⟩
  simp only [State.propReport, State.rd_get]
  rw [State.get_ev_place (by decide), State.record_get (by decide)]

theorem State.freeAuto_writes (s : State) (i : Nat) :
    (s.freeAuto i).phy.propWrites = s.phy.propWrites ∧ (s.freeAuto i).ntb = s.ntb ∧ (s.freeAuto i).regs = s.regs := by
  unfold State.freeAuto
  split
  · exact ⟨rfl, rfl, rfl⟩
  · split <;> exact ⟨rfl, rfl, rfl⟩

theorem exec_tonemapTableWrite_applied (s : State) (w : PropWrite) (rest : List PropWrite) (loc : Nat) (e : Entry)
    (front : s.phy.propWrites = w :: rest) (run : s.runs .NTB = true) (has : s.hasEntry w.handle loc e) (gen : e.gen = w.gen) :
    exec .tonemapTableWrite s = .next (((State.users { s with
        phy.propWrites := rest, ntb.slots := mput s.ntb.slots loc { entry := { e with tmap := w.tmap }, bad := false, perr := 0 } }
      w.tmap.toNat true).users e.tmap.toNat false).propReport w.prop w.handle w.chan w.action w.gen w.tmap w.last) := by
  have seen := State.access_hasEntry { s with phy.propWrites := rest } w.handle loc e 5 has
  simp only [exec, execTonemapTableWrite, front]
  rw [if_neg (by simp [run]), seen]
  dsimp only
  rw [if_pos gen]

theorem exec_tonemapTableWrite_superseded (s : State) (w : PropWrite) (rest : List PropWrite) (loc : Nat) (e : Entry)
    (front : s.phy.propWrites = w :: rest) (run : s.runs .NTB = true) (has : s.hasEntry w.handle loc e) (gen : e.gen ≠ w.gen) :
    exec .tonemapTableWrite s =
      .next ((State.bump { s with phy.propWrites := rest } Reg.PHY_PROP_SUPERSEDED).propBack w e.tmap) := by
  have seen := State.access_hasEntry { s with phy.propWrites := rest } w.handle loc e 5 has
  simp only [exec, execTonemapTableWrite, front]
  rw [if_neg (by simp [run]), seen]
  dsimp only
  rw [if_neg gen]

/-- Settles O19: the tone-map commands, and PHY's own table write. -/
theorem toneMaps : Obligations.ToneMaps := by
  refine ⟨fun s may => ⟨?_, fun held => ?_, fun free => ⟨?_, ?_⟩⟩, fun s w rest loc e front run has => ⟨fun gen => ?_, fun gen => ?_⟩⟩
  · exact ⟨_, congrArg Host.Outcome.next (s.hostOp_may _ _ _ may), (s.numbered 1).tmapCmd_read⟩
  · have held' := (State.mapHeld_iff (s.numbered 1) (s.rd Reg.PHY_TMAP_IDX)).mpr held
    obtain ⟨write, free⟩ := (s.numbered 1).tmapCmd_held held'
    exact ⟨congrArg Host.Outcome.next ((s.hostOp_may _ _ _ may).trans write),
      congrArg Host.Outcome.next ((s.hostOp_may _ _ _ may).trans free)⟩
  · have free' := fun h => free ((State.mapHeld_iff (s.numbered 1) (s.rd Reg.PHY_TMAP_IDX)).mp h)
    have window : (s.numbered 1).mapWindow = s.mapWindow := rfl
    have wrote := (s.numbered 1).tmapCmd_sets ((s.numbered 1).tmapCmd_write free')
    rw [window] at wrote
    exact ⟨_, congrArg Host.Outcome.next (s.hostOp_may _ _ _ may), wrote⟩
  · have free' := fun h => free ((State.mapHeld_iff (s.numbered 1) (s.rd Reg.PHY_TMAP_IDX)).mp h)
    exact ⟨_, congrArg Host.Outcome.next (s.hostOp_may _ _ _ may),
      (s.numbered 1).tmapCmd_sets ((s.numbered 1).tmapCmd_free free')⟩
  · refine ⟨_, exec_tonemapTableWrite_applied s w rest loc e front run has gen, ?_⟩
    obtain ⟨phy, ntb, event, -⟩ := State.propReport_spec ((State.users { s with
      phy.propWrites := rest, ntb.slots := mput s.ntb.slots loc { entry := { e with tmap := w.tmap }, bad := false, perr := 0 } }
      w.tmap.toNat true).users e.tmap.toNat false) w.prop w.handle w.chan w.action w.gen w.tmap w.last
    obtain ⟨fits, dir, -, handle⟩ := has
    refine ⟨by rw [phy]; rfl, ⟨fits, by rw [ntb]; exact dir, ?_, handle⟩, event⟩
    rw [ntb]
    exact mget_mput_same _ _ _
  · refine ⟨_, exec_tonemapTableWrite_superseded s w rest loc e front run has gen, ?_⟩
    have freed := State.freeAuto_writes (State.bump { s with phy.propWrites := rest } Reg.PHY_PROP_SUPERSEDED) w.tmap.toNat
    unfold State.propBack
    generalize State.freeAuto _ _ = u at freed ⊢
    obtain ⟨writes, table, regs⟩ := freed
    obtain ⟨phy, ntb, event, count⟩ := State.propReport_spec u w.prop w.handle w.chan 6 w.gen e.tmap w.last
    obtain ⟨fits, dir, slot, handle⟩ := has
    refine ⟨by rw [phy, writes]; rfl, ⟨fits, by rw [ntb, table]; exact dir, by rw [ntb, table]; exact slot, handle⟩, ?_, event⟩
    rw [count, State.rd_get, regs, State.bump_regs, Fld.get_put_same]
    exact saturated_mod _ _

end Sys2Proof.Machine

/-!
PROOF. An uplink at NTB (O20, R24, R178, R179, R397).
-/

namespace Sys2Proof.Machine

/-- What NTB hands on of an uplink: with the copy of the entry that holds it. -/
def foundBy (u : UlItem) (e : Entry) : UlItem :=
  { u with copy := some (e.copy u.psdu.dsn u.psdu.fc), ulSeq := e.ulSeq }

theorem exec_ntbLookup_miss (s : State) (u : UlItem) (rest : List UlItem) (front : s.ntb.ul = u :: rest)
    (ntb : s.runs .NTB = true) (key : s.runs .KEY = true) (plain : u.copy = none) (finds : s.probeFinds u.psdu.eui none) :
    exec .ntbLookup s = .next ({ (({ s with ntb.ul := rest }.wrap Reg.NTB_LOOKUPS).bump Reg.NTB_LOOKUP_MISS) with
      key.ul := s.key.ul ++ [u] }) := by
  have probed := State.probe_finds { s with ntb.ul := rest } u.psdu.eui 0 none finds
  simp only [exec, execNtbLookup, front]
  rw [if_neg (by simp [ntb, key]), probed]
  simp only [Option.bind_none, Option.map_none, State.countLookup, Option.isSome_none, Bool.false_eq_true, if_false,
    State.propFeed, plain]
  rfl

/-- An uplink that an entry holds passes with its copy; unless on standby, the entry is hit. -/
theorem exec_ntbLookup_hit (s : State) (u : UlItem) (rest : List UlItem) (loc : Nat) (e : Entry)
    (front : s.ntb.ul = u :: rest) (ntb : s.runs .NTB = true) (key : s.runs .KEY = true)
    (finds : s.probeFinds u.psdu.eui (some loc)) (has : s.hasEntry e.handle loc e) :
    ∃ (s1 : State) (e1 : Entry),
      (s.quiet = true → s1 = { s with ntb.ul := rest } ∧ e1 = e) ∧
      (s.quiet = false → e1 = { e with hit := true, ulSeq := e.ulSeq + 1 } ∧
        s1 = { s with ntb.ul := rest, ntb.slots := mput s.ntb.slots loc { entry := e1, bad := false, perr := 0 } }) ∧
      exec .ntbLookup s = .next (({ s1.wrap Reg.NTB_LOOKUPS with
        key.ul := (s1.wrap Reg.NTB_LOOKUPS).key.ul ++ [foundBy u e1] }).propFeed (foundBy u e1)) := by
  have probed := State.probe_finds { s with ntb.ul := rest } u.psdu.eui 0 (some loc) finds
  have slot : mget s.ntb.slots loc = some { entry := e, bad := false, perr := 0 } := has.2.2.1
  have seen := State.access_hasEntry { s with ntb.ul := rest } e.handle loc e 1 has
  have awake : State.quiet { s with ntb.ul := rest } = s.quiet := rfl
  simp only [exec, execNtbLookup, front]
  rw [if_neg (by simp [ntb, key]), probed]
  simp only [Option.bind_some, slot, Option.map_some, awake]
  cases q : s.quiet
  · refine ⟨_, { e with hit := true, ulSeq := e.ulSeq + 1 }, fun h => absurd h (by simp), fun _ => ⟨rfl, rfl⟩, ?_⟩
    simp only [Bool.false_eq_true, if_false, State.hitOp, seen, State.countLookup, Option.isSome_some, if_true]
    rfl
  · refine ⟨_, e, fun _ => ⟨rfl, rfl⟩, fun h => absurd h (by simp), ?_⟩
    simp only [if_true, State.countLookup, Option.isSome_some]
    rfl

/-- Settles O20: an uplink at NTB passes on with its entry, or without. -/
theorem lookupPassesOn : Obligations.LookupPassesOn := by
  refine fun s u rest front ntb key => ⟨fun plain finds => exec_ntbLookup_miss s u rest front ntb key plain finds,
    fun loc e finds has => ?_⟩
  obtain ⟨s1, e1, standby, active, out⟩ := exec_ntbLookup_hit s u rest loc e front ntb key finds has
  refine ⟨fun awake => ⟨_, out, ?_⟩, fun quiet => ⟨_, out, ?_⟩⟩
  · obtain ⟨he, hs⟩ := active awake
    simp only [State.propFeed_keeps, State.hasEntry]
    obtain ⟨fits, dir, -, -⟩ := has
    subst hs
    refine ⟨rfl, by subst he; rfl, ⟨fits, dir, ?_, trivial⟩, fun k hk => mget_mput_other _ _ _ _ hk, rfl⟩
    subst he
    exact mget_mput_same _ _ _
  · obtain ⟨hs, he⟩ := standby quiet
    subst hs he
    simp only [State.propFeed_keeps]
    exact ⟨rfl, rfl⟩

end Sys2Proof.Machine

/-!
PROOF. The commands of the node table (O22 to O24, R173, R178 to R186, R193, R195).
-/

namespace Sys2Proof.Machine

/-! ### How a result leaves NTB (R185, R386) -/

/-- A result changes of NTB's state the results that it keeps, and nothing else. -/
theorem State.tblReport_ntb (s : State) (d : TblDone) : ∃ l, (s.tblReport d).ntb = { s.ntb with done := l } := by
  unfold State.tblReport
  split
  · exact ⟨_, rfl⟩
  · unfold State.flushTbl
    split
    · refine ⟨[], ?_⟩
      exact foldl_keeps (fun s : State => s.ntb) _ _ _ (fun t d => by simp)
    · exact ⟨_, rfl⟩

theorem State.tblReport_slots (s : State) (d : TblDone) : (s.tblReport d).ntb.slots = s.ntb.slots := by
  obtain ⟨l, h⟩ := s.tblReport_ntb d
  rw [h]

theorem State.tblReport_dir (s : State) (d : TblDone) : (s.tblReport d).ntb.dir = s.ntb.dir := by
  obtain ⟨l, h⟩ := s.tblReport_ntb d
  rw [h]

theorem State.tblReport_cmdQ (s : State) (d : TblDone) : (s.tblReport d).ntb.cmdQ = s.ntb.cmdQ := by
  obtain ⟨l, h⟩ := s.tblReport_ntb d
  rw [h]

theorem State.tblReport_locks (s : State) (d : TblDone) : (s.tblReport d).ntb.locks = s.ntb.locks := by
  obtain ⟨l, h⟩ := s.tblReport_ntb d
  rw [h]

/-- A completion that is written leaves the slots of the next where they are. -/
theorem State.complAddr_writeTblDone (s : State) (d : TblDone) (i : BitVec 16) :
    (s.writeTblDone d).complAddr i = s.complAddr i := by
  have base : Reg.HST_RING_BASE2.key 0 0 ≠ Reg.HST_RING_COMPL.key 0 tblRing := by decide
  have size : Reg.HST_RING_SIZE.key 0 tblRing ≠ Reg.HST_RING_COMPL.key 0 tblRing := by decide
  have wrote : (s.writeTblDone d).regs = Reg.HST_RING_COMPL.put s.regs 0 tblRing (Reg.HST_RING_COMPL.get s.regs 0 tblRing + 1) := by
    unfold State.writeTblDone
    split <;> simp [State.ringDone, State.emit]
  simp only [State.complAddr, State.ringSize, State.rd_get, State.rdB_get, wrote, Fld.get_put_of_ne base, Fld.get_put_of_ne size]

theorem State.writeTblDone_out (s : State) (d : TblDone) :
    (∀ x ∈ s.out, x ∈ (s.writeTblDone d).out) ∧ Out.tblCompl d.seq (s.complAddr d.seq) d.bytes ∈ (s.writeTblDone d).out := by
  unfold State.writeTblDone
  split
  · simp only [State.ringDone, State.event_keeps, State.emit, State.wrB_keeps]
    refine ⟨fun x hx => by simp [hx], ?_⟩
    simp only [List.mem_append, List.mem_singleton]
    exact .inl (.inr rfl)
  · simp only [State.ringDone, State.event_keeps, State.emit, State.wrB_keeps]
    exact ⟨fun x hx => by simp [hx], by simp⟩

theorem State.writeTblDone_all (l : List TblDone) (s : State) :
    (∀ x ∈ s.out, x ∈ (l.foldl (fun s d => s.writeTblDone d) s).out) ∧
      ∀ d ∈ l, Out.tblCompl d.seq (s.complAddr d.seq) d.bytes ∈ (l.foldl (fun s d => s.writeTblDone d) s).out := by
  induction l generalizing s with
  | nil => simp
  | cons a l ih =>
    obtain ⟨kept, wrote⟩ := s.writeTblDone_out a
    obtain ⟨kept', wrote'⟩ := ih (s.writeTblDone a)
    refine ⟨fun x hx => kept' x (kept x hx), fun d hd => ?_⟩
    rcases List.mem_cons.mp hd with rfl | later
    · exact kept' _ wrote
    · rw [← s.complAddr_writeTblDone a]
      exact wrote' d later

theorem State.tblReport_dma (s : State) (d : TblDone) (host : d.tunnel = false) (dma : s.dma = true) :
    (s.tblReport d).ntb = { s.ntb with done := [] } ∧
      Out.tblCompl d.seq (s.complAddr d.seq) d.bytes ∈ (s.tblReport d).out := by
  have flushed : s.tblReport d =
      (s.ntb.done ++ [d]).foldl (fun s d => s.writeTblDone d) { s with ntb.done := [] } := by
    unfold State.tblReport State.flushTbl
    rw [if_neg (by simp [host]), if_pos (by exact dma)]
  rw [flushed]
  refine ⟨foldl_keeps (fun s : State => s.ntb) _ _ _ (fun t d => by simp), ?_⟩
  exact (State.writeTblDone_all (s.ntb.done ++ [d]) { s with ntb.done := [] }).2 d (by simp)

/-! ### A command alone at the front (R184) -/

theorem State.tblStep_alone (s : State) (c : TblCmd) (op : Nat) (f : State → TblCmd → TblDone × State) (front : s.ntb.cmdQ = [c])
    (run : s.runs .NTB = true) (code : c.op = op) (live : c.aborted = false) :
    s.tblStep op f = (f { s with ntb.cmdQ := [] } c).2.tblReport (f { s with ntb.cmdQ := [] } c).1 := by
  simp only [State.tblStep, front]
  rw [if_pos (by simp [run, code, live])]
  rfl

/-! ### The handle and the place of an INSERT (R173, R180, R181, R186) -/

/-- The first handle from `h` on that a directory without errors does not hold. -/
def freeFrom (dir : List (Nat × DirRec)) (n : Nat) (h : BitVec 18) : Option (BitVec 18) :=
  match n with
  | 0 => none
  | n + 1 => if (mget dir h.toNat).isNone then some h else freeFrom dir n (h + 1)

theorem mem_of_mget {α : Type} {l : List (Nat × α)} {k : Nat} {v : α} (h : mget l k = some v) : (k, v) ∈ l := by
  induction l with
  | nil => simp [mget] at h
  | cons x t ih =>
    obtain ⟨j, w⟩ := x
    by_cases e : k = j
    · simp [mget, e] at h
      simp [e, h]
    · simp [mget, e] at h
      exact List.mem_cons_of_mem _ (ih h)

/-- The first free handle after the one last allocated. -/
def State.nextFree (s : State) : Option (BitVec 18) :=
  freeFrom s.ntb.dir (min (2 ^ 18) (s.ntb.dir.length + 1)) (BitVec.ofNat 18 (s.rd Reg.NTB_LAST_ALLOC + 1))

section
variable (s : State) (clean : ∀ p ∈ s.ntb.dir, p.2.perr = false)
include clean

theorem State.dirLoc_clean (h : BitVec 18) : s.dirLoc h = ((mget s.ntb.dir h.toNat).map (fun r => r.loc.toNat), s) := by
  unfold State.dirLoc
  cases r : mget s.ntb.dir h.toNat with
  | none => rfl
  | some x =>
    dsimp only
    have ok : x.perr = false := clean _ (mem_of_mget r)
    rw [if_neg (by simp [ok])]
    rfl

theorem State.freeHandle_clean (n : Nat) (h : BitVec 18) : s.freeHandle n h = (freeFrom s.ntb.dir n h, s) := by
  induction n generalizing h with
  | zero => rfl
  | succ n ih =>
    simp only [State.freeHandle, freeFrom, s.dirLoc_clean clean, ih, Option.isNone_map]
    split <;> rfl

theorem State.nextHandle_clean : s.nextHandle = (s.nextFree, s) :=
  s.freeHandle_clean clean _ _

/-- With no error in the directory the choice of a handle changes nothing. -/
theorem State.pickHandle_clean (c : TblCmd) (q : List TblCmd) :
    State.pickHandle { s with ntb.cmdQ := q } c = ((s.pickHandle c).1, { s with ntb.cmdQ := q }) := by
  have here := s.nextHandle_clean clean
  have there : State.nextHandle { s with ntb.cmdQ := q } = (s.nextFree, { s with ntb.cmdQ := q }) :=
    State.nextHandle_clean _ clean
  have dirHere := s.dirLoc_clean clean c.handle
  have dirThere := State.dirLoc_clean { s with ntb.cmdQ := q } clean c.handle
  unfold State.pickHandle
  split
  · rw [here, there]
    dsimp only
    cases s.nextFree <;> rfl
  · rw [dirHere, dirThere]

end

/-- Little-endian bytes read in two parts. -/
theorem leNat_take_add (l : List (BitVec 8)) (m n : Nat) :
    leNat (l.take (m + n)) = leNat (l.take m) + 256 ^ m * leNat ((l.drop m).take n) := by
  induction m generalizing l with
  | zero => simp [leNat]
  | succ m ih =>
    cases l with
    | nil => simp [leNat]
    | cons b l =>
      rw [Nat.add_right_comm]
      simp only [List.take_succ_cons, List.drop_succ_cons, leNat, ih]
      ring

/-- The EUI-64 of an INSERT is that of its entry (R186). -/
theorem Entry.ofInsert_eui (b : List Byte) (h : BitVec 18) : (Entry.ofInsert b h).eui = BitVec.ofNat 64 (leAt b 0 8) := by
  have parts : leAt b 0 8 = leAt b 0 4 + leAt b 4 4 * 2 ^ 32 := by
    simp only [leAt, List.drop_zero]
    exact (leNat_take_add b 4 4).trans (by ring)
  rw [parts]
  rfl

theorem State.noteOcc_ntb (s : State) (w : Nat) : (s.noteOcc w).ntb = s.ntb := by
  simp only [State.noteOcc]
  split <;> simp

/-- An entry whose first bucket has a free slot takes it, with its directory record. -/
theorem State.insertUsers_free (s : State) (e : Entry) {l : Nat} (free : s.freeIn 0 (s.bucket 0 e.eui) = some l) :
    (s.insertUsers e).1 = .at_ l 0 ∧ (s.insertUsers e).2.ntb = { s.ntb with
      slots := mput s.ntb.slots l { entry := e, bad := false, perr := 0 },
      dir := mput s.ntb.dir e.handle.toNat ⟨BitVec.ofNat 19 l, false⟩ } := by
  have placed : s.insert e = (.at_ l 0, s.place e l) := by
    simp only [State.insert, State.findPlace, free]
  simp only [State.insertUsers, placed]
  exact ⟨trivial, by
    rw [if_neg (by simp)]
    exact State.noteOcc_ntb _ _⟩

/-- What follows an insertion: its count and the handle last allocated. -/
def State.inserted (s : State) (c : TblCmd) (h : BitVec 18) : State :=
  let s := s.bump Reg.NTB_INSERTS
  if (leAt c.bytes 1 1).testBit 0 then s.wr Reg.NTB_LAST_ALLOC h.toNat else s

theorem State.inserted_ntb (s : State) (c : TblCmd) (h : BitVec 18) : (s.inserted c h).ntb = s.ntb := by
  unfold State.inserted
  split <;> rfl

theorem State.tblInsert_free (s : State) (c : TblCmd) (h : BitVec 18) (l : Nat) (q : List TblCmd)
    (nonzero : BitVec.ofNat 64 (leAt c.entry 0 8) ≠ (0 : Word64)) (nonones : BitVec.ofNat 64 (leAt c.entry 0 8) ≠ BitVec.allOnes 64)
    (finds : s.probeFinds (BitVec.ofNat 64 (leAt c.entry 0 8)) none) (clean : ∀ p ∈ s.ntb.dir, p.2.perr = false)
    (pick : (s.pickHandle c).1 = .ok h) (free : s.freeIn 0 (s.bucket 0 (BitVec.ofNat 64 (leAt c.entry 0 8))) = some l) :
    State.tblInsert { s with ntb.cmdQ := q } c = ({ c.about (Entry.ofInsert c.entry h) l stCOMPLETED 0 with moves := 0 },
      (State.insertUsers { s with ntb.cmdQ := q } (Entry.ofInsert c.entry h)).2.inserted c h) := by
  have probed := State.probe_finds { s with ntb.cmdQ := q } _ 3 none finds
  have picked := s.pickHandle_clean clean c q
  have place := (State.insertUsers_free { s with ntb.cmdQ := q } (Entry.ofInsert c.entry h) (l := l)
    (by rw [Entry.ofInsert_eui]; exact free)).1
  rw [pick] at picked
  simp only [State.tblInsert]
  rw [if_neg (by rw [decide_eq_false nonzero, decide_eq_false nonones]; decide), probed, if_neg (by simp), picked]
  simp only [place]
  rfl

/-- Settles O22: an INSERT that completes, and one of an EUI-64 that no node has. -/
theorem tableInsert : Obligations.TableInsert := by
  refine fun s c front code live run => ⟨fun h l nonzero nonones finds clean pick free => ?_, fun bad => ?_⟩
  · have step := s.tblStep_alone c 1 State.tblInsert front run code live
    rw [s.tblInsert_free c h l [] nonzero nonones finds clean pick free] at step
    have stored := (State.insertUsers_free { s with ntb.cmdQ := [] } (Entry.ofInsert c.entry h) (l := l)
      (by rw [Entry.ofInsert_eui]; exact free)).2
    refine ⟨_, congrArg Host.Outcome.next step, _, _, rfl, rfl, rfl, rfl, rfl, rfl, ?_⟩
    rw [State.tblReport_slots, State.tblReport_dir, State.tblReport_cmdQ, State.inserted_ntb, stored]
    exact ⟨rfl, mget_mput_same _ _ _, mget_mput_same _ _ _, fun k hk => mget_mput_other _ _ _ _ hk⟩
  · refine ⟨_, congrArg Host.Outcome.next (s.tblStep_alone c 1 State.tblInsert front run code live),
      c.fail stREFUSED 0x02, ?_, rfl, rfl, rfl⟩
    simp only [State.tblInsert]
    rw [if_pos (by simpa using bad)]

end Sys2Proof.Machine

/-!
PROOF. Commands of the node table about an entry that it holds, and those that fail (O23, O24, R182, R183, R193, R195).
-/

namespace Sys2Proof.Machine

/-! ### READ, WRITE, REMOVE and LOCK of an entry without error -/

theorem writeH_kept (e : Entry) (b : List Byte) (mask : BitVec 12) :
    (e.writeH b mask).state = e.state ∧ (e.writeH b mask).handle = e.handle ∧ (e.writeH b mask).gen = e.gen ∧
      (e.writeH b mask).lock = e.lock := by
  unfold Entry.writeH
  dsimp only
  split <;> split <;> split <;> split <;> exact ⟨rfl, rfl, rfl, rfl⟩

/-- A slot without error takes the whole of a WRITE. -/
theorem writtenSlot_sound (e : Entry) (c : TblCmd) :
    writtenSlot { entry := e, bad := false, perr := 0 } c = {
      entry := { e.writeH c.entry (BitVec.ofNat 12 (leAt c.bytes 2 2)) with
        gen := e.gen + 1, lock := e.lock && !(leAt c.bytes 1 1).testBit 1 }, bad := false, perr := 0 } := by
  obtain ⟨-, -, gen, lock⟩ := writeH_kept e c.entry (BitVec.ofNat 12 (leAt c.bytes 2 2))
  have all : BitVec.ofNat 12 (leAt c.bytes 2 2) &&& (~~~(0 : BitVec 12) ||| words [9, 10]) =
      BitVec.ofNat 12 (leAt c.bytes 2 2) := by
    rw [show ~~~(0 : BitVec 12) ||| words [9, 10] = BitVec.allOnes 12 by decide, BitVec.and_allOnes]
  simp only [writtenSlot, all, gen, lock]
  simp

/-- A node that is JOINING is neither scheduled nor withdrawn by a WRITE. -/
theorem State.afterWrite_joining (s : State) (e : Entry) (mask : BitVec 12) (joining : e.state = .joining) :
    s.afterWrite e mask = s := by
  unfold State.afterWrite
  simp [joining]

theorem State.tblStore_ntb (s : State) (c : TblCmd) (loc : Nat) (sl new : Slot) :
    (s.tblStore c loc sl new).ntb.slots = mput s.ntb.slots loc new ∧ (s.tblStore c loc sl new).ntb.dir = s.ntb.dir ∧
      (s.tblStore c loc sl new).ntb.cmdQ = s.ntb.cmdQ := by
  unfold State.tblStore
  dsimp only
  split <;> exact ⟨rfl, rfl, rfl⟩

theorem State.removeAt_ntb (s : State) (loc : Nat) (e : Entry) :
    (s.removeAt loc e).ntb.slots = mdel s.ntb.slots loc ∧ (s.removeAt loc e).ntb.dir = mdel s.ntb.dir e.handle.toNat ∧
      (s.removeAt loc e).ntb.cmdQ = s.ntb.cmdQ := by
  unfold State.removeAt
  dsimp only
  split <;> exact ⟨rfl, rfl, rfl⟩

section
variable (s : State) (c : TblCmd) (loc : Nat) (e : Entry) (has : s.hasEntry c.handle loc e)
include has

theorem State.tblRead_has : s.tblRead c = ({ c.about e loc stCOMPLETED 0 with entry := some e.bytes }, s) := by
  simp only [State.tblRead, s.cmdSlot_hasEntry _ _ _ has]
  rfl

theorem State.tblWrite_joining (match_ : c.genMiss e = false) (joining : e.state = .joining) :
    let new := writtenSlot { entry := e, bad := false, perr := 0 } c
    s.tblWrite c = (c.about new.entry loc stCOMPLETED 0, s.tblStore c loc { entry := e, bad := false, perr := 0 } new) := by
  have state := (writeH_kept e c.entry (BitVec.ofNat 12 (leAt c.bytes 2 2))).1
  simp only [State.tblWrite, s.cmdSlot_hasEntry _ _ _ has, match_, writtenSlot_sound]
  rw [if_neg (by simp), if_neg (by simp), State.afterWrite_joining _ _ _ (by exact state.trans joining)]

theorem State.tblRemove_has (match_ : c.genMiss e = false) (empty : e.qne = false) :
    s.tblRemove c = (c.about e loc stCOMPLETED 0, s.removeAt loc e) := by
  simp only [State.tblRemove, s.cmdSlot_hasEntry _ _ _ has, match_, empty]
  rfl

theorem State.tblLock_has (free : e.lock = false) : s.tblLock c =
    ({ c.about { e with lock := true } loc stCOMPLETED 0 with entry := some { e with lock := true }.bytes }, { s with
      ntb.slots := mput s.ntb.slots loc { entry := { e with lock := true }, bad := false, perr := 0 },
      ntb.locks := s.ntb.locks.filter (fun p => p.1 ≠ e.handle.toNat) ++ [(e.handle.toNat, s.sys.uptime)] }) := by
  simp only [State.tblLock, s.cmdSlot_hasEntry _ _ _ has]
  rw [if_neg (by simp [free])]
  rfl

theorem State.tbl_genMiss (miss : c.genMiss e = true) :
    s.tblWrite c = (c.about e loc stREFUSED 0x05, s) ∧ s.tblRemove c = (c.about e loc stREFUSED 0x05, s) := by
  simp only [State.tblWrite, State.tblRemove, s.cmdSlot_hasEntry _ _ _ has, miss, if_true, and_self]

theorem State.tblRemove_queued (match_ : c.genMiss e = false) (queued : e.qne = true) :
    s.tblRemove c = (c.about e loc stREFUSED 0x06, s) := by
  simp only [State.tblRemove, s.cmdSlot_hasEntry _ _ _ has, match_, queued, Bool.not_false, Bool.and_self, if_true,
    Bool.false_eq_true, if_false]

theorem State.tblLock_locked (locked : e.lock = true) : s.tblLock c = (c.about e loc stREFUSED 0x07, s) := by
  simp only [State.tblLock, s.cmdSlot_hasEntry _ _ _ has, locked, if_true]

end

/-- Settles O23: READ, WRITE, REMOVE and LOCK of an entry that the table holds. -/
theorem tableCommands : Obligations.TableCommands := by
  intro s c loc e front live run has match_ done
  have alone := fun op f => s.tblStep_alone c op f front run
  have has' : State.hasEntry { s with ntb.cmdQ := [] } c.handle loc e := has
  obtain ⟨fits, dir, slot, handle⟩ := has
  refine ⟨fun op => ?_, fun op joining => ?_, fun op empty => ?_, fun op free => ?_⟩
  · have step := alone 3 State.tblRead op live
    rw [State.tblRead_has _ c loc e has'] at step
    refine ⟨_, congrArg Host.Outcome.next step, _, ⟨⟨_, rfl⟩, rfl, rfl, handle, ?_, fun k _ => ?_⟩, rfl, ?_⟩
    · rw [State.tblReport_cmdQ]
    · rw [State.tblReport_slots]
    · rw [State.tblReport_slots]
  · have step := alone 2 State.tblWrite op live
    rw [State.tblWrite_joining _ c loc e has' match_ joining, writtenSlot_sound] at step
    obtain ⟨-, kept, -, -⟩ := writeH_kept e c.entry (BitVec.ofNat 12 (leAt c.bytes 2 2))
    obtain ⟨slots, dirs, queue⟩ := State.tblStore_ntb { s with ntb.cmdQ := [] } c loc { entry := e, bad := false, perr := 0 }
      { entry := { e.writeH c.entry (BitVec.ofNat 12 (leAt c.bytes 2 2)) with
        gen := e.gen + 1, lock := e.lock && !(leAt c.bytes 1 1).testBit 1 }, bad := false, perr := 0 }
    refine ⟨_, congrArg Host.Outcome.next step, _, ⟨⟨_, rfl⟩, rfl, rfl, kept.trans handle, ?_, fun k hk => ?_⟩, rfl,
      ⟨fits, ?_, ?_, kept.trans handle⟩⟩
    · rw [State.tblReport_cmdQ, queue]
    · rw [State.tblReport_slots, slots]
      exact mget_mput_other _ _ _ _ hk
    · rw [State.tblReport_dir, dirs]
      exact dir
    · rw [State.tblReport_slots, slots]
      exact mget_mput_same _ _ _
  · have step := alone 4 State.tblRemove op live
    rw [State.tblRemove_has _ c loc e has' match_ empty] at step
    obtain ⟨slots, dirs, queue⟩ := State.removeAt_ntb { s with ntb.cmdQ := [] } loc e
    refine ⟨_, congrArg Host.Outcome.next step, _, ⟨⟨_, rfl⟩, rfl, rfl, handle, ?_, fun k hk => ?_⟩, ?_, ?_⟩
    · rw [State.tblReport_cmdQ, queue]
    · rw [State.tblReport_slots, slots, mget_mdel, if_neg hk]
    · rw [State.tblReport_slots, slots, mget_mdel, if_pos rfl]
    · rw [State.tblReport_dir, dirs, handle, mget_mdel, if_pos rfl]
  · have step := alone 5 State.tblLock op live
    rw [State.tblLock_has _ c loc e has' free] at step
    refine ⟨_, congrArg Host.Outcome.next step, _, ⟨⟨_, rfl⟩, rfl, rfl, handle, ?_, fun k hk => ?_⟩, rfl,
      ⟨fits, ?_, ?_, handle⟩, ?_⟩
    · rw [State.tblReport_cmdQ]
    · rw [State.tblReport_slots]
      exact mget_mput_other _ _ _ _ hk
    · rw [State.tblReport_dir]
      exact dir
    · rw [State.tblReport_slots]
      exact mget_mput_same _ _ _
    · rw [State.tblReport_locks, handle]
      exact List.mem_append_right _ (List.mem_singleton_self _)

/-! ### An unknown handle, and LOOKUP -/

theorem State.cmdSlot_unknown (s : State) (h : BitVec 18) (unknown : mget s.ntb.dir h.toNat = none) :
    s.cmdSlot h = (none, s) := by
  simp only [State.cmdSlot, State.dirLoc, unknown]
  rfl

theorem State.tbl_unknown (s : State) (c : TblCmd) (unknown : mget s.ntb.dir c.handle.toNat = none) :
    s.tblWrite c = (c.fail stREFUSED 0x04, s) ∧ s.tblRead c = (c.fail stREFUSED 0x04, s) ∧
      s.tblRemove c = (c.fail stREFUSED 0x04, s) ∧ s.tblLock c = (c.fail stREFUSED 0x04, s) := by
  simp only [State.tblWrite, State.tblRead, State.tblRemove, State.tblLock, s.cmdSlot_unknown _ unknown, and_self]

theorem State.tblLookup_hit (s : State) (c : TblCmd) (loc : Nat) (e : Entry)
    (finds : s.probeFinds (BitVec.ofNat 64 (leAt c.entry 0 8)) (some loc)) (has : s.hasEntry e.handle loc e) :
    s.tblLookup c = ({ c.about e loc stCOMPLETED 0 with entry := some e.bytes }, s.wrap Reg.NTB_LOOKUPS) := by
  have slot : mget s.ntb.slots loc = some { entry := e, bad := false, perr := 0 } := has.2.2.1
  have slot' : mget (s.wrap Reg.NTB_LOOKUPS).ntb.slots loc = some { entry := e, bad := false, perr := 0 } := slot
  have counted : s.countLookup true = s.wrap Reg.NTB_LOOKUPS := by rw [State.countLookup, if_pos rfl]
  unfold State.tblLookup
  rw [s.probe_finds _ 0 _ finds]
  dsimp only
  rw [Option.isSome_some, counted, Option.bind_some, slot', Option.map_some]

theorem State.tblLookup_miss (s : State) (c : TblCmd) (finds : s.probeFinds (BitVec.ofNat 64 (leAt c.entry 0 8)) none) :
    s.tblLookup c = (c.fail stREFUSED 0x04, (s.wrap Reg.NTB_LOOKUPS).bump Reg.NTB_LOOKUP_MISS) := by
  have counted : s.countLookup false = (s.wrap Reg.NTB_LOOKUPS).bump Reg.NTB_LOOKUP_MISS := by
    rw [State.countLookup, if_neg (by decide)]
  unfold State.tblLookup
  rw [s.probe_finds _ 0 _ finds]
  dsimp only
  rw [Option.isSome_none, counted, Option.bind_none]

/-- Settles O24: commands that fail, LOOKUP, and where results go. -/
theorem tableRefusals : Obligations.TableRefusals := by
  refine ⟨fun s c front live run => ?_, fun s => ⟨fun c front op live run => ⟨fun loc e finds has => ?_, fun finds => ?_⟩,
    fun d => ⟨fun host stopped => ?_, fun host dma => s.tblReport_dma d host dma, fun tunnel => ?_⟩⟩⟩
  · intro no
    have alone := fun op f code => s.tblStep_alone c op f front run code live
    have refused : ∀ {op : Nat} {f : State → TblCmd → TblDone × State} {d : TblDone}, c.op = op →
        f { s with ntb.cmdQ := [] } c = (d, { s with ntb.cmdQ := [] }) →
        s.tblStep op f = State.tblReport { s with ntb.cmdQ := [] } d := fun {op f d} code h => by rw [alone op f code, h]
    refine ⟨fun unknown => ?_, fun loc e has => ⟨fun miss => ?_, fun op match_ queued => ?_, fun op locked => ?_⟩⟩
    · obtain ⟨write, read, remove, lock⟩ := State.tbl_unknown { s with ntb.cmdQ := [] } c unknown
      exact ⟨fun op => ⟨_, congrArg Host.Outcome.next (refused op write), _, rfl, rfl, rfl, rfl⟩,
        fun op => ⟨_, congrArg Host.Outcome.next (refused op read), _, rfl, rfl, rfl, rfl⟩,
        fun op => ⟨_, congrArg Host.Outcome.next (refused op remove), _, rfl, rfl, rfl, rfl⟩,
        fun op => ⟨_, congrArg Host.Outcome.next (refused op lock), _, rfl, rfl, rfl, rfl⟩⟩
    · obtain ⟨write, remove⟩ := State.tbl_genMiss { s with ntb.cmdQ := [] } c loc e has miss
      exact ⟨fun op => ⟨_, congrArg Host.Outcome.next (refused op write), _, rfl, rfl, rfl, rfl⟩,
        fun op => ⟨_, congrArg Host.Outcome.next (refused op remove), _, rfl, rfl, rfl, rfl⟩⟩
    · exact ⟨_, congrArg Host.Outcome.next (refused op (State.tblRemove_queued { s with ntb.cmdQ := [] } c loc e has match_ queued)),
        _, rfl, rfl, rfl, rfl⟩
    · exact ⟨_, congrArg Host.Outcome.next (refused op (State.tblLock_locked { s with ntb.cmdQ := [] } c loc e has locked)),
        _, rfl, rfl, rfl, rfl⟩
  · have step := s.tblStep_alone c 6 State.tblLookup front run op live
    rw [State.tblLookup_hit { s with ntb.cmdQ := [] } c loc e finds has] at step
    exact ⟨_, congrArg Host.Outcome.next step, _, rfl, rfl, rfl, rfl⟩
  · have step := s.tblStep_alone c 6 State.tblLookup front run op live
    rw [State.tblLookup_miss { s with ntb.cmdQ := [] } c finds] at step
    exact ⟨_, congrArg Host.Outcome.next step, _, rfl, rfl, rfl⟩
  · simp only [State.tblReport, State.flushTbl]
    rw [if_neg (by simp [host]), if_neg (by exact ne_true_of_eq_false stopped)]
  · simp only [State.tblReport]
    rw [if_pos tunnel]

end Sys2Proof.Machine

/-!
PROOF. Stash drain, sweeper, lock timeout and purge (O25, R187, R190, R192, R193, R265).
-/

namespace Sys2Proof.Machine

/-! ### The drain (R187) -/

/-- A search that one element alone satisfies finds it. -/
theorem find?_only {α : Type} (l : List α) (p : α → Bool) {a : α} (mem : a ∈ l) (has : p a = true) (only : ∀ x ∈ l, p x = true → x = a) :
    l.find? p = some a := by
  cases found : l.find? p with
  | none => exact absurd has (by simpa using List.find?_eq_none.mp found a mem)
  | some x => rw [only x (List.mem_of_find?_eq_some found) (List.find?_some found)]

/-- A move takes a slot's content to another slot, with the directory record of its handle. -/
theorem State.move_ntb (s : State) (src dst : Nat) {sl : Slot} (h : mget s.ntb.slots src = some sl) :
    (s.move src dst).ntb = { s.ntb with slots := mdel (mput s.ntb.slots dst sl) src,
                                        dir := mput s.ntb.dir sl.entry.handle.toNat ⟨BitVec.ofNat 19 dst, false⟩ } := by
  simp only [State.move, h]

theorem exec_stashDrainTick (s : State) (e : Entry) (i d : Nat) (on : s.on Reg.NTB_STASH_DRAIN = true)
    (run : s.runs .NTB = true) (active : s.standby = false) (place : i < 16)
    (alone : ∀ j < 16, j ≠ i → mget s.ntb.slots (stashLoc j) = none) (open_ : e.lock = false)
    (slot : mget s.ntb.slots (stashLoc i) = some { entry := e, bad := false, perr := 0 })
    (free : s.freeIn 0 (s.bucket 0 e.eui) = some d) :
    exec .stashDrainTick s = .next ((State.move { s with ntb.drainAt := i } (stashLoc i) d).bump Reg.NTB_DRAINED) := by
  have pick : ((List.range 16).map (fun k => (s.ntb.drainAt + 1 + k) % 16)).find? (fun i =>
      match mget s.ntb.slots (stashLoc i) with
      | some sl => !sl.bad && !sl.entry.lock
      | none => false) = some i := by
    refine find?_only _ _ ?_ (by simp [slot, open_]) (fun j hj has => ?_)
    · refine List.mem_map.mpr ⟨(i + 16 - (s.ntb.drainAt + 1) % 16) % 16, List.mem_range.mpr (by omega), ?_⟩
      omega
    · obtain ⟨k, -, rfl⟩ := List.mem_map.mp hj
      by_contra other
      rw [alone _ (Nat.mod_lt _ (by decide)) other] at has
      cases has
  have goes : State.findPlace { s with ntb.drainAt := i } e.eui = (some (d, 0), { s with ntb.drainAt := i }) := by
    have free' : State.freeIn { s with ntb.drainAt := i } 0 (State.bucket { s with ntb.drainAt := i } 0 e.eui) = some d := free
    simp only [State.findPlace, free']
  simp only [exec, execStashDrainTick]
  rw [if_pos (by simp [← State.on_get, on, run, active])]
  split
  · rename_i none_
    exact absurd (none_.symm.trans pick) (by simp)
  · rename_i j found
    obtain rfl : j = i := Option.some.inj (found.symm.trans pick)
    simp only [slot, State.checkWords, if_true, Bool.not_true, Bool.false_eq_true, if_false, goes]

/-! ### The sweeper (R190, R192) -/

theorem exec_sweepVisit (s : State) (e : Entry) (on : s.rd Reg.NTB_SWEEP_PER ≠ 0) (run : s.runs .NTB = true)
    (active : s.standby = false)
    (slot : mget s.ntb.slots (s.rd Reg.NTB_SWEEP_POS) = some { entry := e, bad := false, perr := 0 })
    (open_ : e.lock = false) (loose : e.pin = false) (empty : e.qne = false) :
    let pos := s.rd Reg.NTB_SWEEP_POS
    let s' := s.wr Reg.NTB_SWEEP_POS (if pos = 0x4000F then 0 else pos + 1)
    exec .sweepVisit s = .next (if e.hit then
        { s' with ntb.slots := mput s'.ntb.slots pos { entry := { e with hit := false, amark := false }, bad := false, perr := 0 } }
      else if e.amark then { s' with ntb.sweepCmp := some pos }
      else { s' with ntb.slots := mput s'.ntb.slots pos { entry := { e with amark := true }, bad := false, perr := 0 } }) := by
  have slot' : ∀ v, mget (s.wr Reg.NTB_SWEEP_POS v).ntb.slots (s.rd Reg.NTB_SWEEP_POS) =
    some { entry := e, bad := false, perr := 0 } := fun v => slot
  dsimp only
  simp only [exec, execSweepVisit]
  rw [if_neg (by simp only [decide_eq_false on, run, active]; decide)]
  simp only [slot', State.checkWords, if_true, Bool.not_true, Bool.false_eq_true, if_false, open_, loose, empty, Bool.or_self]
  split
  · rfl
  · split <;> rfl

/-- The second access of the third case: it tests HIT alone. -/
theorem exec_compareRemove (s : State) (e : Entry) (loc : Nat) (cmp : s.ntb.sweepCmp = some loc)
    (slot : mget s.ntb.slots loc = some { entry := e, bad := false, perr := 0 }) :
    let s' := { s with ntb.sweepCmp := none }
    exec .compareRemove s = .next (if e.hit then
        State.bump { s' with
          ntb.slots := mput s'.ntb.slots loc { entry := { e with hit := false, amark := false }, bad := false, perr := 0 } }
          Reg.NTB_AGE_SAVED
      else (((s'.removeAt loc e).record 0x12 (tableEvent 1 e.gen (some e.handle) 0 e.eui)).bump Reg.NTB_AGED).ev
        Reg.NTB_NTB_EVT 3 72) := by
  dsimp only
  simp only [exec, execCompareRemove, cmp, slot, State.checkWords, Bool.false_eq_true, if_false, if_true, Bool.not_true]
  split <;> rfl

/-! ### A lock's time limit (R193) and the end of a purge (R265) -/

theorem exec_lockTimeout (s : State) (h : BitVec 18) (loc : Nat) (e : Entry) (run : s.runs .NTB = true)
    (has : s.hasEntry h loc e) (held : (s.ntb.locks.any (fun p => p.1 = h.toNat)) = true) :
    exec (.lockTimeout h) s = .next (((State.record { s with
        ntb.locks := s.ntb.locks.filter (fun p => p.1 ≠ h.toNat),
        ntb.slots := mput s.ntb.slots loc { entry := { e with lock := false }, bad := false, perr := 0 } } 0x12
      (tableEvent 3 e.gen (some h) 0 e.eui)).bump Reg.NTB_LOCK_EXP).ev Reg.NTB_NTB_EVT 4 72) := by
  have named := State.dirLoc_hasEntry { s with ntb.locks := s.ntb.locks.filter (fun p => p.1 ≠ h.toNat) } h loc e has
  obtain ⟨-, -, slot, handle⟩ := has
  simp only [exec, execLockTimeout]
  rw [if_pos (by simp only [run, held, Bool.and_self]), named]
  simp only [Option.bind_some, slot, Option.map_some, State.checkWords, Bool.false_eq_true, if_false, if_true, Bool.not_true,
    Bool.false_or, handle, ne_eq, not_true_eq_false, decide_false]

theorem State.removeQueues_keeps (l : List (BitVec 18 × Queue)) (s : State) :
    (l.foldl (fun (s : State) p => s.removeQueue p.2) s).car = s.car ∧
      (l.foldl (fun (s : State) p => s.removeQueue p.2) s).regs = s.regs :=
  ⟨foldl_keeps (fun s : State => s.car) _ _ _ (fun t p => by simp),
    foldl_keeps (fun s : State => s.regs) _ _ _ (fun t p => by simp)⟩

/-- What a purge withdraws: the frames of its entry that have not been offered. -/
theorem State.removeFrames_spec (s : State) (h : BitVec 18) :
    (s.removeFrames h).1 = ((s.car.orphans.filter (fun p => p.1 = h)).map (fun p => p.2.items.length - p.2.read)).sum ∧
      (s.removeFrames h).2.car.purge = s.car.purge ∧ (s.removeFrames h).2.regs = s.regs ∧
      ∀ p ∈ (s.removeFrames h).2.car.orphans, p.1 = h → p.2.items.length ≤ p.2.read := by
  obtain ⟨car, regs⟩ := State.removeQueues_keeps (s.car.orphans.filter (fun p => p.1 = h)) s
  simp only [State.removeFrames, car]
  refine ⟨trivial, trivial, regs, fun p hp mine => ?_⟩
  rcases List.mem_append.mp hp with other | offered
  · simp [mine] at other
  · obtain ⟨x, -, rfl⟩ := List.mem_map.mp (List.mem_filter.mp offered).1
    simp [Queue.offered]

theorem exec_purgeEnd (s : State) (h : BitVec 18) (rest : List (BitVec 18)) (front : s.car.purge = h :: rest) :
    exec .purgeEnd s = .next (((State.removeFrames { s with car.purge := rest } h).2.bumpN Reg.CAR_PURGED
      (State.removeFrames { s with car.purge := rest } h).1).ev Reg.CAR_CAR_EVT 6 104) := by
  simp only [exec, execPurgeEnd, front]

/-- Settles O25: the drain, the sweeper, its compare-and-remove, a lock's timeout and a purge's end. -/
theorem drainSweepAndLocks : Obligations.DrainSweepAndLocks := by
  refine ⟨fun s e => ⟨fun i d on run active place alone open_ slot free => ?_, fun pos here on run active slot open_ loose empty => ?_,
    fun loc cmp slot => ?_⟩, fun s => ⟨fun h loc e run has held => ?_, fun h rest front => ?_⟩⟩
  · have apart : d ≠ stashLoc i := by
      rintro rfl
      have empty := List.find?_some free
      simp [slot] at empty
    refine ⟨_, exec_stashDrainTick s e i d on run active place alone open_ slot free, ?_⟩
    have moved := State.move_ntb { s with ntb.drainAt := i } (stashLoc i) d slot
    simp only [State.bump_keeps, moved]
    refine ⟨trivial, by rw [mget_mdel, if_pos rfl], ?_, mget_mput_same _ _ _⟩
    rw [mget_mdel, if_neg apart, mget_mput_same]
  · subst here
    have width : Reg.NTB_SWEEP_POS.width = 19 := rfl
    have pos : ∀ v, (s.wr Reg.NTB_SWEEP_POS v).rd Reg.NTB_SWEEP_POS = v % 2 ^ 19 := fun v => by
      rw [State.rd_get, State.wr_regs, Fld.get_put_same, width]
    refine ⟨_, exec_sweepVisit s e on run active slot open_ loose empty, ?_⟩
    cases hit : e.hit
    · cases mark : e.amark
      · exact ⟨pos _, fun h => absurd h (by simp), fun _ _ => mget_mput_same _ _ _, fun _ h => absurd h (by simp)⟩
      · exact ⟨pos _, fun h => absurd h (by simp), fun _ h => absurd h (by simp), fun _ _ => ⟨rfl, rfl⟩⟩
    · exact ⟨pos _, fun _ => mget_mput_same _ _ _, fun h => absurd h (by simp), fun h => absurd h (by simp)⟩
  · refine ⟨_, exec_compareRemove s e loc cmp slot, ?_⟩
    cases hit : e.hit
    · obtain ⟨slots, dir, -⟩ := State.removeAt_ntb { s with ntb.sweepCmp := none } loc e
      have cmp' : (State.removeAt { s with ntb.sweepCmp := none } loc e).ntb.sweepCmp = none := by
        unfold State.removeAt
        dsimp only
        split <;> rfl
      rw [if_neg (by decide)]
      simp only [State.ev_keeps, State.bump_keeps, State.record_keeps, slots, dir]
      exact ⟨cmp', fun h => absurd h (by simp), fun _ => ⟨by rw [mget_mdel, if_pos rfl], by rw [mget_mdel, if_pos rfl]⟩⟩
    · exact ⟨rfl, fun _ => mget_mput_same _ _ _, fun h => absurd h (by simp)⟩
  · refine ⟨_, exec_lockTimeout s h loc e run has held, ?_⟩
    obtain ⟨fits, dir, -, handle⟩ := has
    refine ⟨?_, ?_, ?_, State.ev_testBit _ _ (by decide)⟩
    · simp only [State.hasEntry, State.ev_keeps, State.bump_keeps, State.record_keeps]
      exact ⟨fits, dir, mget_mput_same _ _ _, handle⟩
    · simp only [State.ev_keeps, State.bump_keeps, State.record_keeps]
      exact fun p hp => by simpa using (List.mem_filter.mp hp).2
    · simp only [State.rd_get]
      rw [State.get_ev_place (by decide), State.bump_regs, Fld.get_put_same, saturated_mod, State.record_get (by decide)]
      rfl
  · obtain ⟨count, purge, regs, left⟩ := State.removeFrames_spec { s with car.purge := rest } h
    refine ⟨_, exec_purgeEnd s h rest front, ?_, ?_, ?_, State.ev_testBit _ _ (by decide)⟩
    · simp only [State.ev_keeps, State.bumpN_keeps]
      exact purge
    · simp only [State.ev_keeps, State.bumpN_keeps]
      exact left
    · simp only [State.rd_get]
      rw [State.get_ev_place (by decide), State.bumpN_regs, Fld.get_put_same, saturated_mod, regs, count]
      rfl

end Sys2Proof.Machine

/-!
PROOF. The wheel's buckets and its overflow list (O26, R209, R211, R212, R215).
-/

namespace Sys2Proof.Machine

/-! ### What a high-water mark leaves -/

@[simp] theorem State.get_peak_place {f g : Fld} (h : g.place ≠ f.place) (s : State) (v c : Nat) :
    g.get (s.peak f v).regs 0 c = g.get s.regs 0 c :=
  get_ite (by rw [State.wr_regs, Fld.get_put_place h]) rfl

theorem State.peak_zero (s : State) (f : Fld) : s.peak f 0 = s := by
  unfold State.peak
  exact if_neg (Nat.not_lt_zero _)

theorem State.standby_peak {f : Fld} (h : Reg.TWN_TW_STATE.place ≠ f.place) (s : State) (v : Nat) :
    (s.peak f v).standby = s.standby := by
  simp only [State.standby, State.rd_get, State.get_peak_place h, State.peak_keeps]

@[simp] theorem State.fe_peak (s : State) (f : Fld) (v : Nat) (g : Grp) : (s.peak f v).fe g = s.fe g :=
  State.fe_of_parts (by simp) (by simp) (by simp) g

/-! ### A bucket (R212) -/

/-- With no calibration and no tuner search pending no gap is granted (R222). -/
theorem State.grantGaps_idle (s : State) (m : Nat) (live : List Nat) (idle : ∀ g, (s.fe g).cal = none ∧ (s.fe g).tune = none) :
    allGrps.foldl (fun s g => s.grantGap m live g) s = s := by
  refine foldl_fixed_of_mem _ _ _ (fun g _ => ?_)
  obtain ⟨cal, tune⟩ := idle g
  simp only [State.grantGap, cal, tune, Option.isSome_none, Bool.or_self, Bool.false_and, Bool.false_eq_true, if_false]

/-- The wheel after bucket `m` is taken, its one event counted. -/
def State.bucketTaken (s : State) (m : Nat) (live : List Nat) : State :=
  State.peak { s with sch.wheel := [], sch.lastBucket := some m, sch.liveGrps := live } Reg.SCH_BKT_PEAK 1

section
variable (s : State) (m : Nat) (run : s.runs .SCH = true) (table : s.runs .NTB = true) (set_ : s.on Reg.TIM_TIME_SET = true)
  (last : s.sch.lastBucket = some m) (come : m + 1 ≤ s.ms + 3) (active : s.standby = false)
  (idle : ∀ g, (s.fe g).cal = none ∧ (s.fe g).tune = none)
include run table set_ last come active idle

theorem exec_bucketProcess_empty (later : ∀ v ∈ s.sch.wheel, m + 1 < WEvent.ms v) :
    exec .bucketProcess s = .next ({ s with sch := { s.sch with lastBucket := some (m + 1), liveGrps := [] } }) := by
  have due : s.sch.wheel.filter (fun v => WEvent.ms v ≤ m + 1) = [] :=
    List.filter_eq_nil_iff.mpr (fun v hv => by simpa using later v hv)
  have left : s.sch.wheel.filter (fun v => m + 1 < WEvent.ms v) = s.sch.wheel :=
    List.filter_eq_self.mpr (fun v hv => by simpa using later v hv)
  have awake : State.standby { s with sch := { s.sch with lastBucket := some (m + 1), liveGrps := [] } } = false := active
  simp only [exec, execBucketProcess, last]
  rw [if_neg (by rw [set_, run, table, decide_eq_false (Nat.not_lt.mpr come)]; decide)]
  simp only [due, left, List.map_nil, List.foldr_nil, List.filterMap_nil, List.append_nil, List.foldl_nil, List.length_nil]
  rw [if_neg (by rw [awake]; decide)]
  exact congrArg Host.Outcome.next ((State.grantGaps_idle _ _ _ (fun g => by
    rw [Nat.zero_min, State.peak_zero]; exact idle g)).trans (State.peak_zero _ _))

theorem exec_bucketProcess_one {v : WEvent} (one : s.sch.wheel = [v]) (now : WEvent.ms v = m + 1) :
    exec .bucketProcess s = .next ((s.bucketTaken (m + 1)
      ([v].filterMap (fun v => (s.liveEvent v (m + 1)).map (fun x => (s.chanGrp x.1.chan).code)))).wakeEvent (m + 1) v) := by
  have due : [v].filter (fun v => WEvent.ms v ≤ m + 1) = [v] := by simp [now]
  have left : [v].filter (fun v => m + 1 < WEvent.ms v) = [] := by simp [now]
  have event : (((v :: []).map (fun v => (s.eventP v (m + 1), v))).foldr sortEvent []).map (fun x => x.2) = [v] := rfl
  simp only [exec, execBucketProcess, last, one]
  rw [if_neg (by rw [set_, run, table, decide_eq_false (Nat.not_lt.mpr come)]; decide)]
  simp only [due, left, event, List.foldl_cons, List.foldl_nil, List.length_singleton]
  rw [if_neg (by exact ne_true_of_eq_false active)]
  refine congrArg (fun t : State => Host.Outcome.next (t.wakeEvent (m + 1) v)) (State.grantGaps_idle _ _ _ (fun g => ?_))
  rw [State.fe_peak]
  exact idle g

end

/-! ### An event of a bucket (R211, R215) -/

theorem State.bucketTaken_fits (s : State) (m : Nat) (live : List Nat) : (s.bucketTaken m live).ntb = s.ntb ∧
    (s.bucketTaken m live).sch = { s.sch with wheel := [], lastBucket := some m, liveGrps := live } ∧
    (s.bucketTaken m live).grn = s.grn ∧ (s.bucketTaken m live).quiet = s.quiet ∧ (s.bucketTaken m live).standby = s.standby ∧ (s.bucketTaken m live).dlOpen = s.dlOpen ∧
    Reg.SCH_STALE.get (s.bucketTaken m live).regs 0 0 = Reg.SCH_STALE.get s.regs 0 0 := by
  have still : (s.bucketTaken m live).standby = s.standby := State.standby_peak (by decide) _ _
  refine ⟨by simp [State.bucketTaken], by simp [State.bucketTaken], by simp [State.bucketTaken], ?_, still, ?_, State.get_peak_place (by decide) _ _ _⟩
  · simp only [State.quiet, still]
    simp [State.bucketTaken]
  simp only [State.dlOpen, State.bucketTaken, State.rd_get]
  rw [State.get_peak_place (by decide)]

/-- The tests of a live event read the table alone (R211). -/
theorem State.liveEvent_of_ntb {s t : State} (h : t.ntb = s.ntb) (v : WEvent) (m : Nat) : t.liveEvent v m = s.liveEvent v m := by
  have dir : ∀ h, (t.dirLoc h).1 = (s.dirLoc h).1 := fun n => by
    unfold State.dirLoc
    rw [h]
    split
    · rfl
    · split <;> rfl
  simp only [State.liveEvent, State.entry, State.slotOf, dir, h]

/-- A live event whose uncertainty exceeds its class makes its node DRIFTED (R215). -/
theorem State.wakeEvent_drifts (s : State) (m : Nat) (v : WEvent) {e : Entry} {w : Int} {loc : Nat}
    (live : s.liveEvent v m = some (e, w)) (has : s.hasEntry v.handle loc e) (awake : s.quiet = false) (open_ : s.dlOpen = true)
    (active : e.state = .active) (chan : s.chanLive e.chan = true) (unsure : wmaxUs e.wcls < uncertainty e (wakeDelta e w)) :
    s.wakeEvent m v = ((State.updEntry s e.handle (fun e => { e with wheeled := false })).wrap Reg.SCH_WAKES).driftGuard e
      (uncertainty e (wakeDelta e w)) := by
  have upd := s.updEntry_hasEntry v.handle loc e (fun e => { e with wheeled := false }) has
  obtain ⟨-, -, -, handle⟩ := has
  rw [← handle] at upd
  simp only [State.wakeEvent, live]
  generalize s.updEntry e.handle (fun e => { e with wheeled := false }) = t at upd ⊢
  have awake' : t.quiet = false := by rw [upd]; exact awake
  have open' : t.dlOpen = true := by rw [upd]; exact open_
  have chan' : (t.wrap Reg.SCH_WAKES).chanLive e.chan = true := by rw [upd]; exact chan
  rw [if_neg (ne_true_of_eq_false awake'), if_neg (by rw [open']; decide), if_neg (not_not_intro active),
    if_neg (by rw [chan']; decide), if_pos unsure]

theorem State.driftGuard_spec (s : State) (e : Entry) (u loc : Nat) (e' : Entry) (has : s.hasEntry e.handle loc e') :
    (s.driftGuard e u).sch = s.sch ∧
      (s.driftGuard e u).hasEntry e.handle loc { e' with state := .drifted, wheeled := false } ∧
      ((s.driftGuard e u).rd Reg.SCH_SCH_EVT).testBit 0 = true := by
  refine ⟨by simp [State.driftGuard], ?_, State.ev_testBit _ _ (by decide)⟩
  have upd := s.hasEntry_updEntry e.handle loc e' (fun e => { e with state := .drifted, wheeled := false }) has rfl
  simp only [State.driftGuard, State.hasEntry, State.ev_keeps, State.bump_keeps, State.schedRecord_keeps]
  exact upd

/-- Settles O26: an empty bucket, a stale event, a live one that drifts, and an overflow event. -/
theorem bucketsAndOverflow : Obligations.BucketsAndOverflow := by
  refine fun s m run => ⟨fun table set_ last come active idle => ⟨fun later => ?_, fun v one now => ⟨fun stale => ?_,
    fun loc e w live has steady open_ state chan unsure => ?_⟩⟩, fun v rest front near => ?_⟩
  · exact exec_bucketProcess_empty s m run table set_ last come active idle later
  · refine ⟨_, exec_bucketProcess_one s m run table set_ last come active idle one now, ?_⟩
    obtain ⟨ntb, sch, -, -, still, -, count⟩ := s.bucketTaken_fits (m + 1)
      ([v].filterMap (fun v => (s.liveEvent v (m + 1)).map (fun x => (s.chanGrp x.1.chan).code)))
    have stale' := (State.liveEvent_of_ntb ntb v (m + 1)).trans stale
    have none_live : [v].filterMap (fun v => (s.liveEvent v (m + 1)).map (fun x => (s.chanGrp x.1.chan).code)) = [] := by
      simp [stale]
    simp only [State.wakeEvent, stale']
    rw [if_neg (by rw [still, active]; decide)]
    simp only [State.bump_keeps, sch, State.rd_get, State.bump_regs, Fld.get_put_same, saturated_mod, count]
    exact ⟨by rw [none_live], rfl⟩
  · refine ⟨_, exec_bucketProcess_one s m run table set_ last come active idle one now, ?_⟩
    obtain ⟨ntb, sch, grn, quiet, -, openS, -⟩ := s.bucketTaken_fits (m + 1)
      ([v].filterMap (fun v => (s.liveEvent v (m + 1)).map (fun x => (s.chanGrp x.1.chan).code)))
    generalize s.bucketTaken (m + 1) _ = t at ntb sch grn quiet openS ⊢
    have has' : t.hasEntry v.handle loc e := by
      simp only [State.hasEntry, ntb]
      exact has
    have handle := has.2.2.2
    have awake : s.quiet = false := by simp only [State.quiet, active, steady, Bool.or_self]
    have chan' : t.chanLive e.chan = true := by
      rw [← chan]
      simp only [State.chanLive, State.planAt, grn]
    rw [t.wakeEvent_drifts (m + 1) v ((State.liveEvent_of_ntb ntb v _).trans live) has' (quiet.trans awake)
      (openS.trans open_) state chan' unsure]
    have upd := t.hasEntry_updEntry v.handle loc e (fun e => { e with wheeled := false }) has' rfl
    rw [← handle] at upd ⊢
    obtain ⟨sch', drifted, event⟩ := State.driftGuard_spec
      ((t.updEntry e.handle (fun e => { e with wheeled := false })).wrap Reg.SCH_WAKES) e
      (uncertainty e (wakeDelta e w)) loc { e with wheeled := false } upd
    simp only [State.wrap_keeps, State.updEntry_keeps, sch] at sch'
    rw [sch']
    exact ⟨rfl, rfl, drifted, event⟩
  · simp only [exec, execOverflowMove, front, run, decide_eq_true near, Bool.and_self, if_true]

end Sys2Proof.Machine

/-!
PROOF. Predicted wakes (O27, R201, R207): the instant of a wake, and the search for the next one.
-/

namespace Sys2Proof.Machine

/-! ### Wakes stand one interval apart (R201) -/

theorem wakeMs_succ (e : Entry) (k : Int) : wakeMs e (k + 1) = wakeMs e k + e.wakeInt.toNat := by
  unfold wakeMs
  ring

theorem wakeMs_emod (e : Entry) (k : Int) : wakeMs e k % e.wakeInt.toNat = e.wakePhase.toNat % e.wakeInt.toNat := by
  unfold wakeMs
  rw [Int.mul_add_emod_self_right, Int.natCast_mod, Int.emod_emod_of_dvd _ dvd_rfl]

/-- Two wakes stand as many intervals apart as their indices. -/
theorem wakeMs_sub (e : Entry) (j k : Int) : wakeMs e k = wakeMs e j + (k - j) * e.wakeInt.toNat := by
  unfold wakeMs
  ring

theorem wakeInt_pos {e : Entry} (h : e.wakeInt ≠ 0) : (0 : Int) < e.wakeInt.toNat := by
  have : e.wakeInt.toNat ≠ 0 := fun z => h (BitVec.eq_of_toNat_eq (by simpa using z))
  omega

/-! ### The instant of a wake (R207) -/

/-- Rounding to the nearest is within a half. -/
theorem roundDiv_near (n : Int) : -100000 ≤ 200000 * roundDiv n 100000 - 2 * n ∧ 200000 * roundDiv n 100000 - 2 * n ≤ 100000 := by
  unfold roundDiv
  split <;> constructor <;> omega

/-- How often Δ has wrapped at a wake. -/
def wraps (e : Entry) (w : Int) : Int := (w - e.lastContact.toNat) / 2 ^ 32

theorem wakeDelta_eq (e : Entry) (w : Int) : (wakeDelta e w : Int) = w - e.lastContact.toNat - 2 ^ 32 * wraps e w := by
  unfold wakeDelta wraps
  omega

/-- A wake's instant lies within the span of its millisecond. -/
theorem wakeP_near (e : Entry) (w : Int) : 1000 * w - wakeSpan < wakeP e w ∧ wakeP e w < 1000 * w + wakeSpan := by
  have ofs : -2147483648 ≤ e.clkOfs.toInt ∧ e.clkOfs.toInt < 2147483648 := ⟨BitVec.le_toInt _, BitVec.toInt_lt⟩
  have drift : -32768 ≤ e.drift.toInt ∧ e.drift.toInt < 32768 := ⟨BitVec.le_toInt _, BitVec.toInt_lt⟩
  have delta : (wakeDelta e w : Int) < 4294967296 := by unfold wakeDelta; omega
  obtain ⟨low, high⟩ := roundDiv_near (e.drift.toInt * wakeDelta e w)
  have most : e.drift.toInt * wakeDelta e w ≤ 32768 * 4294967296 := by nlinarith
  have least : -(32768 * 4294967296) ≤ e.drift.toInt * wakeDelta e w := by nlinarith
  unfold wakeP wakeSpan
  constructor <;> omega

/-- While Δ does not wrap, a later wake has a later instant. -/
theorem wakeP_mono (e : Entry) {w v : Int} (same : wraps e w = wraps e v) (le : w ≤ v) : wakeP e w ≤ wakeP e v := by
  have drift : e.drift.toInt < 32768 := BitVec.toInt_lt
  have apart : (wakeDelta e v : Int) = wakeDelta e w + (v - w) := by rw [wakeDelta_eq, wakeDelta_eq, same]; ring
  have moved : e.drift.toInt * wakeDelta e v = e.drift.toInt * wakeDelta e w + e.drift.toInt * (v - w) := by rw [apart]; ring
  have slow : e.drift.toInt * (v - w) ≤ 32768 * (v - w) := mul_le_mul_of_nonneg_right (by omega) (by omega)
  obtain ⟨-, high⟩ := roundDiv_near (e.drift.toInt * wakeDelta e v)
  obtain ⟨low, -⟩ := roundDiv_near (e.drift.toInt * wakeDelta e w)
  rcases eq_or_lt_of_le le with rfl | lt
  · exact le_rfl
  · unfold wakeP
    omega

/-! ### The search (R207) -/

/-- What the halving search finds: the least index of a range that a rising predicate names. -/
theorem bisect_spec (p : Int → Bool) (n : Nat) (lo hi : Int) (le : lo ≤ hi) (near : hi - lo < 2 ^ n) (last : p hi = true)
    (rising : ∀ a b, lo ≤ a → a ≤ b → b ≤ hi → p a = true → p b = true) :
    lo ≤ bisect p n lo hi ∧ p (bisect p n lo hi) = true ∧ ∀ k, lo ≤ k → k < bisect p n lo hi → p k = false := by
  induction n generalizing lo hi with
  | zero =>
    have : hi - lo < 1 := by simpa using near
    exact ⟨le, last, fun k _ _ => by simp only [bisect] at *; omega⟩
  | succ n ih =>
    have half : hi - lo < 2 * 2 ^ n := by rw [pow_succ] at near; omega
    unfold bisect
    split
    · exact ⟨by omega, last, fun k _ _ => by omega⟩
    · dsimp only
      split
      · rename_i mid
        exact ih lo _ (by omega) (by omega) mid (fun a b ha hab hb => rising a b ha hab (by omega))
      · rename_i mid
        obtain ⟨low, has, first⟩ := ih ((lo + hi) / 2 + 1) hi (by omega) (by omega) last
          (fun a b ha hab hb => rising a b (by omega) hab hb)
        refine ⟨by omega, has, fun k hk hlt => ?_⟩
        by_cases late : (lo + hi) / 2 + 1 ≤ k
        · exact first k late hlt
        · cases named : p k
          · rfl
          · exact absurd (rising k _ hk (by omega) (by omega) named) mid

section
variable {e : Entry} (int : e.wakeInt ≠ 0)
include int

theorem wakeMs_mono {j k : Int} (le : j ≤ k) : wakeMs e j ≤ wakeMs e k := by
  have pos := wakeInt_pos int
  have gap : 0 ≤ (k - j) * (e.wakeInt.toNat : Int) := mul_nonneg (by omega) (by omega)
  rw [wakeMs_sub e j k]
  omega

/-- A wake stands within its interval. -/
theorem wakeMs_bounds (k : Int) : k * e.wakeInt.toNat ≤ wakeMs e k ∧ wakeMs e k < (k + 1) * e.wakeInt.toNat := by
  have pos := wakeInt_pos int
  have phase : e.wakePhase.toNat % e.wakeInt.toNat < e.wakeInt.toNat := Nat.mod_lt _ (by omega)
  unfold wakeMs
  constructor
  · omega
  · rw [add_mul, one_mul]
    omega

/-- Below the search's range no instant is late enough. -/
theorem wakeP_below (t k : Int) (low : k < (t - wakeSpan) / (1000 * e.wakeInt.toNat) - 1) : wakeP e (wakeMs e k) < t := by
  have pos := wakeInt_pos int
  have near := (wakeP_near e (wakeMs e k)).2
  have within := (wakeMs_bounds int k).2
  have floor := Int.mul_ediv_self_le (x := t - wakeSpan) (k := 1000 * e.wakeInt.toNat) (by omega)
  have next : (k + 1) * (e.wakeInt.toNat : Int) ≤ ((t - wakeSpan) / (1000 * e.wakeInt.toNat)) * e.wakeInt.toNat :=
    mul_le_mul_of_nonneg_right (by omega) (by omega)
  have scaled : 1000 * (((t - wakeSpan) / (1000 * e.wakeInt.toNat)) * (e.wakeInt.toNat : Int)) ≤ t - wakeSpan :=
    le_of_eq_of_le (by ring) floor
  omega

/-- The last index of the search's range is late enough. -/
theorem wakeP_last (t : Int) : t ≤ wakeP e (wakeMs e ((t + wakeSpan) / (1000 * e.wakeInt.toNat) + 1)) := by
  have pos := wakeInt_pos int
  have near := (wakeP_near e (wakeMs e ((t + wakeSpan) / (1000 * e.wakeInt.toNat) + 1))).1
  have within := (wakeMs_bounds int ((t + wakeSpan) / (1000 * e.wakeInt.toNat) + 1)).1
  have ceil := Int.lt_mul_ediv_self_add (x := t + wakeSpan) (k := 1000 * e.wakeInt.toNat) (by omega)
  have scaled : 1000 * (((t + wakeSpan) / (1000 * e.wakeInt.toNat) + 1) * (e.wakeInt.toNat : Int)) =
    1000 * e.wakeInt.toNat * ((t + wakeSpan) / (1000 * e.wakeInt.toNat)) + 1000 * e.wakeInt.toNat := by ring
  omega

/-- The range of the search is short against 2^32 ms. -/
theorem wakeRange (t : Int) :
    (t - wakeSpan) / (1000 * e.wakeInt.toNat) - 1 < (t + wakeSpan) / (1000 * e.wakeInt.toNat) + 1 ∧
    wakeMs e ((t + wakeSpan) / (1000 * e.wakeInt.toNat) + 1) < wakeMs e ((t - wakeSpan) / (1000 * e.wakeInt.toNat) - 1) + 2 ^ 32 ∧
    (t + wakeSpan) / (1000 * e.wakeInt.toNat) + 1 - ((t - wakeSpan) / (1000 * e.wakeInt.toNat) - 1) < 2 ^ 64 := by
  have pos := wakeInt_pos int
  have small : (e.wakeInt.toNat : Int) < 16777216 := by have := e.wakeInt.isLt; omega
  have le : (t - wakeSpan) / (1000 * e.wakeInt.toNat) ≤ (t + wakeSpan) / (1000 * e.wakeInt.toNat) :=
    Int.ediv_le_ediv (by omega) (by unfold wakeSpan; omega)
  have floor := Int.mul_ediv_self_le (x := t + wakeSpan) (k := 1000 * e.wakeInt.toNat) (by omega)
  have ceil := Int.lt_mul_ediv_self_add (x := t - wakeSpan) (k := 1000 * e.wakeInt.toNat) (by omega)
  have sub := wakeMs_sub e ((t - wakeSpan) / (1000 * e.wakeInt.toNat) - 1) ((t + wakeSpan) / (1000 * e.wakeInt.toNat) + 1)
  generalize (t - wakeSpan) / (1000 * (e.wakeInt.toNat : Int)) = lo at *
  generalize (t + wakeSpan) / (1000 * (e.wakeInt.toNat : Int)) = hi at *
  generalize (e.wakeInt.toNat : Int) = m at *
  have many : hi - lo ≤ (hi - lo) * m := le_mul_of_one_le_right (by omega) (by omega)
  have scaled : 1000 * ((hi - lo) * m) = 1000 * m * hi - 1000 * m * lo := by ring
  have spread : (hi + 1 - (lo - 1)) * m = (hi - lo) * m + 2 * m := by ring
  unfold wakeSpan at *
  refine ⟨by omega, by omega, by omega⟩

/-- The first wake at or after an instant. -/
theorem wakeMs_first (w : Int) :
    let b := (w - (e.wakePhase.toNat % e.wakeInt.toNat : Nat) + e.wakeInt.toNat - 1) / e.wakeInt.toNat
    w ≤ wakeMs e b ∧ wakeMs e (b - 1) < w := by
  have pos := wakeInt_pos int
  dsimp only
  generalize hx : w - ((e.wakePhase.toNat % e.wakeInt.toNat : Nat) : Int) + e.wakeInt.toNat - 1 = x
  have floor := Int.mul_ediv_self_le (x := x) (k := e.wakeInt.toNat) (by omega)
  have ceil := Int.lt_mul_ediv_self_add (x := x) (k := e.wakeInt.toNat) (by omega)
  have before := wakeMs_succ e (x / e.wakeInt.toNat - 1)
  rw [sub_add_cancel] at before
  have here : wakeMs e (x / e.wakeInt.toNat) =
      e.wakeInt.toNat * (x / e.wakeInt.toNat) + (e.wakePhase.toNat % e.wakeInt.toNat : Nat) := by
    unfold wakeMs
    ring
  omega

/-- Among the indices of a range in which Δ does not wrap, the search finds the least late enough. -/
theorem bisect_wakes (t lo hi : Int) (le : lo ≤ hi) (near : hi - lo < 2 ^ 64) (last : t ≤ wakeP e (wakeMs e hi))
    (same : ∀ k, lo ≤ k → k ≤ hi → wraps e (wakeMs e k) = wraps e (wakeMs e lo)) :
    let r := bisect (fun k => decide (t ≤ wakeP e (wakeMs e k))) 64 lo hi
    t ≤ wakeP e (wakeMs e r) ∧ ∀ k, lo ≤ k → k < r → wakeP e (wakeMs e k) < t := by
  obtain ⟨-, has, first⟩ := bisect_spec (fun k => decide (t ≤ wakeP e (wakeMs e k))) 64 lo hi le near (by simpa using last)
    (fun a b ha hab hb named => by
      have mono := wakeP_mono e ((same a ha (by omega)).trans (same b (by omega) hb).symm) (wakeMs_mono int hab)
      simp only [decide_eq_true_eq] at named ⊢
      omega)
  exact ⟨by simpa using has, fun k hk hlt => by simpa using first k hk hlt⟩

/-- The index found is the least, over every integer, whose instant is `t` or later. -/
theorem nextWakeAt_spec (t : Int) :
    t ≤ wakeP e (wakeMs e (nextWakeAt e t)) ∧ ∀ k, k < nextWakeAt e t → wakeP e (wakeMs e k) < t := by
  have below := wakeP_below int t
  have last := wakeP_last int t
  obtain ⟨le, range, near⟩ := wakeRange int t
  obtain ⟨after, before⟩ := wakeMs_first int (e.lastContact.toNat +
    ((wakeMs e ((t - wakeSpan) / (1000 * e.wakeInt.toNat) - 1) - e.lastContact.toNat) / 2 ^ 32 + 1) * 2 ^ 32)
  unfold nextWakeAt
  dsimp only at after before ⊢
  generalize (t - wakeSpan) / (1000 * (e.wakeInt.toNat : Int)) - 1 = lo at *
  generalize (t + wakeSpan) / (1000 * (e.wakeInt.toNat : Int)) + 1 = hi at *
  generalize hw : (e.lastContact.toNat : Int) + ((wakeMs e lo - e.lastContact.toNat) / 2 ^ 32 + 1) * 2 ^ 32 = w at *
  generalize (w - ((e.wakePhase.toNat % e.wakeInt.toNat : Nat) : Int) + e.wakeInt.toNat - 1) / (e.wakeInt.toNat : Int) = b at *
  have early : ∀ k, lo ≤ k → k < b → wraps e (wakeMs e k) = wraps e (wakeMs e lo) := fun k low lt => by
    have := wakeMs_mono int low
    have := wakeMs_mono int (show k ≤ b - 1 by omega)
    unfold wraps
    omega
  have late : ∀ k, b ≤ k → k ≤ hi → wraps e (wakeMs e k) = wraps e (wakeMs e lo) + 1 := fun k low le => by
    have := wakeMs_mono int low
    have := wakeMs_mono int le
    unfold wraps
    omega
  have past : lo < b := by
    by_contra h
    have := wakeMs_mono int (show b ≤ lo by omega)
    omega
  have all : ∀ {r : Int}, (∀ k, lo ≤ k → k < r → wakeP e (wakeMs e k) < t) → ∀ k, k < r → wakeP e (wakeMs e k) < t :=
    fun first k lt => if h : lo ≤ k then first k h lt else below k (by omega)
  split
  · rename_i inside
    split
    · rename_i named
      obtain ⟨has, first⟩ := bisect_wakes int t lo (b - 1) (by omega) (by omega) (by simpa using named)
        (fun k low le => early k low (by omega))
      exact ⟨has, all first⟩
    · rename_i none_
      simp only [decide_eq_true_eq, not_le] at none_
      obtain ⟨has, first⟩ := bisect_wakes int t b hi inside (by omega) last
        (fun k low le => (late k low le).trans (late b le_rfl inside).symm)
      refine ⟨has, all (fun k low lt => ?_)⟩
      by_cases h : b ≤ k
      · exact first k h lt
      · have mono := wakeP_mono e ((early k low (by omega)).trans (early (b - 1) (by omega) (by omega)).symm)
          (wakeMs_mono int (show k ≤ b - 1 by omega))
        omega
  · obtain ⟨has, first⟩ := bisect_wakes int t lo hi (by omega) (by omega) last (fun k low le => early k low (by omega))
    exact ⟨has, all first⟩

end

end Sys2Proof.Machine

/-!
PROOF. The hourly clamp and the prediction probe (O27, R206, R227).
-/

namespace Sys2Proof.Machine

theorem exec_hourlyContactClamp (s : State) (h : BitVec 18) (loc : Nat) (e : Entry) (has : s.hasEntry h loc e)
    (one : s.ntb.slots = [(loc, { entry := e, bad := false, perr := 0 })]) (sch : s.runs .SCH = true) (ntb : s.runs .NTB = true)
    (active : s.standby = false) :
    exec .hourlyContactClamp s = .next (if 2 ^ 30 < (BitVec.ofNat 32 s.ms - e.lastContact).toNat then
      s.updEntry h (fun e => { e with lastContact := BitVec.ofNat 32 s.ms - BitVec.ofNat 32 (2 ^ 30) }) else s) := by
  obtain ⟨-, -, -, handle⟩ := has
  simp only [exec, execHourlyContactClamp, one]
  rw [if_pos (by rw [sch, ntb, active]; rfl), ← handle]
  rfl

/-! ### The probe (R227) -/

theorem mput_mput {α : Type} (l : List (Nat × α)) (k : Nat) (v w : α) : mput (mput l k v) k w = mput l k w := by
  fun_induction mput l k v <;> grind [mput]

/-- The probe under way for a handle. -/
def State.probing (s : State) (h : BitVec 18) : State :=
  { (s.numbered 1).wr Reg.SCH_PRED_STAT 1 with sch.pred := some h }

theorem State.probing_regs (s : State) (h : BitVec 18) : (s.probing h).regs = Reg.SCH_PRED_STAT.put s.regs 0 0 1 := (rfl)

theorem State.probing_runs (s : State) (h : BitVec 18) (i : Isl) : (s.probing h).runs i = s.runs i :=
  State.runs_of_rd (by rw [State.rd_get, State.probing_regs, Fld.get_put_place (by decide), State.rd_get])
    (by rw [State.rd_get, State.probing_regs, Fld.get_put_place (by decide), State.rd_get]) i

/-- A host's probe, with none under way, is under way. -/
theorem exec_predCmd (s : State) (h : BitVec 18) (may : s.hostMay .SCH = true) (named : s.rd Reg.SCH_PRED_HANDLE = h.toNat)
    (free : s.rd Reg.SCH_PRED_STAT ≠ 1) :
    exec .predCmd s = .next ((s.probing h).predRun) := by
  have named' : (s.numbered 1).rd Reg.SCH_PRED_HANDLE = h.toNat := named
  have free' : (s.numbered 1).rd Reg.SCH_PRED_STAT ≠ 1 := free
  have low : (1 % 2 = 0) = False := by decide
  simp only [exec, execPredCmd, s.hostOp_may _ _ _ may, State.predCmd]
  rw [if_neg (by rw [decide_eq_false free']; decide), named', BitVec.ofNat_toNat, BitVec.setWidth_eq]
  rfl

/-- The probe's answer for an entry. -/
def State.predicted (s : State) (e : Entry) : State :=
  let w := wakeMs e (nextWake e s.us)
  let u := uncertainty e (wakeDelta e w)
  let s := (s.wr Reg.SCH_PRED_STAT 2).wr Reg.SCH_PRED_FIT (b2n (decide (u ≤ wmaxUs e.wcls)))
  (s.wr Reg.SCH_PRED_TIME ((wakeP e w * 1000) % 2 ^ 64).toNat).wr Reg.SCH_PRED_U (min u 0xFFFFFFFF)

theorem toNat_emod_mod (x : Int) : (((x % 2 ^ 64).toNat % 2 ^ 64 : Nat) : Int) = x % 2 ^ 64 := by omega

theorem min_mod_word (u : Nat) : min u 0xFFFFFFFF % 2 ^ 32 = min u 0xFFFFFFFF := by omega

theorem b2n_mod_two (p : Prop) [Decidable p] : b2n (decide p) % 2 ^ 1 = if p then 1 else 0 := by
  by_cases h : p <;> simp [h, b2n]

theorem State.predicted_spec (s : State) (e : Entry) (w : Int) (hw : wakeMs e (nextWake e s.us) = w) :
    (s.predicted e).rd Reg.SCH_PRED_STAT = 2 ∧
      (s.predicted e).rd Reg.SCH_PRED_U = min (uncertainty e (wakeDelta e w)) 0xFFFFFFFF ∧
      (s.predicted e).rd Reg.SCH_PRED_FIT = (if uncertainty e (wakeDelta e w) ≤ wmaxUs e.wcls then 1 else 0) ∧
      ((s.predicted e).rd Reg.SCH_PRED_TIME : Int) = (wakeP e w * 1000) % 2 ^ 64 ∧ (s.predicted e).sch = s.sch ∧
      (s.predicted e).ntb = s.ntb := by
  have stat : Reg.SCH_PRED_STAT.width = 2 := rfl
  have fit : Reg.SCH_PRED_FIT.width = 1 := rfl
  have time : Reg.SCH_PRED_TIME.width = 64 := rfl
  have sure : Reg.SCH_PRED_U.width = 32 := rfl
  have two : 2 % 2 ^ 2 = 2 := rfl
  simp (disch := decide) only [State.predicted, State.rd_get, State.wr_regs, Fld.get_put_same, Fld.get_put_place, stat, fit,
    time, sure, State.wr_keeps, hw, two, min_mod_word, b2n_mod_two, toNat_emod_mod, and_self]

theorem State.predRun_has (s : State) (h : BitVec 18) (loc : Nat) (e : Entry) (has : s.hasEntry h loc e)
    (pred : s.sch.pred = some h) (sch : s.runs .SCH = true) (ntb : s.runs .NTB = true) :
    s.predRun = if e.wakeInt = 0 then State.wr { s with sch.pred := none } Reg.SCH_PRED_STAT 3
      else State.predicted { s with sch.pred := none } e := by
  have seen := State.readEntry_hasEntry { s with sch.pred := none } h loc e has
  simp only [State.predRun, pred]
  rw [if_neg (by rw [sch, ntb]; decide), seen]
  rfl

/-- A probe waits while NTB is stopped (R16). -/
theorem State.predRun_waits (s : State) (h : BitVec 18) (pred : s.sch.pred = some h) (stopped : s.runs .NTB = false) :
    s.predRun = s := by
  simp only [State.predRun, pred, stopped, Bool.not_false, Bool.or_true, if_true]

/-- Settles O27: the clamp, the probe, and where the wakes of a node stand. -/
theorem predictionAndClamp : Obligations.PredictionAndClamp := by
  refine ⟨fun s h loc e has => ⟨fun one sch ntb active => ?_, fun may named free => ?_⟩, fun e int => ⟨fun k => ⟨?_, ?_⟩, fun now => ?_⟩⟩
  · refine ⟨_, exec_hourlyContactClamp s h loc e has one sch ntb active, ?_⟩
    split
    · exact s.hasEntry_updEntry h loc e _ has rfl
    · exact has
  · have sch : s.runs .SCH = true := by
      simp only [State.hostMay, Bool.and_eq_true] at may
      exact may.1.2
    have has' : (s.probing h).hasEntry h loc e := has
    have runs := s.probing_runs h
    have run := exec_predCmd s h may named free
    refine ⟨fun ntb int => ?_, fun ntb zero => ?_, fun stopped => ?_⟩
    · rw [State.predRun_has _ h loc e has' rfl ((runs .SCH).trans sch) ((runs .NTB).trans ntb), if_neg int] at run
      exact ⟨_, run, State.predicted_spec { s.probing h with sch.pred := none } e _ rfl⟩
    · rw [State.predRun_has _ h loc e has' rfl ((runs .SCH).trans sch) ((runs .NTB).trans ntb), if_pos zero] at run
      refine run.trans (congrArg (fun r => Host.Outcome.next { s.numbered 1 with regs := r, sch.pred := none }) ?_)
      exact mput_mput _ _ _ _
    · rw [State.predRun_waits _ h rfl ((runs .NTB).trans stopped)] at run
      exact run
  · exact wakeMs_emod e k
  · exact wakeMs_succ e k
  · obtain ⟨late, first⟩ := nextWakeAt_spec int ((now : Int) + 3000)
    exact ⟨late, first⟩

end Sys2Proof.Machine

/-!
PROOF. How SCH accepts and classifies uplinks, and joins (O28, R181, R186, R230, R231, R233, R397).
-/

namespace Sys2Proof.Machine

/-! ### accept() (R230) -/

theorem accept_fresh (e : Entry) (fc : Word) (dsn : Byte) (new : e.fcntUl.toNat < fc.toNat) :
    accept e fc dsn = (.fresh, { e with fcntUl := fc, dsnUl := dsn }) := by
  unfold accept
  rw [if_pos new]

theorem accept_duplicate (e : Entry) (fc : Word) (dsn : Byte) (old : ¬ e.fcntUl.toNat < fc.toNat) (same : dsn = e.dsnUl) :
    accept e fc dsn = (.duplicate, e) := by
  unfold accept
  rw [if_neg old, if_pos same]

theorem accept_replay (e : Entry) (fc : Word) (dsn : Byte) (old : ¬ e.fcntUl.toNat < fc.toNat) (other : dsn ≠ e.dsnUl) :
    accept e fc dsn = (.replay, e) := by
  unfold accept
  rw [if_neg old, if_neg other]

/-- What a class says of the entry that acceptance leaves. -/
theorem accept_entry (e : Entry) (fc : Word) (dsn : Byte) :
    ((accept e fc dsn).1 = .fresh → (accept e fc dsn).2 = { e with fcntUl := fc, dsnUl := dsn }) ∧
      ((accept e fc dsn).1 = .duplicate → (accept e fc dsn).2 = e) := by
  unfold accept
  split
  · exact ⟨fun _ => rfl, fun h => by cases h⟩
  · split
    · exact ⟨fun h => (by cases h), fun _ => rfl⟩
    · exact ⟨fun h => (by cases h), fun h => by cases h⟩

/-- A frame counter is accepted once. -/
theorem accept_twice (e : Entry) (fc : Word) (dsn : Byte) : (accept (accept e fc dsn).2 fc dsn).1 ≠ .fresh := by
  by_cases new : e.fcntUl.toNat < fc.toNat
  · rw [accept_fresh e fc dsn new]
    unfold accept
    rw [if_neg (by simp)]
    split <;> exact fun h => by cases h
  · have kept : (accept e fc dsn).2 = e := by
      unfold accept
      rw [if_neg new]
      split <;> rfl
    rw [kept]
    unfold accept
    rw [if_neg new]
    split <;> exact fun h => by cases h

/-! ### The class of an uplink (R231, R397) -/

/-- The effects of a frame that is FRESH or a DUPLICATE on its entry, its try and its acknowledgement. -/
def State.acted (s : State) (u : UlItem) (h : BitVec 18) (e : Entry) : State :=
  let a := ((State.updEntry s h (fun _ => e)).contactFrame u h).nodeAck u h
  a.buildAck u (a.entry h)

theorem State.classifyHit_replay (s : State) (u : UlItem) (c : EntryCopy) (e : Entry) (has : s.entry c.handle = some e)
    (cls : (accept e u.psdu.fc u.psdu.dsn).1 = .replay) :
    s.classifyHit u c = ((s.bump Reg.SCH_REPLAY).ev Reg.SCH_AX_EVT 2 88).withdrawAck u.id := by
  simp only [State.classifyHit, has, cls]

theorem State.classifyHit_fresh (s : State) (u : UlItem) (c : EntryCopy) (e : Entry) (has : s.entry c.handle = some e)
    (cls : (accept e u.psdu.fc u.psdu.dsn).1 = .fresh) :
    s.classifyHit u c = ((s.acted u c.handle { e with fcntUl := u.psdu.fc, dsnUl := u.psdu.dsn }).wrap
      Reg.SCH_UL_ACCEPTED).deliver u c.handle := by
  have moved := (accept_entry e u.psdu.fc u.psdu.dsn).1 cls
  simp only [State.classifyHit, has, cls, moved, if_true]
  rfl

theorem State.classifyHit_duplicate (s : State) (u : UlItem) (c : EntryCopy) (e : Entry) (has : s.entry c.handle = some e)
    (cls : (accept e u.psdu.fc u.psdu.dsn).1 = .duplicate) :
    s.classifyHit u c = (s.acted u c.handle e).bump Reg.SCH_DUP_UL := by
  have kept := (accept_entry e u.psdu.fc u.psdu.dsn).2 cls
  simp only [State.classifyHit, has, cls, kept]
  exact if_neg (fun h => by cases h)

theorem State.classifyHit_gone (s : State) (u : UlItem) (c : EntryCopy) (gone : s.entry c.handle = none) :
    s.classifyHit u c = ((s.wrap Reg.SCH_UL_ACCEPTED).buildAck u none).deliver u c.handle := by
  simp only [State.classifyHit, gone]

/-- The count and the acknowledgement of an UNKNOWN frame leave the settings of SCH. -/
theorem State.unknown_get (s : State) (u : UlItem) {g : Fld} (h : g.place ≠ Reg.SCH_UNKNOWN.place) :
    g.get ((s.bump Reg.SCH_UNKNOWN).buildAck u none).regs 0 0 = g.get s.regs 0 0 := by
  rw [show ((s.bump Reg.SCH_UNKNOWN).buildAck u none).regs = (s.bump Reg.SCH_UNKNOWN).regs by simp, State.bump_regs,
    Fld.get_put_place h]

theorem State.unknown_joinIe (s : State) (u : UlItem) :
    ((s.bump Reg.SCH_UNKNOWN).buildAck u none).joinIe u.psdu = s.joinIe u.psdu := by
  simp only [State.joinIe, State.rd_get]
  rw [s.unknown_get u (by decide)]

/-- An UNKNOWN frame that asks to join waits for its table write (R233). -/
def State.joinAsked (s : State) (u : UlItem) : State :=
  if s.on Reg.SCH_JOIN_AUTO && (s.joinIe u.psdu).isSome then { s with sch.joinQ := s.sch.joinQ ++ [u] } else s

theorem State.joinAsked_on (s : State) (u : UlItem) (f : Fld) : (s.joinAsked u).on f = s.on f := by
  unfold State.joinAsked
  split <;> rfl

theorem State.classifyMiss_drops (s : State) (u : UlItem) (keep : s.on Reg.SCH_UNK_DELIVER = false) :
    s.classifyMiss u = (((s.bump Reg.SCH_UNKNOWN).buildAck u none).joinAsked u).bump Reg.SCH_UNK_DROP := by
  have drop : (((s.bump Reg.SCH_UNKNOWN).buildAck u none).joinAsked u).on Reg.SCH_UNK_DELIVER = false := by
    rw [State.joinAsked_on, ← keep, State.on_get, State.on_get, s.unknown_get u (by decide)]
  exact if_neg (ne_true_of_eq_false drop)

theorem State.unknown_auto (s : State) (u : UlItem) :
    ((s.bump Reg.SCH_UNKNOWN).buildAck u none).on Reg.SCH_JOIN_AUTO = s.on Reg.SCH_JOIN_AUTO := by
  rw [State.on_get, State.on_get, s.unknown_get u (by decide)]

theorem State.classifyMiss_plain (s : State) (u : UlItem) (keep : s.on Reg.SCH_UNK_DELIVER = false)
    (plain : s.on Reg.SCH_JOIN_AUTO = false ∨ s.joinIe u.psdu = none) :
    s.classifyMiss u = ((s.bump Reg.SCH_UNKNOWN).buildAck u none).bump Reg.SCH_UNK_DROP := by
  rw [s.classifyMiss_drops u keep, State.joinAsked, s.unknown_auto, s.unknown_joinIe]
  rcases plain with h | h <;> simp only [h, Bool.false_and, Option.isSome_none, Bool.and_false, Bool.false_eq_true, if_false]

theorem State.buildAck_queues (s : State) (u : UlItem) (e : Option Entry) :
    (s.buildAck u e).sch.joinQ = s.sch.joinQ ∧ (s.buildAck u e).sch.ul = s.sch.ul := by
  unfold State.buildAck
  split
  · exact ⟨rfl, rfl⟩
  · exact ⟨rfl, rfl⟩

theorem State.classifyMiss_join (s : State) (u : UlItem) (keep : s.on Reg.SCH_UNK_DELIVER = false)
    (auto : s.on Reg.SCH_JOIN_AUTO = true) (join : (s.joinIe u.psdu).isSome = true) :
    (s.classifyMiss u).sch.joinQ = s.sch.joinQ ++ [u] ∧ (s.classifyMiss u).sch.ul = s.sch.ul := by
  obtain ⟨joinQ, ul⟩ := (s.bump Reg.SCH_UNKNOWN).buildAck_queues u none
  rw [s.classifyMiss_drops u keep, State.joinAsked, s.unknown_auto, s.unknown_joinIe, auto, join, if_pos (by decide)]
  exact ⟨congrArg (· ++ [u]) joinQ, ul⟩

section
variable (s : State) (u : UlItem) (rest : List UlItem) (front : s.sch.ul = u :: rest) (sch : s.runs .SCH = true)
  (ntb : s.runs .NTB = true)
include front sch ntb

theorem exec_ulClassify_standby (quiet : s.quiet = true) :
    exec .ulClassify s = .next (State.bump { s with sch.ul := rest } Reg.TWN_STBY_RX) := by
  simp only [exec, execUlClassify, front]
  rw [if_neg (by rw [sch, ntb]; decide), if_pos (by exact quiet)]

theorem exec_ulClassify_hit (c : EntryCopy) (awake : s.quiet = false) (copy : u.copy = some c) :
    exec .ulClassify s = .next (State.classifyHit { s with sch.ul := rest } u c) := by
  simp only [exec, execUlClassify, front]
  rw [if_neg (by rw [sch, ntb]; decide), if_neg (by exact ne_true_of_eq_false awake), copy]

theorem exec_ulClassify_miss (awake : s.quiet = false) (copy : u.copy = none) :
    exec .ulClassify s = .next (State.classifyMiss { s with sch.ul := rest } u) := by
  simp only [exec, execUlClassify, front]
  rw [if_neg (by rw [sch, ntb]; decide), if_neg (by exact ne_true_of_eq_false awake), copy]

end

/-- The entry of a handle is the table's alone. -/
theorem State.entry_of_ntb {s t : State} (h : t.ntb = s.ntb) (n : BitVec 18) : t.entry n = s.entry n := by
  have dir : (t.dirLoc n).1 = (s.dirLoc n).1 := by
    unfold State.dirLoc
    rw [h]
    split
    · rfl
    · split <;> rfl
  simp only [State.entry, State.slotOf, dir, h]

/-! ### Joining (R181, R186, R233) -/

/-- A join request whose EUI-64 the table does not hold, with a free handle and a free slot, inserts its entry. -/
theorem State.joinPut_free (s : State) (u : UlItem) (j : List Byte) (h : BitVec 18) (l : Nat) (nonzero : u.psdu.eui ≠ 0)
    (nonones : u.psdu.eui ≠ BitVec.allOnes 64) (finds : s.probeFinds u.psdu.eui none)
    (clean : ∀ p ∈ s.ntb.dir, p.2.perr = false) (next : s.nextFree = some h)
    (free : s.freeIn 0 (s.bucket 0 u.psdu.eui) = some l) :
    s.joinPut u j = ((((s.tick.insertUsers (s.joinEntry u j h)).2.bump Reg.NTB_INSERTS).wr Reg.NTB_LAST_ALLOC h.toNat).bump
      Reg.SCH_JOIN_NEW).ev Reg.SCH_AX_EVT 0 88 := by
  have place := (s.tick.insertUsers_free (s.joinEntry u j h) (l := l) free).1
  simp only [State.joinPut]
  rw [if_neg (by rw [decide_eq_false nonzero, decide_eq_false nonones]; decide), s.probe_finds _ 3 _ finds]
  simp only [Option.isSome_none, Bool.false_eq_true, if_false, s.nextHandle_clean clean, next, place]
  exact if_neg (fun h => by cases h)

/-- Settles O28: acceptance, the classes of an uplink, and a join. -/
theorem uplinkClasses : Obligations.UplinkClasses := by
  refine ⟨fun e fc dsn => ⟨accept_fresh e fc dsn, accept_duplicate e fc dsn, accept_replay e fc dsn, accept_twice e fc dsn⟩,
    fun s u rest front sch ntb => ?_, fun s u rest j h l front sch ntb join nonzero nonones finds clean next free => ?_⟩
  · intro s' acts
    have hit := exec_ulClassify_hit s u rest front sch ntb
    have miss := exec_ulClassify_miss s u rest front sch ntb
    have entry : ∀ n, s'.entry n = s.entry n := State.entry_of_ntb rfl
    refine ⟨exec_ulClassify_standby s u rest front sch ntb, fun c e awake copy has => ⟨fun cls => ?_, fun cls => ?_, fun cls => ?_⟩,
      fun c awake copy gone => ?_, fun awake copy keep => ⟨fun plain => ?_, fun auto join => ?_⟩⟩
    · exact (hit c awake copy).trans (congrArg Host.Outcome.next (s'.classifyHit_replay u c e ((entry _).trans has) cls))
    · exact (hit c awake copy).trans (congrArg Host.Outcome.next (s'.classifyHit_fresh u c e ((entry _).trans has) cls))
    · exact (hit c awake copy).trans (congrArg Host.Outcome.next (s'.classifyHit_duplicate u c e ((entry _).trans has) cls))
    · exact (hit c awake copy).trans (congrArg Host.Outcome.next (s'.classifyHit_gone u c ((entry _).trans gone)))
    · exact (miss awake copy).trans (congrArg Host.Outcome.next (s'.classifyMiss_plain u keep plain))
    · exact ⟨_, miss awake copy, s'.classifyMiss_join u keep auto join⟩
  · have free' : s.nextFree = some h := by rw [s.nextHandle_clean clean] at next; exact next
    have put := State.joinPut_free { s with sch.joinQ := rest } u j h l nonzero nonones finds clean free' free
    have stored := (State.insertUsers_free (State.tick { s with sch.joinQ := rest })
      (State.joinEntry { s with sch.joinQ := rest } u j h) (l := l) free).2
    have width : Reg.NTB_LAST_ALLOC.width = 18 := rfl
    have run : exec .joinInsert s = .next (State.joinPut { s with sch.joinQ := rest } u j) := by
      simp only [exec, execJoinInsert, front]
      rw [if_neg (by rw [sch, ntb]; decide), join]
    rw [put] at run
    refine ⟨_, run, ?_, ?_, ?_, State.joinEntry { s with sch.joinQ := rest } u j h, ?_, rfl, rfl, rfl, rfl, rfl, rfl, rfl⟩
    · simp only [State.ev_keeps, State.bump_keeps, State.wr_keeps, State.insertUsers_keeps]
      rfl
    · rw [State.rd_get, State.get_ev_place (by decide), State.bump_regs, Fld.get_put_place (by decide), State.wr_regs,
        Fld.get_put_same, width, Nat.mod_eq_of_lt h.isLt]
    · simp only [State.ev_keeps, State.bump_keeps, State.wr_keeps, stored]
      exact mget_mput_same _ _ _
    · simp only [State.ev_keeps, State.bump_keeps, State.wr_keeps, stored]
      exact mget_mput_same _ _ _

end Sys2Proof.Machine

/-!
PROOF. The queues of nodes: what a release leaves, and how a try ends for its frame (O29, R241, R242).
-/

namespace Sys2Proof.Machine

/-! ### What leaves the queues of nodes as they are -/

theorem State.correctCells_car (s : State) (l : List Nat) :
    (s.correctCells l).car = { s.car with upsets := s.car.upsets.filter (fun p => !l.contains p.1) } := by
  unfold State.correctCells
  exact (foldl_keeps (fun s : State => s.car) _ _ _ (fun t p => by simp)).trans rfl

theorem State.linkSys_nodeQs (s : State) (q : Nat) (hdr : Option Hdr) (b : List Byte) (n : ItemNote) :
    (s.linkSys q hdr b n).car.nodeQs = s.car.nodeQs := by
  have linked : ∀ t : State, ∀ x l, ((t.setSysQ q x).noteFree.correctCells l).car.nodeQs = t.car.nodeQs := fun t x l => by
    rw [State.correctCells_car]
    simp [State.setSysQ]
  unfold State.linkSys
  dsimp only
  split <;> split <;> simp [linked]

theorem State.record_nodeQs (s : State) (q : Nat) (b : List Byte) : (s.record q b).car.nodeQs = s.car.nodeQs := by
  unfold State.record State.deviceItem
  split
  · unfold State.takeItem
    dsimp only
    (repeat' split) <;> simp [State.linkSys_nodeQs]
  · rfl

theorem State.dirLoc_nodeQs (s : State) (h : BitVec 18) : (s.dirLoc h).2.car.nodeQs = s.car.nodeQs := by
  unfold State.dirLoc
  split
  · rfl
  · split
    · exact State.record_nodeQs ..
    · rfl

theorem State.checkWords_nodeQs (s : State) (loc : Nat) (sl : Slot) (src : Nat) :
    (s.checkWords loc sl src).2.car.nodeQs = s.car.nodeQs := by
  unfold State.checkWords
  split
  · rfl
  · unfold State.parityFail
    dsimp only
    rw [State.record_nodeQs]
    split <;> simp

theorem State.access_nodeQs (s : State) (h : BitVec 18) (src : Nat) : (s.access h src).2.car.nodeQs = s.car.nodeQs := by
  unfold State.access
  dsimp only
  split
  · exact s.dirLoc_nodeQs h
  · split
    · exact s.dirLoc_nodeQs h
    · exact (State.checkWords_nodeQs ..).trans (s.dirLoc_nodeQs h)

theorem State.updEntry_nodeQs (s : State) (h : BitVec 18) (f : Entry → Entry) :
    (s.updEntry h f).car.nodeQs = s.car.nodeQs := by
  unfold State.updEntry
  dsimp only
  split <;> exact s.access_nodeQs h 5

theorem State.setNodeQ_nodeQs (s : State) (h : BitVec 18) (q : Queue) :
    (s.setNodeQ h q).car.nodeQs = mset s.car.nodeQs h.toNat (if q.items.isEmpty then none else some q) := by
  unfold State.setNodeQ
  generalize (if q.items.isEmpty then none else some q) = x
  dsimp only
  split
  · exact State.updEntry_nodeQs ..
  · rfl

/-! ### A queue of one frame -/

section
variable (s : State) (h : BitVec 18) {it : QItem} {hd : Hdr} {r : Nat} {n : BitVec 16}
  (one : mget s.car.nodeQs h.toNat = some { items := [it], read := r, mark := 0, enqs := n }) (hdr : it.hdr = some hd)
include one

theorem State.nodeQ_one : s.nodeQ h = { items := [it], read := r, mark := 0, enqs := n } := by
  simp only [State.nodeQ, one, Option.getD_some]

include hdr

theorem State.find_one : Queue.find (s.nodeQ h) hd.seq = some 0 := by
  rw [s.nodeQ_one h one]
  simp [Queue.find, List.findIdx?_cons, hdr]

theorem State.hdr_one : ((s.nodeQ h).items[0]?.bind (fun x => x.hdr)) = some hd := by
  rw [s.nodeQ_one h one]
  exact hdr

/-- Its release leaves no queue. -/
theorem State.releaseNode_one (status : Hdr → Byte) (reason : Byte) : (s.releaseNode h 0 status reason).nodeQ h = emptyQueue := by
  have items : (s.nodeQ h).items = [it] := by rw [s.nodeQ_one h one]
  unfold State.releaseNode
  dsimp only
  rw [s.hdr_one h one hdr]
  simp only [State.nodeQ, State.correctCells_car, State.setNodeQ_nodeQs]
  have none_left : (Queue.drop ((mget s.car.nodeQs h.toNat).getD emptyQueue) 0).items.isEmpty = true := by
    rw [one]
    rfl
  rw [mget_mset_same, none_left]
  rfl

omit hdr in
/-- Rewound, it is offered again. -/
theorem State.rewind_one : (s.rewind h).nodeQ h = { items := [it], read := 0, mark := 0, enqs := n } := by
  unfold State.rewind
  rw [s.nodeQ_one h one]
  simp [State.nodeQ]

end

/-- Settles O29: how a try ends for the one frame of its queue. -/
theorem tryOutcomes : Obligations.TryOutcomes := by
  intro s h loc e it hd rep _ one hdr kept
  have found := s.find_one h one hdr
  have header := s.hdr_one h one hdr
  have acked : s.frameOutcome h hd.seq rep .acked = s.releaseNode h 0 (fun _ => stCOMPLETED) 0 := by
    simp only [State.frameOutcome, found, header]
  have missed : s.frameOutcome h hd.seq rep .noAck = if hd.tries = 15 || rep ≤ hd.tries - hd.naks then
      (s.releaseNode h 0 (fun _ => stCOMPLETED) 1).bump Reg.SCH_DL_REPEAT else s.rewind h := by
    simp only [State.frameOutcome, found, header, kept]
    rfl
  refine ⟨⟨?_, acked⟩, fun few again => ?_, fun spent => ?_⟩
  · rw [acked]
    exact s.releaseNode_one h one hdr _ _
  · rw [missed, if_neg (by simp; omega)]
    exact s.rewind_one h one
  · rw [missed, if_pos (by simpa using spent)]

end Sys2Proof.Machine

/-!
PROOF. Acknowledgement windows, beacons and multicast blocks (O30, R220, R221, R240, R249).
-/

namespace Sys2Proof.Machine

/-! ### What the trimming of beacon payloads leaves (R268) -/

/-- A correction of cells writes four fields of CAR alone, whatever bank or index another field is read at. -/
theorem State.correctCells_get_at (s : State) (l : List Nat) (g : Fld) (i c : Nat)
    (off : ∀ f ∈ [Reg.CAR_CELL_CE, Reg.CAR_CE_LOC, Reg.CAR_CE_SRC, Reg.CAR_CAR_EVT], g.key i c ≠ f.key 0 0) :
    g.get (s.correctCells l).regs i c = g.get s.regs i c := by
  simp only [List.forall_mem_cons, List.not_mem_nil, false_implies, implies_true, and_true] at off
  obtain ⟨ce, loc, src, evt⟩ := off
  unfold State.correctCells
  refine (foldl_keeps (fun s : State => g.get s.regs i c) _ _ _ (fun t a => ?_)).trans rfl
  have event := State.ev_other (((t.bump Reg.CAR_CELL_CE).wr Reg.CAR_CE_LOC a.1).wr Reg.CAR_CE_SRC (CarMem.code a.2))
    Reg.CAR_CAR_EVT g 3 104 i c evt
  simp only [State.rdB_get] at event
  rw [event, State.wr_regs, Fld.get_put_of_ne src, State.wr_regs, Fld.get_put_of_ne loc, State.bump_regs, Fld.get_put_of_ne ce]

theorem State.trimBeacons_get_at (s : State) (n : Nat) (g : Fld) (i c : Nat)
    (off : ∀ f ∈ [Reg.CAR_CELL_CE, Reg.CAR_CE_LOC, Reg.CAR_CE_SRC, Reg.CAR_CAR_EVT], g.key i c ≠ f.key 0 0) :
    g.get (s.trimBeacons n).regs i c = g.get s.regs i c := by
  induction n generalizing s with
  | zero => rfl
  | succ n ih =>
    unfold State.trimBeacons
    split
    · rw [ih, State.releaseSys, State.correctCells_get_at _ _ _ _ _ off]
      split
      · simp [State.setSysQ]
      · rfl
    · rfl

/-- A beacon is dispatched at its instant on its slot's plan entry (R220). -/
theorem State.sendBeacon_spec (s : State) (i : Fin 8) (first : Nat) (start : Bool) :
    ∃ x f, (s.sendBeacon i.val first start).sch.tries = s.sch.tries ++ [x] ∧
      (s.sendBeacon i.val first start).key.tx = txInsert f s.key.tx ∧
      mget (s.sendBeacon i.val first start).sch.bcnLast i.val = some first ∧
      x.kind = .beacon ∧ x.idx = i.val ∧ x.first = first ∧ x.start = start ∧
      x.chan = BitVec.ofNat 8 (s.rdI Reg.SCH_BCN_ENT i.val) ∧ f.first = first ∧ f.kind = .beacon ∧ f.prio = 12 := by
  have entry : (s.trimBeacons (s.sysQ 0x14).items.length).rdI Reg.SCH_BCN_ENT i.val = s.rdI Reg.SCH_BCN_ENT i.val := by
    simp only [State.rdI_get]
    refine State.trimBeacons_get_at _ _ _ _ _ ?_
    fin_cases i <;> decide
  have sch : (s.trimBeacons (s.sysQ 0x14).items.length).sch = s.sch := by simp
  have key : (s.trimBeacons (s.sysQ 0x14).items.length).key = s.key := by simp
  unfold State.sendBeacon
  generalize s.trimBeacons (s.sysQ 0x14).items.length = t at entry sch key ⊢
  simp only [State.localBump_keeps, State.sendKey]
  rw [sch, key, ← entry]
  exact ⟨_, _, rfl, rfl, mget_mput_same _ _ _, rfl, rfl, rfl, rfl, rfl, rfl, rfl, rfl⟩

/-- No instant that has been used is at or after one later than it. -/
theorem any_le_false {o : Option Nat} {first : Nat} (new : ∀ t, o = some t → t < first) : o.any (fun t => first ≤ t) = false := by
  cases o with
  | none => rfl
  | some t => simpa using new t rfl

theorem exec_beaconDispatch (s : State) (i : Fin 8) (run : s.beaconsRun = true) (on : s.beaconOn i.val = true)
    (new : ∀ t, mget s.sch.bcnLast i.val = some t →
      t < (s.startAt i.val).getD (s.beaconFrom i.val (s.sys.timeNs + 2000000))) :
    exec (.beaconDispatch i) s = .next (s.sendBeacon i.val
      ((s.startAt i.val).getD (s.beaconFrom i.val (s.sys.timeNs + 2000000))) (s.sys.startLeft.contains i.val)) := by
  have fresh : (mget s.sch.bcnLast i.val).any
      (fun t => (s.startAt i.val).getD (s.beaconFrom i.val (s.sys.timeNs + 2000000)) ≤ t) = false :=
    any_le_false new
  simp only [exec, execBeaconDispatch]
  rw [if_neg (by rw [run]; decide), if_neg (by rw [fresh]; decide), if_neg (by rw [on]; decide)]

/-! ### Multicast blocks (R249) -/

theorem State.setSysQ_sysQ (s : State) (q : Nat) (x : Queue) : (s.setSysQ q x).sysQ q = x := by
  by_cases h : x = emptyQueue
  · simp [State.setSysQ, State.sysQ, h]
  · simp [State.setSysQ, State.sysQ, h]

/-- A session's head block is taken from its queue, with its try and the item for KEY. -/
def State.blockSent (s : State) (i first : Nat) (x : Try) (f : TxItem) : State :=
  let s := s.setSysQ (0x18 + i) { s.sysQ (0x18 + i) with mark := 0, read := 1 }
  ({ s with sch.tries := s.sch.tries ++ [x], sch.mcLast := mput s.sch.mcLast i first }).sendKey f

theorem State.blockSent_spec (s : State) (i first : Nat) (x : Try) (f : TxItem) :
    (s.blockSent i first x f).sch.tries = s.sch.tries ++ [x] ∧ (s.blockSent i first x f).key.tx = txInsert f s.key.tx ∧
      mget (s.blockSent i first x f).sch.mcLast i = some first ∧
      (s.blockSent i first x f).sysQ (0x18 + i) = { s.sysQ (0x18 + i) with mark := 0, read := 1 } :=
  ⟨rfl, rfl, mget_mput_same _ _ _, s.setSysQ_sysQ _ _⟩

theorem exec_mcBlockDispatch (s : State) (i : Fin 8) (it : QItem) (l : List QItem) (run : s.runs .SCH = true)
    (awake : s.quiet = false) (set_ : s.on Reg.TIM_TIME_SET = true) (serves : s.serves i.val = true)
    (unread : (s.sysQ (0x18 + i.val)).read = 0) (items : (s.sysQ (0x18 + i.val)).items = it :: l)
    (live : s.chanLive (BitVec.ofNat 8 (s.rdI Reg.SCH_MC_ENT i.val)) = true)
    (new : ∀ t, mget s.sch.mcLast i.val = some t → t < s.blockFrom i.val (s.sys.timeNs + 2000000)) :
    let first := s.blockFrom i.val (s.sys.timeNs + 2000000)
    ∃ x f, exec (.mcBlockDispatch i) s = .next (s.blockSent i.val first x f) ∧ x.kind = .mc ∧ x.idx = i.val ∧
      x.first = first ∧ f.first = first ∧ f.body = it.body := by
  have fresh : (mget s.sch.mcLast i.val).any (fun t => s.blockFrom i.val (s.sys.timeNs + 2000000) ≤ t) = false :=
    any_le_false new
  have head : (s.sysQ (0x18 + i.val)).items.head? = some it := by rw [items]; rfl
  simp only [exec, execMcBlockDispatch]
  rw [if_neg (by rw [run, awake, set_, serves, unread]; decide), if_neg (by rw [fresh]; decide), if_neg (by rw [live]; decide), head]
  exact ⟨_, _, rfl, rfl, rfl, rfl, rfl, rfl⟩

/-- Settles O30: a window that closes, a beacon and a block. -/
theorem dispatches : Obligations.Dispatches := by
  refine fun s => ⟨fun h x found run => ?_, fun i run on => ?_, fun i it l run awake set_ serves unread items live => ?_⟩
  · simp only [exec, execAckWindowClose, found, run, if_true]
  · exact fun new => ⟨_, exec_beaconDispatch s i run on new, s.sendBeacon_spec i _ _⟩
  · intro first new
    obtain ⟨x, f, out, kind, idx, first', first'', body⟩ := exec_mcBlockDispatch s i it l run awake set_ serves unread items live new
    obtain ⟨tries, tx, last, queue⟩ := s.blockSent_spec i.val first x f
    exact ⟨_, out, x, f, tries, tx, kind, idx, first', first'', body, last, by rw [queue]; exact items, by rw [queue]⟩

end Sys2Proof.Machine

/-!
PROOF. Abort commands (O31, R251, R427).
-/

namespace Sys2Proof.Machine

theorem State.hostMay_runs {s : State} {isl : Isl} (may : s.hostMay isl = true) : s.runs isl = true ∧ s.runs .HST = true := by
  simp only [State.hostMay, Bool.and_eq_true] at may
  exact ⟨may.1.2, may.2⟩

/-- The slot of a handle is the table's alone. -/
theorem State.slotOf_of_ntb {s t : State} (h : t.ntb = s.ntb) (n : BitVec 18) : t.slotOf n = s.slotOf n := by
  have dir : (t.dirLoc n).1 = (s.dirLoc n).1 := by
    unfold State.dirLoc
    rw [h]
    split
    · rfl
    · split <;> rfl
  simp only [State.slotOf, dir, h]

/-! ### What a write of ABT_CMD does (R427) -/

/-- The abort that a write begins. -/
def State.abortBegun (s : State) (v : Nat) : State := { s.wr Reg.SYS_ABT_STAT 1 with sys.abt := some v }

theorem State.abtCmd_idle (s : State) (v : Nat) (idle : s.rd Reg.SYS_ABT_STAT = 1 ∨ s.headless = true) : s.abtCmd v = s := by
  unfold State.abtCmd
  rw [if_pos (by rcases idle with h | h <;> simp only [h, decide_true, Bool.or_true, Bool.true_or])]

theorem State.abtCmd_free (s : State) (v : Nat) (some_ : v ≠ 0) (free : s.rd Reg.SYS_ABT_STAT ≠ 1) (host : s.headless = false) :
    s.abtCmd v = if v ≠ 3 && (s.slotOf (BitVec.ofNat 18 (s.rd Reg.SYS_ABT_HANDLE))).isNone then s.wr Reg.SYS_ABT_STAT 3
      else (s.abortBegun v).abortRun := by
  unfold State.abtCmd
  rw [if_neg (by rw [decide_eq_false some_, decide_eq_false free, host]; decide)]
  rfl

theorem State.abortBegun_get (s : State) (v : Nat) {g : Fld} (h : g.place ≠ Reg.SYS_ABT_STAT.place) :
    g.get (s.abortBegun v).regs 0 0 = g.get s.regs 0 0 := by
  rw [show (s.abortBegun v).regs = Reg.SYS_ABT_STAT.put s.regs 0 0 1 from rfl, Fld.get_put_place h]

theorem State.abortBegun_runs (s : State) (v : Nat) (i : Isl) : (s.abortBegun v).runs i = s.runs i :=
  State.runs_of_rd (by rw [State.rd_get, State.rd_get, s.abortBegun_get v (by decide)])
    (by rw [State.rd_get, State.rd_get, s.abortBegun_get v (by decide)]) i

theorem State.abortBegun_path (s : State) (v k : Nat) : (s.abortBegun v).abortPath k = s.abortPath k := by
  simp only [State.abortPath, State.abortBegun_runs]

/-- An abort whose path is stopped waits. -/
theorem State.abortRun_waits (s : State) (v : Nat) (stopped : s.abortPath v = false) :
    (s.abortBegun v).abortRun.sys.abt = some v ∧ (s.abortBegun v).abortRun.rd Reg.SYS_ABT_STAT = 1 := by
  have same : (s.abortBegun v).abortRun = s.abortBegun v := by
    have abt : (s.abortBegun v).sys.abt = some v := rfl
    unfold State.abortRun
    rw [abt]
    dsimp only
    rw [if_pos (by rw [State.abortBegun_path, stopped]; rfl)]
  rw [same]
  exact ⟨rfl, s.rd_wr_same Reg.SYS_ABT_STAT 1⟩

/-- What an abort reaches: how many, and the state after. -/
def State.abortHits (s : State) (kind : Nat) : Nat × State :=
  let h := BitVec.ofNat 18 (s.rd Reg.SYS_ABT_HANDLE)
  let seq := BitVec.ofNat 16 (s.rd Reg.SYS_ABT_SEQ)
  let after := (s.nodeQ h).items.filterMap (fun x =>
    x.hdr.bind (fun hd => if laterEq hd.seq seq then some hd.seq else none))
  if kind = 1 then s.abortFrames h [seq] else if kind = 2 then s.abortFrames h after else s.abortTable seq

/-- An abort whose path is free ends at once. -/
theorem State.abortRun_ends (s : State) (v : Nat) (free : s.abortPath v = true) :
    (s.abortBegun v).abortRun = ((State.abortHits { s.abortBegun v with sys.abt := none } v).2.wr Reg.SYS_ABT_HITS
      (State.abortHits { s.abortBegun v with sys.abt := none } v).1).wr Reg.SYS_ABT_STAT 2 := by
  have abt : (s.abortBegun v).sys.abt = some v := rfl
  unfold State.abortRun
  rw [abt]
  dsimp only
  rw [if_neg (by rw [State.abortBegun_path, free]; decide)]
  rfl

theorem State.abortEnd_spec (s : State) (n : Nat) :
    ((s.wr Reg.SYS_ABT_HITS n).wr Reg.SYS_ABT_STAT 2).rd Reg.SYS_ABT_STAT = 2 ∧
      ((s.wr Reg.SYS_ABT_HITS n).wr Reg.SYS_ABT_STAT 2).rd Reg.SYS_ABT_HITS = n % 2 ^ Reg.SYS_ABT_HITS.width := by
  constructor
  · exact State.rd_wr_same _ _ _
  · rw [State.rd_get, State.wr_regs, Fld.get_put_place (by decide), State.wr_regs, Fld.get_put_same]

/-! ### An abort of the one frame of a queue -/

section
variable (s : State) (h : BitVec 18) {it : QItem} {hd : Hdr} {n : BitVec 16}
  (one : mget s.car.nodeQs h.toNat = some { items := [it], read := 0, mark := 0, enqs := n }) (hdr : it.hdr = some hd)
include one hdr

/-- A frame that has not been offered leaves its queue. -/
theorem State.abortFrames_one : (s.abortFrames h [hd.seq]).1 = 1 ∧ (s.abortFrames h [hd.seq]).2.nodeQ h = emptyQueue := by
  have met : s.abortOne h hd.seq = (true, s.releaseNode h 0 abortStatus 4) := by
    have unread : (s.nodeQ h).read ≤ 0 := by rw [s.nodeQ_one h one]
    simp only [State.abortOne, s.find_one h one hdr, unread, if_true]
  simp only [State.abortFrames, List.foldl_cons, List.foldl_nil, met]
  exact ⟨rfl, s.releaseNode_one h one hdr _ _⟩

/-- The frames from its sequence on are that one. -/
theorem State.abortHits_one (kind : Nat) (frame : kind = 1 ∨ kind = 2) (named : BitVec.ofNat 18 (s.rd Reg.SYS_ABT_HANDLE) = h)
    (seq : hd.seq = BitVec.ofNat 16 (s.rd Reg.SYS_ABT_SEQ)) :
    (s.abortHits kind).1 = 1 ∧ (s.abortHits kind).2.nodeQ h = emptyQueue := by
  have queue := s.nodeQ_one h one
  have all : (s.nodeQ h).items.filterMap (fun x => x.hdr.bind (fun d => if laterEq d.seq hd.seq then some d.seq else none)) =
      [hd.seq] := by
    rw [queue]
    simp [hdr, laterEq]
  have hits : s.abortHits kind = s.abortFrames h [hd.seq] := by
    rcases frame with rfl | rfl
    · simp only [State.abortHits, named, ← seq, if_true]
    · simp only [State.abortHits, named, ← seq, all]
      rfl
  rw [hits]
  exact s.abortFrames_one h one hdr

end

/-! ### An abort of a table command (R183) -/

/-- What is skipped is taken from the front of NTB's queue. -/
theorem State.tblSkip_suffix (n : Nat) (s : State) : (s.tblSkip n).ntb.cmdQ <:+ s.ntb.cmdQ := by
  induction n generalizing s with
  | zero => exact List.suffix_refl _
  | succ n ih =>
    unfold State.tblSkip
    split
    · exact List.suffix_refl _
    · rename_i c rest front
      have step : ∀ d, (State.tblReport { s with ntb.cmdQ := rest } d).ntb.cmdQ <:+ s.ntb.cmdQ := fun d => by
        rw [State.tblReport_cmdQ, front]
        exact List.suffix_cons _ _
      split
      · exact (ih _).trans (step _)
      · split
        · exact (ih _).trans (step _)
        · exact List.suffix_refl _

theorem State.abortTable_marks (s : State) (seq : BitVec 16) :
    ∀ c ∈ (s.abortTable seq).2.ntb.cmdQ, c.seq = seq → c.tunnel = false → c.aborted = true := by
  intro c hc same host
  have mem := (State.tblSkip_suffix _ _).subset hc
  obtain ⟨x, -, rfl⟩ := List.mem_map.mp mem
  by_cases hit : x.seq = seq && !x.tunnel
  · rw [if_pos hit]
  · rw [if_neg hit] at same host
    simp [same, host] at hit

theorem exec_abt (s : State) (may : s.hostMay .SYS = true) :
    exec .abtFrame s = .next ((s.numbered 1).abtCmd 1) ∧ exec .abtNode s = .next ((s.numbered 1).abtCmd 2) ∧
      exec .abtTable s = .next ((s.numbered 1).abtCmd 3) :=
  ⟨congrArg Host.Outcome.next (s.hostOp_may _ _ _ may), congrArg Host.Outcome.next (s.hostOp_may _ _ _ may),
    congrArg Host.Outcome.next (s.hostOp_may _ _ _ may)⟩

/-- The path of an abort of frames is the same for one and for all. -/
theorem State.abortPath_frames (s : State) : s.abortPath 2 = s.abortPath 1 := rfl

/-- A write of ABT_CMD with an entry, or for a table command, begins its abort. -/
theorem State.abtCmd_begins (s : State) (v : Nat) (some_ : v ≠ 0) (free : s.rd Reg.SYS_ABT_STAT ≠ 1) (host : s.headless = false)
    (has : v = 3 ∨ s.slotOf (BitVec.ofNat 18 (s.rd Reg.SYS_ABT_HANDLE)) ≠ none) :
    s.abtCmd v = (s.abortBegun v).abortRun := by
  rw [s.abtCmd_free v some_ free host, if_neg]
  rcases has with rfl | h
  · rw [decide_eq_false (by decide), Bool.false_and]
    decide
  · rw [Option.isNone_eq_false_iff.mpr (Option.isSome_iff_ne_none.mpr h), Bool.and_false]
    decide

/-- Settles O31: an abort that is refused, waits, or ends at once. -/
theorem aborts : Obligations.Aborts := by
  intro s may h
  obtain ⟨frame, node, table⟩ := exec_abt s may
  rw [frame, node, table]
  have handle : BitVec.ofNat 18 ((s.numbered 1).rd Reg.SYS_ABT_HANDLE) = h := rfl
  have slot : (s.numbered 1).slotOf h = s.slotOf h := State.slotOf_of_ntb (s := s) (t := s.numbered 1) rfl h
  refine ⟨fun idle => ?_, fun free host => ⟨fun gone => ?_, fun has stopped => ?_, fun has clear => ?_, fun run => ?_, fun stopped => ?_⟩⟩
  · have none_ := fun v => (s.numbered 1).abtCmd_idle v idle
    simp only [none_, and_self]
  · have refused : ∀ v, v ≠ 0 → v ≠ 3 → (s.numbered 1).abtCmd v = (s.numbered 1).wr Reg.SYS_ABT_STAT 3 := fun v zero three => by
      rw [(s.numbered 1).abtCmd_free v zero free host, handle, slot, gone, if_pos (by rw [decide_eq_true three]; rfl)]
    exact ⟨congrArg Host.Outcome.next (refused 1 (by decide) (by decide)), congrArg Host.Outcome.next (refused 2 (by decide) (by decide))⟩
  · have begins := fun v zero => (s.numbered 1).abtCmd_begins v zero free host (.inr (by rw [handle, slot]; exact has))
    exact ⟨⟨_, congrArg Host.Outcome.next (begins 1 (by decide)), (s.numbered 1).abortRun_waits 1 stopped⟩,
      ⟨_, congrArg Host.Outcome.next (begins 2 (by decide)), (s.numbered 1).abortRun_waits 2 stopped⟩⟩
  · have ends := fun v zero path =>
      ((s.numbered 1).abtCmd_begins v zero free host (.inr (by rw [handle, slot]; exact has))).trans
        ((s.numbered 1).abortRun_ends v path)
    refine ⟨⟨_, congrArg Host.Outcome.next (ends 1 (by decide) clear), (State.abortEnd_spec _ _).1⟩,
      ⟨_, congrArg Host.Outcome.next (ends 2 (by decide) clear), (State.abortEnd_spec _ _).1⟩,
      fun it hd n hdr seq one => ?_⟩
    have reached : ∀ v, v = 1 ∨ v = 2 → _ := fun v frame =>
      State.abortHits_one { (s.numbered 1).abortBegun v with sys.abt := none } h one hdr v frame
        (by rw [← handle]; exact congrArg (BitVec.ofNat 18) ((s.numbered 1).abortBegun_get v (by decide)))
        (by rw [seq]; exact congrArg (BitVec.ofNat 16) ((s.numbered 1).abortBegun_get v (by decide)).symm)
    have spec : ∀ v, v = 1 ∨ v = 2 → _ := fun v frame =>
      (State.abortEnd_spec (State.abortHits { (s.numbered 1).abortBegun v with sys.abt := none } v).2
        (State.abortHits { (s.numbered 1).abortBegun v with sys.abt := none } v).1).2
    refine ⟨⟨_, congrArg Host.Outcome.next (ends 1 (by decide) clear), (reached 1 (.inl rfl)).2, (spec 1 (.inl rfl)).trans ?_⟩,
      ⟨_, congrArg Host.Outcome.next (ends 2 (by decide) clear), (reached 2 (.inr rfl)).2, (spec 2 (.inr rfl)).trans ?_⟩⟩
    · rw [(reached 1 (.inl rfl)).1]
      rfl
    · rw [(reached 2 (.inr rfl)).1]
      rfl
  · have out := ((s.numbered 1).abtCmd_begins 3 (by decide) free host (.inl rfl)).trans ((s.numbered 1).abortRun_ends 3 run)
    refine ⟨_, congrArg Host.Outcome.next out, (State.abortEnd_spec _ _).1, ?_⟩
    have marks := State.abortTable_marks { (s.numbered 1).abortBegun 3 with sys.abt := none } (BitVec.ofNat 16 (s.rd Reg.SYS_ABT_SEQ))
    have seq : BitVec.ofNat 16 (State.rd { (s.numbered 1).abortBegun 3 with sys.abt := none } Reg.SYS_ABT_SEQ) =
      BitVec.ofNat 16 (s.rd Reg.SYS_ABT_SEQ) := congrArg (BitVec.ofNat 16) ((s.numbered 1).abortBegun_get 3 (by decide))
    have hits : State.abortHits { (s.numbered 1).abortBegun 3 with sys.abt := none } 3 =
        State.abortTable { (s.numbered 1).abortBegun 3 with sys.abt := none } (BitVec.ofNat 16 (s.rd Reg.SYS_ABT_SEQ)) := by
      rw [← seq]
      rfl
    rw [hits]
    exact marks
  · exact ⟨_, congrArg Host.Outcome.next ((s.numbered 1).abtCmd_begins 3 (by decide) free host (.inl rfl)),
      (s.numbered 1).abortRun_waits 3 stopped⟩

end Sys2Proof.Machine

/-!
PROOF. A transmit frame from its descriptor to its queue (O32, R16, R258, R262, R263, R272, R273).
-/

namespace Sys2Proof.Machine

/-! ### A descriptor is fetched (R272, R273) -/

theorem State.readTx_spec (s : State) (d : List Byte) (len : Nat) (buf : List Byte) (full : Bool) (ring : Nat) (idx : BitVec 16) :
    let w := (s.readTx d len buf full ring idx).2
    w.hdr.ring = ring ∧ w.hdr.desc = idx ∧ w.hdr.tries = 0 ∧ w.hdr.prio ≤ 11 ∧ 1 ≤ w.body.length ∧
      w.body.length ≤ max 1 (2047 - s.fcsLen) ∧ ∀ i < w.body.length, w.body.getD i 0 = buf.getD i 0 := by
  have length : ∀ n, ((List.range n).map (fun i => buf.getD i 0)).length = n := fun n => by simp
  refine ⟨rfl, rfl, rfl, min_le_left _ _, ?_, ?_, fun i hi => ?_⟩
  · exact (length _).symm ▸ le_max_left _ _
  · refine (length _).symm ▸ max_le (le_max_left _ _) ((min_le_right _ _).trans (le_max_right _ _))
  · have hi' : i < ((List.range (max 1 (min len (2047 - s.fcsLen)))).map (fun i => buf.getD i 0)).length := hi
    rw [length] at hi'
    exact (List.getD_eq_getElem _ _ hi).trans (by simp [State.readTx])

theorem exec_txDescFetch (s : State) (r : Fin 16) (desc buf : List Byte) (ready : s.ringReady r.val = true)
    (host : s.headless = false) (free : ∀ w ∈ s.car.admitQ, w.hdr.ring ≠ r.val) :
    ∃ (w : WaitItem) (x : TxSlot), exec (.txDescFetch r desc buf) s =
        .next (({ s.wrB Reg.HST_RING_FETCH 0 r.val (s.rdB Reg.HST_RING_FETCH 0 r.val + 1) with
          hst.txSlots := s.hst.txSlots ++ [(r.val, x)] } : State).postItem w) ∧
      x.idx = BitVec.ofNat 16 (s.rdB Reg.HST_RING_FETCH 0 r.val) ∧ x.done = none ∧ x.tunSeq = none ∧
      w = (s.readTx (desc.drop 8) (bits (leAt (desc.drop 8) 0 2) 0 11) buf (2 ≤ s.rd Reg.SYS_HIF_SEL) r.val x.idx).2 := by
  have none_waits : s.car.admitQ.any (fun w => w.hdr.ring = r.val) = false := by simpa using free
  simp only [exec, execTxDescFetch]
  rw [if_pos (by rw [ready, host, none_waits]; decide)]
  exact ⟨_, _, rfl, rfl, rfl, rfl, rfl⟩

/-! ### Admission (R16, R258) -/

theorem State.offerItem_waits (s : State) (w : WaitItem) (out : s.admits w = false) :
    s.offerItem w = if s.runs .CAR && !s.roomFor w then State.ev { s with car.admitQ := s.car.admitQ ++ [w] } Reg.CAR_CAR_EVT 0 104
      else { s with car.admitQ := s.car.admitQ ++ [w] } := by
  unfold State.offerItem
  rw [if_neg (by rw [out]; decide)]
  rfl

theorem exec_admitRetry (s : State) (l l' : List WaitItem) (w : WaitItem) (queue : s.car.admitQ = l ++ w :: l')
    (before : ∀ v ∈ l, s.admits v = false) (admitted : s.admits w = true) :
    exec .admitRetry s = .next (({ s with car.admitQ := l ++ l' } : State).enqueueItem w) := by
  have found : s.car.admitQ.find? s.admits = some w := by
    rw [queue, List.find?_append, List.find?_eq_none.mpr (fun v hv => by simp [before v hv]), Option.none_or, List.find?_cons,
      admitted]
  have erased : s.car.admitQ.erase w = l ++ l' := by
    have absent : w ∉ l := fun h => by
      rw [before w h] at admitted
      cases admitted
    rw [queue, List.erase_append_right _ absent, List.erase_cons_head]
  simp only [exec, execAdmitRetry, found, erased]

/-! ### Enqueued for a node (R262, R263) -/

/-- A node's entry says that frames of it are queued. -/
def State.queuedAt (s : State) (h : BitVec 18) (loc : Nat) : Prop := ∃ e, s.hasEntry h loc e ∧ e.qne = true

theorem State.queuedAt_of_ntb {s t : State} (same : t.ntb = s.ntb) {h : BitVec 18} {loc : Nat} (q : s.queuedAt h loc) :
    t.queuedAt h loc := by
  simpa only [State.queuedAt, State.hasEntry, same] using q

theorem State.queuedAt_updEntry {s : State} {h : BitVec 18} {loc : Nat} (q : s.queuedAt h loc) (f : Entry → Entry)
    (keeps : ∀ e, (f e).handle = e.handle ∧ (f e).qne = e.qne) : (s.updEntry h f).queuedAt h loc := by
  obtain ⟨e, has, qne⟩ := q
  exact ⟨f e, s.hasEntry_updEntry h loc e f has (keeps e).1, (keeps e).2.trans qne⟩

theorem State.queuedAt_unreach {s : State} {h : BitVec 18} {loc : Nat} (q : s.queuedAt h loc) : (s.unreach h).queuedAt h loc := by
  unfold State.unreach
  split
  · exact q
  · dsimp only
    split
    · refine State.queuedAt_of_ntb ?_ (State.queuedAt_updEntry q (fun e => { e with state := .unreachable, wheeled := false })
        (fun _ => ⟨rfl, rfl⟩))
      simp only [State.ev_keeps, State.bump_keeps, State.schedRecord_keeps]
    · exact q

theorem State.queuedAt_putEvent (e : Entry) (n : Nat) (k : Int) (s : State) {loc : Nat} (q : s.queuedAt e.handle loc) :
    (s.putEvent e n k).queuedAt e.handle loc := by
  induction n generalizing s k with
  | zero => exact q
  | succ n ih =>
    unfold State.putEvent
    dsimp only
    split
    · exact ih _ _ (State.queuedAt_of_ntb (by simp) q)
    · refine State.queuedAt_updEntry ?_ _ (fun _ => ⟨rfl, rfl⟩)
      split <;> exact q

theorem State.queuedAt_placeNode {s : State} {h : BitVec 18} {loc : Nat} (q : s.queuedAt h loc) :
    (s.placeNode h).queuedAt h loc := by
  obtain ⟨e, has, qne⟩ := q
  have named : e.handle = h := has.2.2.2
  unfold State.placeNode State.placeFrom
  rw [s.entry_hasEntry h loc e has]
  dsimp only
  split
  · exact ⟨e, has, qne⟩
  · split
    · exact State.queuedAt_updEntry ⟨e, has, qne⟩ _ (fun _ => ⟨rfl, rfl⟩)
    · rw [← named] at has ⊢
      exact State.queuedAt_putEvent e _ _ s ⟨e, has, qne⟩

/-- A node whose queue has risen from empty is scheduled or found unreachable; its frames stay queued (R210, R217). -/
theorem State.queuedAt_queueRose {s : State} {h : BitVec 18} {loc : Nat} (q : s.queuedAt h loc) :
    (s.queueRose h).queuedAt h loc := by
  unfold State.queueRose
  split
  · exact q
  · split
    · exact q
    · split
      · exact State.queuedAt_unreach q
      · exact State.queuedAt_placeNode q

theorem State.unreach_nodeQs (s : State) (h : BitVec 18) : (s.unreach h).car.nodeQs = s.car.nodeQs := by
  unfold State.unreach
  split
  · rfl
  · dsimp only
    split
    · simp only [State.ev_keeps, State.bump_keeps, State.schedRecord, State.record_nodeQs, State.updEntry_nodeQs]
    · rfl

theorem State.putEvent_nodeQs (e : Entry) (n : Nat) (k : Int) (s : State) : (s.putEvent e n k).car.nodeQs = s.car.nodeQs := by
  induction n generalizing s k with
  | zero => rfl
  | succ n ih =>
    unfold State.putEvent
    dsimp only
    split
    · rw [ih]
      simp
    · rw [State.updEntry_nodeQs]
      split <;> rfl

theorem State.queueRose_nodeQs (s : State) (h : BitVec 18) : (s.queueRose h).car.nodeQs = s.car.nodeQs := by
  unfold State.queueRose
  split
  · rfl
  · split
    · rfl
    · split
      · exact s.unreach_nodeQs h
      · unfold State.placeNode State.placeFrom
        split
        · rfl
        · split
          · rfl
          · split
            · exact s.updEntry_nodeQs h _
            · exact State.putEvent_nodeQs ..

/-- The frame as it stands in its node's queue. -/
def nodeItem (hd : Hdr) (b : List Byte) (cells : List Nat) (q : Queue) : QItem :=
  { hdr := some hd, body := b, cells := cells, enq := q.enqs, note := .plain }

/-- The frame is linked behind the others, its cells taken, the anchors updated (R261). -/
def State.nodeLinked (s : State) (h : BitVec 18) (hd : Hdr) (b : List Byte) : State :=
  ((s.takeCells (cellsOf b.length)).2.setNodeQ h
    (Queue.push (s.nodeQ h) (some hd) b (s.takeCells (cellsOf b.length)).1)).noteFree

theorem State.nodeLinked_nodeQ (s : State) (h : BitVec 18) (hd : Hdr) (b : List Byte) :
    ((s.nodeLinked h hd b).nodeQ h).items = (s.nodeQ h).items ++ [nodeItem hd b (s.takeCells (cellsOf b.length)).1 (s.nodeQ h)] := by
  simp only [State.nodeLinked, State.nodeQ, State.noteFree_keeps, State.setNodeQ_nodeQs, mget_mset_same, Queue.push]
  rw [if_neg (by simp)]
  rfl

theorem anchor_some (q : Queue) (e : Entry) (some_ : q.items ≠ []) : Queue.anchor q e =
    { e with qne := true, qHead := (Queue.anchor q e).qHead, qTail := (Queue.anchor q e).qTail } := by
  unfold Queue.anchor
  dsimp only
  rw [if_neg (by simpa using some_)]

/-- Its node's entry has QNE set and its anchors moved. -/
theorem State.nodeLinked_entry (s : State) (h : BitVec 18) (hd : Hdr) (b : List Byte) {loc : Nat} {e : Entry}
    (has : s.hasEntry h loc e) (run : s.runs .NTB = true) :
    ∃ a z, (s.nodeLinked h hd b).hasEntry h loc { e with qne := true, qHead := a, qTail := z } := by
  generalize hq : Queue.push (s.nodeQ h) (some hd) b (s.takeCells (cellsOf b.length)).1 = q
  have anchor := anchor_some q e (by rw [← hq]; simp [Queue.push])
  refine ⟨(Queue.anchor q e).qHead, (Queue.anchor q e).qTail, ?_⟩
  rw [← anchor]
  generalize ht : (s.takeCells (cellsOf b.length)).2 = t
  have ntb : t.ntb = s.ntb := by rw [← ht]; simp
  have regs : t.regs = s.regs := by rw [← ht]; simp
  have run' : State.runs { t with car.nodeQs := mset t.car.nodeQs h.toNat (if q.items.isEmpty then none else some q) } .NTB = true := by
    rw [← run]
    simp only [State.runs, State.rd_get, regs]
  have has' : State.hasEntry { t with car.nodeQs := mset t.car.nodeQs h.toNat (if q.items.isEmpty then none else some q) } h loc e := by
    simp only [State.hasEntry, ntb]
    exact has
  have linked : s.nodeLinked h hd b = (State.updEntry
      { t with car.nodeQs := mset t.car.nodeQs h.toNat (if q.items.isEmpty then none else some q) } h (Queue.anchor q)).noteFree := by
    unfold State.nodeLinked State.setNodeQ
    rw [ht, hq]
    dsimp only
    rw [if_pos run']
  have upd := State.hasEntry_updEntry _ h loc e (Queue.anchor q) has' (by rw [anchor])
  rw [linked]
  simpa only [State.hasEntry, State.noteFree_keeps] using upd

section
variable (s : State) (h : BitVec 18) (hd : Hdr) (b : List Byte) (clear : s.sys.fences = [])
include clear

theorem State.fenced_none (cls idx : Nat) (seq : BitVec 16) : s.fenced cls idx h seq = false := by
  simp only [State.fenced, State.fenceAt, clear, List.find?_nil, Option.map_none]

theorem State.enqueueNode_unknown (unknown : mget s.ntb.dir h.toNat = none) :
    s.enqueueNode h hd b = (s.settle hd stABORTED 7).bump Reg.CAR_NO_ENTRY_TX := by
  have seen : s.access h 5 = (none, s) := by
    simp only [State.access, State.dirLoc, unknown]
    rfl
  simp only [State.enqueueNode, s.fenced_none h clear, seen, Bool.false_eq_true, if_false]

variable {loc : Nat} {e : Entry} (has : s.hasEntry h loc e)
include has

theorem State.enqueueNode_first (empty : (s.nodeQ h).items = []) :
    s.enqueueNode h hd b = if e.qne then s.nodeLinked h hd b else (s.nodeLinked h hd b).queueRose h := by
  simp only [State.enqueueNode, s.fenced_none h clear, s.access_hasEntry h loc e 5 has, Bool.false_eq_true, if_false, empty,
    List.getLast?_nil, Option.bind_none]
  rfl

theorem State.enqueueNode_behind (l : List QItem) (x : QItem) (y : Hdr) (items : (s.nodeQ h).items = l ++ [x]) (hdr : x.hdr = some y) :
    s.enqueueNode h hd b = if later hd.seq y.seq then s.nodeLinked h hd b else (s.settle hd stABORTED 6).bump Reg.CAR_SEQ_ORDER := by
  have last : (s.nodeQ h).items.getLast?.bind (fun x => x.hdr) = some y := by
    rw [items, List.getLast?_append]
    simp [hdr]
  simp only [State.enqueueNode, s.fenced_none h clear, s.access_hasEntry h loc e 5 has, Bool.false_eq_true, if_false, last]
  rfl

end

/-- Settles O32: a descriptor's frame meets admission, waits or is admitted, and stands in its node's queue or is refused. -/
theorem transmitPath : Obligations.TransmitPath := by
  refine ⟨fun s => ⟨fun r desc buf ready host free => ?_, fun w out => ⟨fun run full => ?_, fun room => ?_⟩,
    fun l w l' queue before admitted => exec_admitRetry s l l' w queue before admitted⟩,
    fun s h hd b clear => ⟨s.enqueueNode_unknown h hd b clear, fun loc e has run => ⟨fun empty => ?_, fun l x y items hdr => ⟨fun late => ?_,
      fun late => ?_⟩⟩⟩⟩
  · obtain ⟨w, x, run, idx, done, tun, frame⟩ := exec_txDescFetch s r desc buf ready host free
    obtain ⟨ring, descr, tries, prio, some_, fits, bytes⟩ := s.readTx_spec (desc.drop 8) (bits (leAt (desc.drop 8) 0 2) 0 11) buf
      (2 ≤ s.rd Reg.SYS_HIF_SEL) r.val x.idx
    rw [← frame] at ring descr tries prio some_ fits bytes
    exact ⟨_, run, w, x, rfl, idx, done, ring, descr, tun, tries, prio, some_, fits, bytes⟩
  · rw [s.offerItem_waits w out, if_pos (by rw [run, full]; rfl)]
  · rw [s.offerItem_waits w out, if_neg (by rcases room with h | h <;> rw [h] <;> simp)]
  · have items := s.nodeLinked_nodeQ h hd b
    obtain ⟨a, z, entry⟩ := s.nodeLinked_entry h hd b has run
    rw [empty, List.nil_append] at items
    rw [s.enqueueNode_first h hd b clear has empty]
    split
    · exact ⟨_, _, items, entry, rfl⟩
    · obtain ⟨e', has', qne⟩ := State.queuedAt_queueRose (s := s.nodeLinked h hd b) ⟨_, entry, rfl⟩
      refine ⟨(s.takeCells (cellsOf b.length)).1, e', ?_, has', qne⟩
      have kept : ((s.nodeLinked h hd b).queueRose h).nodeQ h = (s.nodeLinked h hd b).nodeQ h := by
        rw [State.nodeQ, State.queueRose_nodeQs, State.nodeQ]
      rw [kept]
      exact items
  · rw [s.enqueueNode_behind h hd b clear has l x y items hdr, if_neg (by rw [late]; decide)]
  · rw [s.enqueueNode_behind h hd b clear has l x y items hdr, if_pos late]
    exact ⟨_, s.nodeLinked_nodeQ h hd b, s.nodeLinked_entry h hd b has run⟩

end Sys2Proof.Machine

/-!
PROOF. Completions, receive deliveries and the pop windows (O33, R34, R267, R270, R272, R274, R276, R277).
-/

namespace Sys2Proof.Machine

/-! ### A completion on a ring -/

theorem State.ringDone_regs (s : State) (ring : Nat) :
    (s.ringDone ring).regs = Reg.HST_RING_COMPL.put s.regs 0 ring (Reg.HST_RING_COMPL.get s.regs 0 ring + 1) := by
  simp [State.ringDone, State.emit]

theorem State.ringDone_out (s : State) (ring : Nat) {o : Out} (h : o ∈ s.out) : o ∈ (s.ringDone ring).out := by
  simp only [State.ringDone, State.event_keeps, State.emit, State.wrB_keeps]
  exact List.mem_append_left _ h

theorem State.ringDone_counts (s : State) (ring : Nat) :
    (s.ringDone ring).rdB Reg.HST_RING_COMPL 0 ring = (s.rdB Reg.HST_RING_COMPL 0 ring + 1) % 65536 := by
  rw [State.rdB_get, State.ringDone_regs, Fld.get_put_same]
  rfl

/-! ### Transmit completions (R272, R274, R277) -/

theorem exec_txCompletionWrite_done (s : State) (r : Fin 16) (x : TxSlot) (c : TxDone)
    (oldest : s.hst.txSlots.find? (fun p => p.1 = r.val) = some (r.val, x)) (done : x.done = some c) (host : x.tunSeq = none)
    (dma : s.dma = true) :
    exec (.txCompletionWrite r) s = .next (State.ringDone (State.emit
      { s with hst.txSlots := s.hst.txSlots.eraseP (fun p => p.1 = r.val) }
      (.txCompl r.val x.idx (s.slotAddr r.val x.idx + 24) c)) r.val) := by
  simp only [exec, execTxCompletionWrite, oldest, done, host, dma, if_true]

/-! ### Receive deliveries (R267, R276) -/

theorem State.sysQ_correctCells (s : State) (l : List Nat) (q : Nat) : (s.correctCells l).sysQ q = s.sysQ q := by
  simp only [State.sysQ, State.correctCells_car]

/-- A release takes the oldest item. -/
theorem State.releaseSys_items (s : State) (q : Nat) {it : QItem} {l : List QItem} (items : (s.sysQ q).items = it :: l) :
    ((s.releaseSys q).sysQ q).items = l := by
  rw [State.releaseSys, State.sysQ_correctCells, State.setSysQ_sysQ]
  simp [Queue.drop, items]

/-- The delivery of an item on a receive ring: its data, its completion, its slot. -/
def State.delivered (s : State) (b : Nat) (buf : Word64) (it : QItem) : State :=
  let idx := BitVec.ofNat 16 (s.rdB Reg.HST_RING_FETCH 0 b)
  let data := if it.hdr.isSome then it.body else it.body ++ List.replicate (64 - it.body.length) 0
  let s := (s.fetched b).emit (.rxData b idx buf data)
  (s.emit (.rxCompl b idx (s.slotAddr b idx + 8) (rxCompletion it (s.rd Reg.SYS_HIF_SEL)))).ringDone b

theorem exec_rxDeliver (s : State) (r : Fin 16) (buf : Word64) (q : Nat) (it : QItem) (l : List QItem)
    (ready : s.ringReady (16 + r.val) = true) (run : s.runs .CAR = true) (host : s.headless = false)
    (pick : s.rxPick r.val = some q) (items : (s.sysQ q).items = it :: l) :
    exec (.rxDeliver r buf) s = .next { (s.delivered (16 + r.val) buf it).releaseSys q with
      hst.rot := mput (s.delivered (16 + r.val) buf it).hst.rot r.val q } := by
  have head : (s.sysQ q).items.head? = some it := by rw [items]; rfl
  simp only [exec, execRxDeliver]
  rw [if_pos (by rw [ready, run, host]; decide), pick]
  dsimp only
  rw [head]
  rfl

theorem State.fetched_slotAddr (s : State) (b : Nat) (i : BitVec 16) : (s.fetched b).slotAddr b i = s.slotAddr b i := by
  simp only [State.slotAddr, State.ringSize, State.fetched, State.rdB_get, State.wrB_regs]
  rw [Fld.get_put_place (by decide), Fld.get_put_place (by decide)]

theorem State.delivered_spec (s : State) (b : Nat) (buf : Word64) (it : QItem) :
    (s.delivered b buf it).rdB Reg.HST_RING_FETCH 0 b = (s.rdB Reg.HST_RING_FETCH 0 b + 1) % 65536 ∧
      (s.delivered b buf it).rdB Reg.HST_RING_COMPL 0 b = (s.rdB Reg.HST_RING_COMPL 0 b + 1) % 65536 ∧
      Out.rxCompl b (BitVec.ofNat 16 (s.rdB Reg.HST_RING_FETCH 0 b))
        (s.slotAddr b (BitVec.ofNat 16 (s.rdB Reg.HST_RING_FETCH 0 b)) + 8)
        (rxCompletion it (s.rd Reg.SYS_HIF_SEL)) ∈ (s.delivered b buf it).out ∧
      (∀ h, it.hdr = some h → Out.rxData b (BitVec.ofNat 16 (s.rdB Reg.HST_RING_FETCH 0 b)) buf it.body ∈
        (s.delivered b buf it).out) ∧ (s.delivered b buf it).car = s.car := by
  have hif : (s.fetched b).rd Reg.SYS_HIF_SEL = s.rd Reg.SYS_HIF_SEL := by
    rw [State.rd_get, State.fetched, State.wrB_regs, Fld.get_put_place (by decide), State.rd_get]
  have regs : (s.fetched b).regs = Reg.HST_RING_FETCH.put s.regs 0 b (Reg.HST_RING_FETCH.get s.regs 0 b + 1) := rfl
  unfold State.delivered
  refine ⟨?_, ?_, ?_, fun h hdr => ?_, ?_⟩
  · rw [State.rdB_get, State.ringDone_regs, Fld.get_put_place (by decide)]
    exact Fld.get_put_same _ _ _ _ _
  · rw [State.ringDone_counts]
    refine congrArg (fun n => (n + 1) % 65536) ?_
    exact Fld.get_put_place (by decide) _ _ _ _
  · refine State.ringDone_out _ _ (List.mem_append_right _ ?_)
    rw [← s.fetched_slotAddr b, ← hif]
    exact List.mem_singleton_self _
  · refine State.ringDone_out _ _ (List.mem_append_left _ (List.mem_append_right _ ?_))
    rw [hdr]
    exact List.mem_singleton_self _
  · simp [State.emit, State.fetched]

/-! ### The pop windows (R270) -/

/-- With no cell upset a release corrects nothing. -/
theorem State.releaseSys_regs (s : State) (q : Nat) (sound : s.car.upsets = []) : (s.releaseSys q).regs = s.regs := by
  have kept : (s.setSysQ q (Queue.drop (s.sysQ q) 0)).car.upsets = [] := sound
  simp only [State.releaseSys, State.correctCells, kept, List.filter_nil, List.foldl_nil]
  rfl

/-- The state in which a pop window shows bytes and, behind them, a status. -/
def State.popShown (t : State) (base : Nat) (bs : List Byte) (st : Byte) : State :=
  { t.capture base (bs ++ [st]) with hostData := bs.headD 0 }

theorem State.popShown_keeps (t : State) (base q : Nat) (bs : List Byte) (st : Byte) :
    (t.popShown base bs st).sysQ q = t.sysQ q ∧ (t.popShown base bs st).regs = t.regs ∧
      (t.popShown base bs st).hostData = bs.headD 0 := ⟨rfl, rfl, rfl⟩

theorem State.popWindow_front (s : State) (q base : Nat) (last : List Byte) (under : Fld) {it : QItem}
    (front : (s.sysQ q).items.head? = some it) :
    s.popWindow q base last under = ((List.range 16).map (fun i => it.body.getD i 0),
      (s.releaseSys q).popShown base ((List.range 16).map (fun i => it.body.getD i 0))
        (if ((s.releaseSys q).sysQ q).items.isEmpty then 3 else 1)) := by
  unfold State.popWindow
  rw [front]
  rfl

theorem State.popWindow_takes (s : State) (q base : Nat) (last : List Byte) (under : Fld) {it : QItem} {l : List QItem}
    (items : (s.sysQ q).items = it :: l) :
    (s.popWindow q base last under).1 = (List.range 16).map (fun i => it.body.getD i 0) ∧
      ((s.popWindow q base last under).2.sysQ q).items = l ∧ (s.popWindow q base last under).2.hostData = it.body.getD 0 0 ∧
      (s.car.upsets = [] → (s.popWindow q base last under).2.regs = s.regs) := by
  rw [s.popWindow_front q base last under (by rw [items]; rfl)]
  obtain ⟨queue, regs, data⟩ := (s.releaseSys q).popShown_keeps base q ((List.range 16).map (fun i => it.body.getD i 0))
    (if ((s.releaseSys q).sysQ q).items.isEmpty then 3 else 1)
  refine ⟨rfl, ?_, ?_, fun sound => regs.trans (s.releaseSys_regs q sound)⟩
  · rw [queue]; exact s.releaseSys_items q items
  · rw [data]; rfl

theorem State.popWindow_empty (s : State) (q base : Nat) (last : List Byte) (under : Fld) (items : (s.sysQ q).items = []) :
    (s.popWindow q base last under).1 = last ∧ (s.popWindow q base last under).2.rd under = 1 % 2 ^ under.width ∧
      (s.popWindow q base last under).2.hostData = last.headD 0 := by
  have head : (s.sysQ q).items.head? = none := by rw [items]; rfl
  unfold State.popWindow
  rw [head]
  exact ⟨rfl, State.rd_wr_same _ _ _, rfl⟩

/-- Settles O33: completions, receive deliveries and the pop windows. -/
theorem ringDeliveries : Obligations.RingDeliveries := by
  refine ⟨fun s r x oldest => ⟨fun pending => ?_, fun c done => ⟨fun host dma => ?_, fun q tun => ?_⟩⟩,
    fun s r buf q it l ready run host pick items => ?_, fun s => ⟨fun reads => ⟨fun it l items => ?_, fun it l items => ?_,
      fun items => ?_, fun items => ?_⟩, fun stopped link => ?_⟩⟩
  · simp only [exec, execTxCompletionWrite, oldest, pending]
  · exact ⟨_, exec_txCompletionWrite_done s r x c oldest done host dma, rfl, State.ringDone_counts _ _⟩
  · simp only [exec, execTxCompletionWrite, oldest, done, tun]
  · obtain ⟨fetch, compl, report, data, car⟩ := s.delivered_spec (16 + r.val) buf it
    have run' := exec_rxDeliver s r buf q it l ready run host pick items
    generalize s.delivered (16 + r.val) buf it = t at *
    have items' : (t.sysQ q).items = it :: l := by simpa only [State.sysQ, car] using items
    have out : (t.releaseSys q).out = t.out := by simp
    refine ⟨_, run', t.releaseSys_items q items', mget_mput_same _ _ _, ?_, ?_, ?_, fun h hdr => ?_⟩
    · exact (State.releaseSys_get (g := Reg.HST_RING_FETCH) (by decide) t q _).trans fetch
    · exact (State.releaseSys_get (g := Reg.HST_RING_COMPL) (by decide) t q _).trans compl
    · exact out ▸ report
    · exact out ▸ data h hdr
  · obtain ⟨bytes, left, first, regs⟩ := s.popWindow_takes 0x12 0x9080 s.car.tevLast Reg.CAR_TEV_UNDERRUN items
    refine ⟨_, congrArg Host.Outcome.next (if_pos reads), left, first, bytes, regs⟩
  · obtain ⟨bytes, left, first, regs⟩ := s.popWindow_takes 0x13 0x90A0 s.car.sevLast Reg.CAR_SEV_UNDERRUN items
    refine ⟨_, congrArg Host.Outcome.next (if_pos reads), left, first, bytes, regs⟩
  · obtain ⟨last, under, first⟩ := s.popWindow_empty 0x12 0x9080 s.car.tevLast Reg.CAR_TEV_UNDERRUN items
    exact ⟨_, congrArg Host.Outcome.next (if_pos reads), under, last, first⟩
  · obtain ⟨last, under, first⟩ := s.popWindow_empty 0x13 0x90A0 s.car.sevLast Reg.CAR_SEV_UNDERRUN items
    exact ⟨_, congrArg Host.Outcome.next (if_pos reads), under, last, first⟩
  · simp only [exec, execTevPop, execSevPop, stopped, Bool.false_eq_true, if_false, State.readZero, link, if_true, and_self]

end Sys2Proof.Machine

/-!
PROOF. The step at the front of the queue and the reset state (O1, O2); uplinks, securing and epochs at KEY (O35 to O37,
R237, R292, R294, R296, R298, R300, R303).
-/

namespace Sys2Proof.Machine

/-- Settles O1: with a command at the front of the queue, `step` is `exec` on the state with the queue's rest. -/
theorem stepRunsFront : Obligations.StepRunsFront := fun c s l pending => by
  simp only [step, pending]

/-- Settles O2: the reset state evaluates to what is claimed of it. -/
theorem resetState : Obligations.ResetState :=
  ⟨rfl, rfl, rfl, rfl, rfl, by decide, rfl, rfl, rfl, rfl, rfl, rfl, reset_nvmOk, by decide⟩

/-! ### Uplinks -/

/-- Settles O35: the outcomes of an uplink's check, in their order. -/
theorem uplinkChecks : Obligations.UplinkChecks := by
  intro s u rest front key sch
  have gate : ¬((!s.runs .KEY || !s.runs .SCH) = true) := by rw [key, sch]; decide
  have levelBad (low : ¬(¬u.psdu.level < s.rd Reg.KEY_UL_SEC_MIN ∧ u.psdu.level ≠ 4)) :
      (decide (u.psdu.level < s.rd Reg.KEY_UL_SEC_MIN) || decide (u.psdu.level = 4)) = true := by
    simp only [Bool.or_eq_true, decide_eq_true_eq]; omega
  have levelGood (fits : ¬u.psdu.level < s.rd Reg.KEY_UL_SEC_MIN ∧ u.psdu.level ≠ 4) :
      ¬(decide (u.psdu.level < s.rd Reg.KEY_UL_SEC_MIN) || decide (u.psdu.level = 4)) = true := by
    simp only [Bool.or_eq_true, decide_eq_true_eq]; omega
  refine ⟨fun none' => ?_, fun held low => ?_, fun held fits mic => ?_, fun net e held fits mic prev grace => ?_,
    fun held fits mic => ?_⟩ <;> simp only [exec, execKeyUlCheck, front]
  · exact (if_neg gate).trans (if_pos none')
  · exact (if_neg gate).trans ((if_neg (not_not_intro held)).trans (if_pos (levelBad low)))
  · exact (if_neg gate).trans ((if_neg (not_not_intro held)).trans ((if_neg (levelGood fits)).trans (if_pos mic)))
  · refine (if_neg gate).trans ((if_neg (not_not_intro held)).trans ((if_neg (levelGood fits)).trans ((if_neg mic).trans ?_)))
    rw [prev]
    exact if_pos grace
  · have no (k : Key) : u.psdu.mic ≠ some k := by rw [mic]; exact nofun
    refine (if_neg gate).trans ((if_neg (not_not_intro held)).trans ((if_neg (levelGood fits)).trans ((if_neg (no _)).trans ?_)))
    split
    · exact if_neg (no _)
    · rfl

/-! ### Securing -/

theorem State.reserve_get (s : State) (sgen : BitVec 16) (e : Byte) (b : Nat) {g : Fld} (h : g.place ≠ Reg.KEY_FC_BLOCK.place) :
    g.get (s.reserve sgen e b).regs 0 0 = g.get s.regs 0 0 :=
  Fld.get_put_place h ..

/-- What follows a frame counter's write touches the reservation and the event alone (R300). -/
theorem State.takeFc_get (s : State) {g : Fld} (block : g.place ≠ Reg.KEY_FC_BLOCK.place)
    (event : g.place ≠ Reg.KEY_KEY_EVT.place) :
    g.get s.takeFc.2.regs 0 0 = g.get (s.wr Reg.KEY_FC_NEXT (s.rd Reg.KEY_FC_NEXT + 1)).regs 0 0 := by
  unfold State.takeFc
  dsimp only
  generalize s.wr Reg.KEY_FC_NEXT (s.rd Reg.KEY_FC_NEXT + 1) = t
  split <;> split
  · exact (State.get_ev_place event ..).trans (t.reserve_get _ _ _ block)
  · exact State.get_ev_place event ..
  · exact t.reserve_get _ _ _ block
  · rfl

/-- The frame counter that KEY takes moves on by one (R298). -/
theorem State.takeFc_next (s : State) (more : s.rd Reg.KEY_FC_NEXT < 0xFFFFFFFF) :
    s.takeFc.2.rd Reg.KEY_FC_NEXT = s.rd Reg.KEY_FC_NEXT + 1 :=
  (s.takeFc_get (by decide) (by decide)).trans
    ((State.rd_wr_same s _ _).trans (Nat.mod_eq_of_lt (show _ < 2 ^ 32 by omega)))

/-- A downlink frame and an acknowledgement are secured under the link key of their node (R292). -/
theorem State.keyOf_link (s : State) (f : TxItem) (has : s.hasKey f = true) (kind : f.kind = .dl ∨ f.kind = .ack) :
    s.keyOf f = some (.link s.aon.store.net s.aon.store.epoch f.eui) := by
  have held : s.rd Reg.KEY_KSTATE = 1 := by
    by_contra none'
    rw [State.hasKey, State.keyOf, if_pos none'] at has
    exact absurd has (by decide)
  rw [State.keyOf, if_neg (not_not_intro held)]
  obtain kind | kind := kind <;> rw [kind] <;> rfl

theorem State.mapEnter_only_maps (s : State) (f : TxItem) :
    (s.mapEnter f).key = s.key ∧ (s.mapEnter f).regs = s.regs ∧ (s.mapEnter f).phy.tx = s.phy.tx := by
  unfold State.mapEnter
  split <;> exact ⟨rfl, rfl, rfl⟩

/-- A frame that KEY secures under the next frame counter goes on to PHY (R298). -/
theorem exec_keySecure_sent (s : State) (f : TxItem) (rest : List TxItem) (front : s.key.tx = f :: rest)
    (key : s.runs .KEY = true) (phy : s.runs .PHY = true) (fence : f.fence = false)
    (secured : ¬(f.kind = .beacon ∧ f.gid = 0xFF)) (has : s.hasKey f = true) (epoch : f.epoch = s.aon.store.epoch)
    (more : s.rd Reg.KEY_FC_NEXT ≠ 0xFFFFFFFF) :
    exec .keySecure s = .next
      (let t := ({ s with key.tx := rest } : State).takeFc.2
       let g := s.secure f (BitVec.ofNat 32 (s.rd Reg.KEY_FC_NEXT))
       State.mapEnter { t with phy.tx := txInsert g t.phy.tx } g) := by
  simp only [exec, execKeySecure, front]
  have gate : ¬((!s.runs .KEY || !s.runs .PHY) = true) := by rw [key, phy]; decide
  refine (if_neg gate).trans ((if_neg (by rw [fence]; decide)).trans ((if_neg (by simpa using secured)).trans
    ((if_neg ?_).trans ((if_neg (not_not_intro epoch)).trans (if_neg more)))))
  show ¬(!s.hasKey f) = true
  rw [has]
  decide

/-- Settles O36. -/
theorem securing : Obligations.Securing := by
  intro s f rest front key phy
  have gate : ¬((!s.runs .KEY || !s.runs .PHY) = true) := by rw [key, phy]; decide
  have unfenced (fence : f.fence = false) : ¬f.fence = true := by rw [fence]; decide
  have closed (h : ¬(f.kind = .beacon ∧ f.gid = 0xFF)) : ¬(decide (f.kind = .beacon) && decide (f.gid = 0xFF)) = true := by
    simpa using h
  have keyed (h : s.hasKey f = true) : ¬(!s.hasKey f) = true := by rw [h]; decide
  refine ⟨fun fence => ?_, fun fence plain => ?_, fun fence secured has epoch more => ?_, fun fence secured has => ?_,
    fun fence secured has epoch => ?_, fun fence secured has epoch full => ?_⟩
  case refine_3 =>
    refine ⟨_, exec_keySecure_sent s f rest front key phy fence secured has epoch (by omega), ?_⟩
    have next := State.takeFc_next { s with key.tx := rest } more
    have keptKey : ({ s with key.tx := rest } : State).takeFc.2.key = { s.key with tx := rest } := by simp
    have keptPhy : ({ s with key.tx := rest } : State).takeFc.2.phy = s.phy := by simp
    dsimp only
    generalize ({ s with key.tx := rest } : State).takeFc.2 = t at next keptKey keptPhy
    obtain ⟨mapsKey, mapsRegs, mapsTx⟩ := State.mapEnter_only_maps
      { t with phy.tx := txInsert (s.secure f (BitVec.ofNat 32 (s.rd Reg.KEY_FC_NEXT))) t.phy.tx }
      (s.secure f (BitVec.ofNat 32 (s.rd Reg.KEY_FC_NEXT)))
    refine ⟨?_, ?_, s.secure f (BitVec.ofNat 32 (s.rd Reg.KEY_FC_NEXT)), ?_, rfl, rfl, rfl, rfl, rfl, ?_, ?_, ?_, ?_⟩
    · rw [mapsKey, keptKey]
    · rw [State.rd_get, mapsRegs]; exact next
    · rw [mapsTx, keptPhy]
    · exact rfl
    · exact fun ack => if_pos ack
    · exact fun other => if_neg other
    · exact fun addressed => s.keyOf_link f has addressed
  all_goals simp only [exec, execKeySecure, front]
  · exact (if_neg gate).trans (if_pos fence)
  · exact (if_neg gate).trans ((if_neg (unfenced fence)).trans (if_pos (by simpa using plain)))
  · exact (if_neg gate).trans ((if_neg (unfenced fence)).trans ((if_neg (closed secured)).trans
      (if_pos (show (!s.hasKey f) = true by rw [has]; rfl))))
  · exact (if_neg gate).trans ((if_neg (unfenced fence)).trans ((if_neg (closed secured)).trans
      ((if_neg (keyed has)).trans (if_pos epoch))))
  · exact (if_neg gate).trans ((if_neg (unfenced fence)).trans ((if_neg (closed secured)).trans
      ((if_neg (keyed has)).trans ((if_neg (not_not_intro epoch)).trans (if_pos full)))))

/-! ### Epochs -/

theorem nextEpoch_ne_zero (e : Byte) : nextEpoch e ≠ 0 := by
  unfold nextEpoch
  split
  · decide
  · bv_omega

/-- A store that is written stands in the always-on domain, good, with a copy of it in the NVM (R294, R295). -/
theorem State.writeStore_spec (s : State) (k : Option Key) (st : KeyStore) :
    (∃ w, (s.writeStore k st).aon.store = { st with good := true, wseq := w }) ∧
      ∃ c ∈ (s.writeStore k st).nvm.copies, c.store = (s.writeStore k st).aon.store ∧
        some c.slot = (s.writeStore k st).nvm.lastCopy ∧ c.key = k :=
  ⟨⟨_, rfl⟩, _, List.mem_append_right _ (List.mem_singleton_self _), rfl, rfl, rfl⟩

/-- An epoch change writes its store and starts the frame counter at 0 (R294). -/
theorem State.changeEpoch_spec (s : State) (st : KeyStore) :
    (s.changeEpoch st).rd Reg.KEY_EPOCH_STAT = 1 ∧ (s.changeEpoch st).rd Reg.KEY_FC_NEXT = 0 ∧
      (s.changeEpoch st).key.epochPend = true ∧ (s.changeEpoch st).key.egress = st.epoch ∧
      (∃ w, (s.changeEpoch st).aon.store = { st with good := true, wseq := w }) ∧
      ∃ c ∈ (s.changeEpoch st).nvm.copies, c.store = (s.changeEpoch st).aon.store ∧
        some c.slot = (s.changeEpoch st).nvm.lastCopy ∧ c.key = s.nvmKey s.key.lc := by
  obtain ⟨store, copy⟩ := (s.reserve st.sgen st.epoch 0).writeStore_spec (s.nvmKey s.key.lc) st
  unfold State.changeEpoch
  dsimp only
  generalize (s.reserve st.sgen st.epoch 0).writeStore (s.nvmKey s.key.lc) st = t at store copy
  refine ⟨?_, ?_, rfl, rfl, store, copy⟩
  · exact State.rd_wr_same (t.wr Reg.KEY_FC_NEXT 0) Reg.KEY_EPOCH_STAT 1
  · show Reg.KEY_FC_NEXT.get ((t.wr Reg.KEY_FC_NEXT 0).wr Reg.KEY_EPOCH_STAT 1).regs 0 0 = 0
    rw [State.wr_regs, Fld.get_put_place (by decide)]
    exact State.rd_wr_same t Reg.KEY_FC_NEXT 0

/-- The store of the next epoch (R294). -/
def nextStore (st : KeyStore) : KeyStore := { st with epoch := nextEpoch st.epoch, left := st.left - 1 }

/-- CHANGE with nothing in its way changes the epoch (R294). -/
theorem State.epochCmd_changes (s : State) (held : s.rd Reg.KEY_KSTATE = 1) (left : s.aon.store.left ≠ 0)
    (free : s.key.epochPend = false) (idle : s.key.msgQ = []) :
    s.epochCmd = s.changeEpoch (nextStore s.aon.store) :=
  if_neg (by rw [held, free, idle]; simpa using left)

/-- CHANGE is refused without a secret, without changes left, or while something is under way (R294). -/
theorem State.epochCmd_refused (s : State)
    (why : s.rd Reg.KEY_KSTATE ≠ 1 ∨ s.aon.store.left = 0 ∨ s.key.epochPend = true ∨ s.key.msgQ ≠ []) :
    s.epochCmd = s.wr Reg.KEY_EPOCH_STAT 3 := by
  refine if_pos ?_
  simp only [Bool.or_eq_true, decide_eq_true_eq, Bool.not_eq_true', List.isEmpty_eq_false_iff]
  tauto

/-- Settles O37: the command by its two cases, the completion by its guard, the end of the grace period by definition. -/
theorem epochChange : Obligations.EpochChange := by
  intro s
  refine ⟨fun may => ⟨fun why => ?_, fun held left free idle => ?_⟩, fun g ahead => ?_,
    fun pend none' fel feh fei eth => ?_, rfl⟩
  · exact congrArg Host.Outcome.next ((s.hostOp_may _ _ _ may).trans ((s.numbered 1).epochCmd_refused why))
  · refine ⟨_, congrArg Host.Outcome.next ((s.hostOp_may _ _ _ may).trans
      ((s.numbered 1).epochCmd_changes held left free idle)), ?_⟩
    obtain ⟨stat, next, now, egress, ⟨w, store⟩, copy⟩ := (s.numbered 1).changeEpoch_spec
      (nextStore (s.numbered 1).aon.store)
    generalize (s.numbered 1).changeEpoch (nextStore (s.numbered 1).aon.store) = t at stat next now egress store copy
    refine ⟨stat, next, ?_, ?_, ?_, ?_, now, ?_, ?_, copy⟩ <;> rw [store]
    · rfl
    · exact nextEpoch_ne_zero _
    · rfl
    · rfl
    · exact egress
  · have any : allGrps.any s.oldAhead = true := List.any_eq_true.mpr ⟨g, by cases g <;> decide, ahead⟩
    exact if_neg (by rw [any]; simp)
  · have any : allGrps.any s.oldAhead = false := by
      rw [List.any_eq_false]
      exact fun g _ => by rw [none' g]; decide
    have key : ((s.wr Reg.KEY_EPOCH_STAT 2).ev Reg.KEY_KEY_EVT 1 112).key = s.key := by simp
    refine ⟨_, if_pos (by rw [pend, any, fel, feh, fei, eth]; rfl), ?_, rfl, ?_, by dsimp only; rw [key]⟩
    · exact (State.get_ev_place (f := Reg.KEY_KEY_EVT) (by decide) ..).trans (State.rd_wr_same s _ _)
    · exact State.ev_testBit _ 112 (by decide)

end Sys2Proof.Machine

/-!
PROOF. What a reply leaves in the registers; key-update messages (O38, O39, R283, R305 to R308).
-/

namespace Sys2Proof.Machine

/-! ### Replies -/

/-- Not written by a reply to mailbox, management channel or twin. -/
def Fld.offReplies (g : Fld) : Bool := g.page ≠ 13 && g.page ≠ 14 && g.offQueues

section
variable {g : Fld} (h : g.offReplies = true)
include h

theorem Fld.page_offReplies : g.page ≠ 13 ∧ g.page ≠ 14 ∧ g.offQueues = true := by
  simpa only [Fld.offReplies, Bool.and_eq_true, decide_eq_true_eq, and_assoc] using h

theorem State.mbxReply_get (s : State) (b : List Byte) (c : Nat) : g.get (s.mbxReply b).regs 0 c = g.get s.regs 0 c := by
  obtain ⟨hst, -, -⟩ := Fld.page_offReplies h
  unfold State.mbxReply
  split
  · dsimp only
    rw [State.get_ev_page hst, State.wr_regs, Fld.get_put_page hst, State.wr_regs, Fld.get_put_page hst]
    rfl
  · rfl

theorem State.flushRsp_get (s : State) (c : Nat) : g.get s.flushRsp.regs 0 c = g.get s.regs 0 c := by
  obtain ⟨-, -, queues⟩ := Fld.page_offReplies h
  have sent (t : State) (it : QItem) : (t.sendRsp it).regs = t.regs := by
    unfold State.sendRsp
    split <;> simp
  unfold State.flushRsp
  split
  · exact foldl_keeps (fun (t : State) => g.get t.regs 0 c) _ _ s
      (fun t it => (State.releaseSys_get queues ..).trans (by rw [sent]))
  · rfl

theorem State.mgtReply_get (s : State) (r : ReplyTo) (type : Byte) (b : List Byte) (c : Nat) :
    g.get (s.mgtReply r type b).regs 0 c = g.get s.regs 0 c :=
  (State.flushRsp_get h _ c).trans (State.deviceItem_get (Fld.page_offReplies h).2.2 ..)

theorem State.kuReply_get (s : State) (r : ReplyTo) (status reason : Byte) (c : Nat) :
    g.get (s.kuReply r status reason).regs 0 c = g.get s.regs 0 c := by
  unfold State.kuReply
  dsimp only
  split
  · exact State.mbxReply_get h ..
  · exact State.mgtReply_get h ..

theorem State.respond_get (s : State) (r : ReplyTo) (b : List Byte) (c : Nat) :
    g.get (s.respond r b).regs 0 c = g.get s.regs 0 c := by
  obtain ⟨-, twn, -⟩ := Fld.page_offReplies h
  unfold State.respond
  dsimp only
  split
  · exact State.mbxReply_get h ..
  · exact State.mgtReply_get h ..
  · split
    · exact Fld.get_put_page (f := Reg.TWN_RLY_ST) twn ..
    · exact (State.get_ev_page (f := Reg.TWN_TW_EVT) twn ..).trans (Fld.get_put_page (f := Reg.TWN_RLY_ST) twn ..)

end

/-! ### The message at the front -/

/-- The message at the front is checked against the store of its kind, then refused or applied (R306). -/
theorem State.kuRun_front (s : State) {kind : Byte} (f : State → ReplyTo → KuMsg → State) {r : ReplyTo} {m : KuMsg}
    {rest : List (ReplyTo × KuMsg)} (front : s.key.msgQ = (r, m) :: rest) (run : s.runs .KEY = true) (same : m.kind = kind) :
    s.kuRun kind f = match s.kuCheck m (if kind = 1 then KeyStore.empty else s.aon.store) with
      | some reason => ({ s with key.msgQ := rest } : State).kuRefuse r reason
      | none => f { s with key.msgQ := rest } r m := by
  unfold State.kuRun
  rw [front]
  exact if_neg (by rw [same, run]; simp)

/-- Settles O38: the check of the message at the front is the one of its kind, and a refusal writes no store. -/
theorem keyUpdateRefusals : Obligations.KeyUpdateRefusals := by
  intro s r m rest why front run
  have refused (kind : Byte) (f : State → ReplyTo → KuMsg → State) (same : m.kind = kind)
      (fails : s.kuCheck m (if kind = 1 then KeyStore.empty else s.aon.store) = some why) :
      s.kuRun kind f = ({ s with key.msgQ := rest } : State).kuRefuse r why := by
    rw [s.kuRun_front f front run same, fails]
  have kept : let t := ({ s with key.msgQ := rest } : State).kuRefuse r why
      t.aon = s.aon ∧ t.otp = s.otp ∧ t.nvm = s.nvm := by simp
  exact ⟨fun same fails => ⟨_, congrArg Host.Outcome.next (refused 1 _ same fails), rfl, kept⟩,
    fun same fails => ⟨_, congrArg Host.Outcome.next (refused 2 _ same fails), rfl, kept⟩,
    fun same fails => ⟨_, congrArg Host.Outcome.next (refused 3 _ same fails), rfl, kept⟩,
    fun same fails => ⟨_, congrArg Host.Outcome.next (refused 4 _ same fails), rfl, kept⟩⟩

/-! ### Effects -/

/-- A message that completes clears the latch and leaves store, OTP, NVM and keys (R308, R311). -/
theorem State.kuDone_aon (s : State) (r : ReplyTo) : (s.kuDone r).aon = { s.aon with latch := false, src := 0 } := by
  unfold State.kuDone
  dsimp only
  split <;> simp

@[simp] theorem State.advanceKu_key (s : State) (ctr : Nat) :
    (s.advanceKu ctr).key = s.key ∧ (s.advanceKu ctr).aon = s.aon ∧ (s.advanceKu ctr).nvm = s.nvm := by
  unfold State.advanceKu
  split <;> exact ⟨rfl, rfl, rfl⟩

/-- The store that a message leaves (R305). -/
theorem kuStore_spec (m : KuMsg) (st : KeyStore) :
    (kuStore m st).kuCtr = m.ctr ∧ (kuStore m st).groups = (kuGroups m st).getD [] ∧
      (∀ n, m.net = some n → (kuStore m st).net = n ∧ (kuStore m st).sgen = st.sgen + 1 ∧ (kuStore m st).left = 254) ∧
      (m.net = none → (kuStore m st).net = st.net ∧ (kuStore m st).epoch = st.epoch) := by
  unfold kuStore
  cases h : m.net <;> simp

/-- KEYS puts its store in place with a copy under the key of the state, and clears the latch (R305, R308). -/
theorem State.applyKeys_spec (s : State) (r : ReplyTo) (m : KuMsg) :
    (s.applyKeys r m).aon.latch = false ∧ (s.applyKeys r m).aon.src = 0 ∧
      (∃ w, (s.applyKeys r m).aon.store = { kuStore m s.aon.store with good := true, wseq := w }) ∧
      ∃ c ∈ (s.applyKeys r m).nvm.copies, c.store = (s.applyKeys r m).aon.store ∧ c.key = s.nvmKey s.key.lc := by
  have written : ∃ t : State, s.applyKeys r m = (t.advanceKu m.ctr).kuDone r ∧
      (∃ w, t.aon.store = { kuStore m s.aon.store with good := true, wseq := w }) ∧
      ∃ c ∈ t.nvm.copies, c.store = t.aon.store ∧ c.key = s.nvmKey s.key.lc := by
    unfold State.applyKeys
    dsimp only
    split
    · obtain ⟨-, -, -, -, store, c, mem, copied, -, key⟩ := s.changeEpoch_spec (kuStore m s.aon.store)
      exact ⟨_, rfl, store, c, mem, copied, key⟩
    · obtain ⟨store, c, mem, copied, -, key⟩ := s.writeStore_spec (s.nvmKey s.key.lc) (kuStore m s.aon.store)
      exact ⟨_, rfl, store, c, mem, copied, key⟩
  obtain ⟨t, e, store, copy⟩ := written
  have nvm : ((t.advanceKu m.ctr).kuDone r).nvm = t.nvm := by simp
  rw [e, State.kuDone_aon, nvm, (t.advanceKu_key m.ctr).2.1]
  exact ⟨rfl, rfl, store, copy⟩

/-- An internal reset leaves the bare device, but for the registers that it keeps and the record of stuck islands (R55). -/
theorem State.internalReset_bare (s : State) (cause : Nat) (hold : Hold) :
    ∃ r l, s.internalReset cause hold = { s.bare hold with regs := r, sys.fltCount := l } := by
  have kept (l : List Fld) (t : State) : ∃ r, l.foldl (fun (f : State) x => f.wr x (s.rd x)) t = { t with regs := r } := by
    induction l generalizing t with
    | nil => exact ⟨_, rfl⟩
    | cons x xs ih =>
      obtain ⟨r, e⟩ := ih (t.wr x (s.rd x))
      exact ⟨r, e⟩
  unfold State.internalReset
  obtain ⟨r, e⟩ := kept keptFields (s.bare hold)
  rw [e]
  unfold State.keepStuck
  dsimp only
  split
  · exact ⟨_, _, rfl⟩
  · exact ⟨_, _, rfl⟩

/-- A move ends without store, copies and keys, in a reset that holds nothing (R283, R307). -/
theorem State.transition_spec (s : State) (bits : BitVec 5) :
    (s.transition bits).aon = { s.aon with store := KeyStore.empty } ∧ (s.transition bits).nvm.copies = [] ∧
      (s.transition bits).nvm.kuMove = none ∧ (s.transition bits).rd Reg.SYS_RST_CAUSE = 6 ∧
      (s.transition bits).sys.hold = .none ∧ (s.transition bits).key.rawRoot = none ∧
      (s.transition bits).key.pufKey = none := by
  refine ⟨?_, ?_, ?_, s.transition_cause bits, ?_⟩
  all_goals unfold State.transition
  · simp [State.zeroise, State.blowLc, State.eraseCopies]
  · simp [State.eraseCopies]
  · simp [State.eraseCopies, State.blowLc]
  · obtain ⟨r, l, e⟩ := (((({ s with nvm.kuMove := none } : State).blowLc bits).zeroise).eraseCopies).internalReset_bare 6 .none
    dsimp only
    rw [e]
    exact ⟨rfl, rfl, rfl⟩

/-- A move written by a message ends so too (R307). -/
theorem State.applyMove_spec (s : State) (r : ReplyTo) (m : KuMsg) (bits : BitVec 5) :
    (s.applyMove r m bits).aon.store = KeyStore.empty ∧ (s.applyMove r m bits).nvm.copies = [] ∧
      (s.applyMove r m bits).nvm.kuMove = none ∧ (s.applyMove r m bits).rd Reg.SYS_RST_CAUSE = 6 ∧
      (s.applyMove r m bits).sys.hold = .none := by
  unfold State.applyMove
  obtain ⟨aon, copies, move, cause, hold, -⟩ := State.transition_spec
    (({ (s.writeStore (s.nvmKey s.key.lc) { s.aon.store with kuCtr := m.ctr }).advanceKu m.ctr with
        nvm.kuMove := some bits } : State).kuDone r) bits
  exact ⟨by rw [aon], copies, move, cause, hold⟩

theorem State.applyDeploy_spec (s : State) (r : ReplyTo) (m : KuMsg) :
    (s.applyDeploy r m).aon.store.good = true ∧ (s.applyDeploy r m).aon.store.kuCtr = m.ctr ∧
      ∃ c, (s.applyDeploy r m).nvm.copies = [c] ∧ c.store = (s.applyDeploy r m).aon.store ∧ c.key = s.nvmKey 3 := by
  have ⟨ctr, _⟩ := kuStore_spec m KeyStore.empty
  unfold State.applyDeploy
  generalize kuStore m KeyStore.empty = st at ctr
  dsimp only
  generalize erased : State.eraseCopies _ = t
  have last : t.nvm.lastCopy = none := by rw [← erased]; rfl
  simp only [State.internalReset_keeps]
  refine ⟨rfl, ctr, ?_⟩
  unfold State.writeStore
  rw [last]
  exact ⟨_, rfl, rfl, rfl⟩

/-- The counter that a message leaves in OTP (R307). -/
theorem Otp.advanced_eq (a : Otp) (lc : BitVec 3) (ctr : Nat) :
    a.advanced lc ctr = { a with kuCtr := if lc = 1 then a.kuCtr else ctr } := by
  unfold Otp.advanced
  split <;> rfl

/-- Settles O39: the message runs its own effect, whose parts the lemmas above give. -/
theorem keyUpdateEffects : Obligations.KeyUpdateEffects := by
  intro s r m rest front run
  have applied (kind : Byte) (f : State → ReplyTo → KuMsg → State) (same : m.kind = kind)
      (passes : s.kuCheck m (if kind = 1 then KeyStore.empty else s.aon.store) = none) :
      s.kuRun kind f = f { s with key.msgQ := rest } r m := by
    rw [s.kuRun_front f front run same, passes]
  have moved (bits : BitVec 5) : let t := ({ s with key.msgQ := rest } : State).applyMove r m bits
      t.otp = { s.otp with
          kuCtr := if s.key.lc = 1 then s.otp.kuCtr else m.ctr
          lc0 := s.otp.lc0 ||| bits
          lc1 := s.otp.lc1 ||| bits
          lc2 := s.otp.lc2 ||| bits } ∧
        t.aon.store = KeyStore.empty ∧ t.nvm.copies = [] ∧ t.nvm.kuMove = none ∧ t.rd Reg.SYS_RST_CAUSE = 6 ∧
        t.sys.hold = .none := by
    refine ⟨?_, State.applyMove_spec _ r m bits⟩
    rw [State.applyMove_otp, Otp.advanced_eq]
    rfl
  refine ⟨fun same passes => ?_, fun same passes => ?_, fun same passes => ?_, fun same passes => ?_⟩
  · refine ⟨_, congrArg Host.Outcome.next (applied 2 _ same passes), ?_⟩
    obtain ⟨latch, src, ⟨w, store⟩, copy⟩ := State.applyKeys_spec { s with key.msgQ := rest } r m
    have otp := State.applyKeys_otp { s with key.msgQ := rest } r m
    rw [Otp.advanced_eq] at otp
    obtain ⟨ctr, groups, secret, same'⟩ := kuStore_spec m s.aon.store
    refine ⟨latch, src, otp, ?_, ?_, ?_, ?_, ?_, copy⟩ <;> rw [store]
    · exact ctr
    · exact groups
    · exact secret
    · exact same'
  · refine ⟨_, congrArg Host.Outcome.next (applied 1 _ same passes), ?_⟩
    have otp := State.applyDeploy_otp { s with key.msgQ := rest } r m
    rw [Otp.advanced_eq] at otp
    rw [otp]
    exact ⟨rfl, rfl, rfl, rfl, rfl, rfl, rfl, State.applyDeploy_cause _ r m, State.applyDeploy_spec { s with key.msgQ := rest } r m⟩
  · exact ⟨_, congrArg Host.Outcome.next (applied 3 _ same passes), moved 0b01100⟩
  · exact ⟨_, congrArg Host.Outcome.next (applied 4 _ same passes), moved 0b10000⟩

end Sys2Proof.Machine

/-!
PROOF. Tamper events (O40, R310, R312, R314).
-/

namespace Sys2Proof.Machine

@[simp] theorem State.get_wr_place {f g : Fld} (h : g.place ≠ f.place) (s : State) (v c : Nat) :
    g.get (s.wr f v).regs 0 c = g.get s.regs 0 c :=
  Fld.get_put_place h ..

@[simp] theorem State.get_bump_place {f g : Fld} (h : g.place ≠ f.place) (s : State) (c : Nat) :
    g.get (s.bump f).regs 0 c = g.get s.regs 0 c :=
  Fld.get_put_place h ..

/-! ### The key operation under way -/

theorem State.pullItems_key (s : State) (p : TxItem → Bool) :
    (s.pullItems p).key = { s.key with tx := s.key.tx.filter (fun f => !p f) } := by
  unfold State.pullItems
  dsimp only
  rw [foldl_keeps State.key _ _ _ (fun t g => by simp)]
  dsimp only
  rw [foldl_keeps State.key _ _ _ (fun t f => by simp)]

theorem State.undeclare_key (s : State) (f : TxItem) : ∃ l, (s.undeclare f).key = { s.key with tx := l } := by
  unfold State.undeclare
  split
  · exact ⟨_, s.pullItems_key _⟩
  · exact ⟨_, rfl⟩

theorem State.withdrawAck_key (s : State) (id : Nat) : ∃ l, (s.withdrawAck id).key = { s.key with tx := l } := by
  unfold State.withdrawAck
  split
  · exact ⟨_, (State.bump_keeps _ _).2.2.2.2.2.2.2.2.2.2.2.2.2.2.1.trans (State.pullItems_key _ _)⟩
  · exact ⟨_, rfl⟩

theorem State.withdrawAck_get (s : State) (id : Nat) {g : Fld} (h : g.place ≠ Reg.SCH_ACK_WD.place) (c : Nat) :
    g.get (s.withdrawAck id).regs 0 c = g.get s.regs 0 c := by
  unfold State.withdrawAck
  split
  · rw [State.bump_regs, Fld.get_put_place h, (State.pullItems_keeps _ _).1]
  · rfl

theorem State.startDone_get (s : State) (slot : Nat) {g : Fld} (h : g.place ≠ Reg.SYS_BOOT_STAGE.place) (c : Nat) :
    g.get (s.startDone slot).regs 0 c = g.get s.regs 0 c := by
  unfold State.startDone
  dsimp only
  split
  · exact State.get_wr_place h ..
  · split
    · exact State.get_wr_place h ..
    · rfl

/-- A frame that is not sent touches no field off the wheel's pages, save the boot stage and, at the addresses of their
array, the counts of missed blocks. -/
theorem State.notSent_get (s : State) (f : TxItem) (synth : Bool) {g : Fld} (h : g.offWheel = true)
    (stage : g.place ≠ Reg.SYS_BOOT_STAGE.place) (array : g.addr % 16 ≠ 14) (bits : g.lsb < 256) :
    g.get (s.notSent f synth).regs 0 0 = g.get s.regs 0 0 := by
  have page : g.page ≠ 8 := by
    simp only [Fld.offWheel, Bool.and_eq_true, decide_eq_true_eq] at h
    exact h.1
  unfold State.notSent
  split
  · split
    · exact State.tryEnd_get h ..
    · rfl
  · have missed (t : State) : g.get ((t.bump Reg.SCH_BCN_MISS).ev Reg.SCH_SCH_EVT 3 80).regs 0 0 = g.get t.regs 0 0 :=
      (State.get_ev_page (f := Reg.SCH_SCH_EVT) page ..).trans (Fld.get_put_page (f := Reg.SCH_BCN_MISS) page ..)
    dsimp only
    split
    · exact (State.startDone_get _ _ stage 0).trans (missed _)
    · exact missed _
  · have apart : g.key 0 0 ≠ Reg.SCH_MC_MISSED.key f.idx 0 := by
      simp only [Fld.key, Reg.SCH_MC_MISSED]
      omega
    dsimp only
    rw [State.bumpI_regs, Fld.get_put_of_ne apart]
    rfl
  · rfl

theorem State.dropMbx_get (s : State) (r : ReplyTo) {g : Fld} (h : g.place ≠ Reg.HST_MBX_STAT.place) (c : Nat) :
    g.get (s.dropMbx r).regs 0 c = g.get s.regs 0 c := by
  unfold State.dropMbx
  split
  · exact State.get_wr_place h s 3 c
  · rfl

/-- The abort of the key operation leaves SCRAP_ON_TAMPER (R310). -/
theorem State.abortKeyOp_scrap (s : State) :
    s.abortKeyOp.on Reg.KEY_SCRAP_ON_TAMPER = s.on Reg.KEY_SCRAP_ON_TAMPER := by
  simp only [State.on_get]
  congr 2
  unfold State.abortKeyOp
  split
  · rw [State.notSent_get _ _ _ (by decide) (by decide) (by decide) (by decide), (State.undeclare_keeps _ _).1]
  · split
    · exact (State.withdrawAck_get _ _ (by decide) 0).trans
        (State.get_bump_place (f := Reg.KEY_AUTH_NOKEY) (by decide) ..)
    · split
      · exact (State.dropMbx_get _ _ (by decide) 0).trans (State.get_wr_place (f := Reg.KEY_KU_STAT) (by decide) s 0 0)
      · rfl

/-- The abort of the key operation leaves the signature under way. -/
theorem State.abortKeyOp_attest (s : State) : s.abortKeyOp.key.attest = s.key.attest := by
  unfold State.abortKeyOp
  split
  · rename_i f rest _
    obtain ⟨l, e⟩ := State.undeclare_key { s with key.tx := rest } f
    simp only [State.notSent_keeps]
    rw [e]
  · split
    · rename_i u rest _
      obtain ⟨l, e⟩ := State.withdrawAck_key (State.bump { s with key.ul := rest } Reg.KEY_AUTH_NOKEY) u.id
      unfold State.authFail
      rw [e]
      rfl
    · split
      · simp
      · rfl

/-- An uplink under way is lost and counted as one without a key (R310). -/
theorem State.abortKeyOp_uplink (s : State) {u : UlItem} {l : List UlItem} (tx : s.key.tx = []) (ul : s.key.ul = u :: l) :
    s.abortKeyOp.key.ul = l ∧
      s.abortKeyOp.rd Reg.KEY_AUTH_NOKEY = (s.bump Reg.KEY_AUTH_NOKEY).rd Reg.KEY_AUTH_NOKEY := by
  unfold State.abortKeyOp
  rw [tx, ul]
  unfold State.authFail
  obtain ⟨k, e⟩ := State.withdrawAck_key (State.bump { s with key.ul := l } Reg.KEY_AUTH_NOKEY) u.id
  exact ⟨by rw [e]; rfl, State.withdrawAck_get _ _ (by decide) 0⟩

/-- A message under way is gone (R310). -/
theorem State.abortKeyOp_message (s : State) {p : ReplyTo × KuMsg} {l : List (ReplyTo × KuMsg)} (tx : s.key.tx = [])
    (ul : s.key.ul = []) (msg : s.key.msgQ = p :: l) :
    s.abortKeyOp.key.msgQ = l ∧ s.abortKeyOp.rd Reg.KEY_KU_STAT = 0 := by
  unfold State.abortKeyOp
  rw [tx, ul, msg]
  refine ⟨by simp, (State.dropMbx_get _ _ (by decide) 0).trans ?_⟩
  exact State.rd_wr_same s Reg.KEY_KU_STAT 0

/-- A signature under way is abandoned, and nothing else of KEY changes (R310). -/
theorem State.abandonSign_key (s : State) : s.abandonSign.key = { s.key with attest := none } := by
  unfold State.abandonSign
  split
  · simp
  · rename_i idle
    rw [← idle]

theorem State.abandonSign_get (s : State) {g : Fld} (h : g.offReplies = true) (event : g.place ≠ Reg.KEY_ATT_EVT.place)
    (stat : g.place ≠ Reg.KEY_ATT_STAT.place) (reason : g.place ≠ Reg.KEY_ATT_REASON.place)
    (refused : g.place ≠ Reg.KEY_ATT_REFUSED.place) (c : Nat) :
    g.get s.abandonSign.regs 0 c = g.get s.regs 0 c := by
  unfold State.abandonSign
  split
  · unfold State.attFail
    exact (State.respond_get h ..).trans ((State.get_bump_place refused ..).trans ((State.get_wr_place reason ..).trans
      ((State.get_wr_place stat ..).trans (State.get_ev_place event ..))))
  · rfl

/-! ### The event -/

/-- The state once a running device has latched an event and dropped the key operation under way (R310). -/
def State.tamperDrop (s : State) (m : BitVec 6) (kop : Bool) : State :=
  let t := s.latchTamper m 3 (kop || s.key.attest.isSome)
  (if kop then t.abortKeyOp else t).abandonSign

/-- The state once its keys are gone too (R312). -/
def State.tamperDestroy (s : State) (m : BitVec 6) (kop : Bool) : State :=
  ((s.tamperDrop m kop).zeroise.eraseCopies.wr Reg.KEY_KSTATE 3).ev Reg.KEY_KEY_EVT 0 112

theorem mask_all {s : State} (m : BitVec 6) (hold : s.sys.hold = .none) :
    m &&& (if s.sys.hold = .porst then 3 else 0x3F) = m := by
  rw [if_neg (by rw [hold]; decide)]
  exact BitVec.and_allOnes

theorem exec_tamperEvent_running (s : State) (src : BitVec 6) (kop : Bool) (hold : s.sys.hold = .none)
    (halted : s.halted = false) (stage : 7 ≤ s.rd Reg.SYS_BOOT_STAGE)
    (some' : src &&& BitVec.ofNat 6 (s.rd Reg.KEY_TAMPER_EN) ≠ 0) :
    exec (.tamperEvent src kop) s = .next
      (let t := s.tamperDestroy (src &&& BitVec.ofNat 6 (s.rd Reg.KEY_TAMPER_EN)) kop
       if t.on Reg.KEY_SCRAP_ON_TAMPER then t.transition 0b10000 else t) := by
  have up : s.up = true := decide_eq_true hold
  simp only [exec, execTamperEvent]
  rw [mask_all _ hold, if_neg some', if_neg (by rw [up]; decide), if_neg (by rw [halted]; decide), if_neg (by omega)]
  rfl


theorem State.tamperDrop_spec (s : State) (m : BitVec 6) (kop : Bool) :
    (s.tamperDrop m kop).aon = (s.latchTamper m 3 (kop || s.key.attest.isSome)).aon ∧
      (s.tamperDrop m kop).otp = s.otp ∧ (s.tamperDrop m kop).key.attest = none := by
  unfold State.tamperDrop
  split
  · exact ⟨by simp, by simp [State.latchTamper], by rw [State.abandonSign_key]⟩
  · exact ⟨by simp, by simp [State.latchTamper], by rw [State.abandonSign_key]⟩

theorem State.tamperDrop_scrap (s : State) (m : BitVec 6) (kop : Bool) :
    (s.tamperDrop m kop).on Reg.KEY_SCRAP_ON_TAMPER = s.on Reg.KEY_SCRAP_ON_TAMPER := by
  have sign (t : State) : t.abandonSign.on Reg.KEY_SCRAP_ON_TAMPER = t.on Reg.KEY_SCRAP_ON_TAMPER := by
    simp only [State.on_get]
    rw [t.abandonSign_get (by decide) (by decide) (by decide) (by decide) (by decide)]
  unfold State.tamperDrop
  rw [sign]
  split
  · exact State.abortKeyOp_scrap _
  · rfl

theorem State.zeroise_get (s : State) {g : Fld} (h : g.place ≠ Reg.KEY_ZERO_OK.place) (c : Nat) :
    g.get s.zeroise.regs 0 c = g.get s.regs 0 c :=
  State.get_wr_place h s (b2n (KeyStore.empty = KeyStore.empty)) c

/-- What a tamper event destroys in a running device (R310, R312). -/
theorem State.tamperDestroy_spec (s : State) (m : BitVec 6) (kop : Bool) :
    (s.tamperDestroy m kop).aon =
        { (s.latchTamper m 3 (kop || s.key.attest.isSome)).aon with store := KeyStore.empty } ∧
      (s.tamperDestroy m kop).otp = s.otp ∧ (s.tamperDestroy m kop).key.attest = none ∧
      (s.tamperDestroy m kop).key.rawRoot = none ∧ (s.tamperDestroy m kop).key.pufKey = none ∧
      (s.tamperDestroy m kop).nvm.copies = [] ∧ (s.tamperDestroy m kop).rd Reg.KEY_KSTATE = 3 ∧
      ((s.tamperDestroy m kop).rd Reg.KEY_KEY_EVT).testBit 0 = true ∧
      (s.tamperDestroy m kop).on Reg.KEY_SCRAP_ON_TAMPER = s.on Reg.KEY_SCRAP_ON_TAMPER := by
  obtain ⟨aon, otp, attest⟩ := s.tamperDrop_spec m kop
  have scrap := s.tamperDrop_scrap m kop
  unfold State.tamperDestroy
  generalize s.tamperDrop m kop = t at aon otp attest scrap
  have parts : (t.zeroise.eraseCopies.wr Reg.KEY_KSTATE 3).key = t.zeroise.key ∧
      (t.zeroise.eraseCopies.wr Reg.KEY_KSTATE 3).aon = t.zeroise.aon ∧
      (t.zeroise.eraseCopies.wr Reg.KEY_KSTATE 3).otp = t.otp ∧
      (t.zeroise.eraseCopies.wr Reg.KEY_KSTATE 3).nvm.copies = [] := ⟨rfl, rfl, rfl, rfl⟩
  have stat := State.rd_wr_same t.zeroise.eraseCopies Reg.KEY_KSTATE 3
  have kept : (t.zeroise.eraseCopies.wr Reg.KEY_KSTATE 3).on Reg.KEY_SCRAP_ON_TAMPER = t.on Reg.KEY_SCRAP_ON_TAMPER := by
    simp only [State.on_get]
    rw [State.get_wr_place (by decide), show t.zeroise.eraseCopies.regs = t.zeroise.regs from rfl, t.zeroise_get (by decide)]
  generalize t.zeroise.eraseCopies.wr Reg.KEY_KSTATE 3 = u at parts stat kept
  obtain ⟨key, aon', otp', copies⟩ := parts
  have evKey : (u.ev Reg.KEY_KEY_EVT 0 112).key = t.zeroise.key := by simp [key]
  have evAon : (u.ev Reg.KEY_KEY_EVT 0 112).aon = t.zeroise.aon := by simp [aon']
  refine ⟨?_, by simp [otp', otp], ?_, ?_, ?_, by simp [copies], ?_, State.ev_testBit u 112 (by decide), ?_⟩
  · rw [evAon, ← aon]; rfl
  · rw [evKey, ← attest]; rfl
  · rw [evKey]; rfl
  · rw [evKey]; rfl
  · exact (State.get_ev_place (f := Reg.KEY_KEY_EVT) (by decide) ..).trans stat
  · rw [← scrap, ← kept]
    simp only [State.on_get]
    rw [State.get_ev_place (by decide)]

/-- What the abort of the key operation left stays so while the keys go. -/
theorem State.tamperDestroy_abort (s : State) (m : BitVec 6) :
    let t := (s.latchTamper m 3 true).abortKeyOp
    (s.tamperDestroy m true).key.ul = t.key.ul ∧ (s.tamperDestroy m true).key.msgQ = t.key.msgQ ∧
      (s.tamperDestroy m true).rd Reg.KEY_AUTH_NOKEY = t.rd Reg.KEY_AUTH_NOKEY ∧
      (s.tamperDestroy m true).rd Reg.KEY_KU_STAT = t.rd Reg.KEY_KU_STAT := by
  have e : s.tamperDestroy m true = (((s.latchTamper m 3 true).abortKeyOp.abandonSign.zeroise.eraseCopies.wr
      Reg.KEY_KSTATE 3).ev Reg.KEY_KEY_EVT 0 112) := rfl
  dsimp only
  rw [e]
  generalize (s.latchTamper m 3 true).abortKeyOp = t
  have kept {g : Fld} (event : g.place ≠ Reg.KEY_KEY_EVT.place) (kstate : g.place ≠ Reg.KEY_KSTATE.place)
      (zero : g.place ≠ Reg.KEY_ZERO_OK.place)
      (sign : g.get t.abandonSign.regs 0 0 = g.get t.regs 0 0) :
      g.get ((t.abandonSign.zeroise.eraseCopies.wr Reg.KEY_KSTATE 3).ev Reg.KEY_KEY_EVT 0 112).regs 0 0 = g.get t.regs 0 0 :=
    (State.get_ev_place event ..).trans ((State.get_wr_place kstate ..).trans
      ((State.zeroise_get t.abandonSign zero 0).trans sign))
  have key : ((t.abandonSign.zeroise.eraseCopies.wr Reg.KEY_KSTATE 3).ev Reg.KEY_KEY_EVT 0 112).key =
      t.abandonSign.zeroise.key := by simp [State.eraseCopies]
  refine ⟨?_, ?_, ?_, ?_⟩
  · rw [key, ← (congrArg KeySt.ul t.abandonSign_key)]; rfl
  · rw [key, ← (congrArg KeySt.msgQ t.abandonSign_key)]; rfl
  · exact kept (by decide) (by decide) (by decide)
      (t.abandonSign_get (by decide) (by decide) (by decide) (by decide) (by decide) 0)
  · exact kept (by decide) (by decide) (by decide)
      (t.abandonSign_get (by decide) (by decide) (by decide) (by decide) (by decide) 0)

/-- What an event destroys is gone too once SCRAP has been blown (R312). -/
theorem State.tamperScrap_spec (s : State) (m : BitVec 6) (kop : Bool) :
    ((s.tamperDestroy m kop).transition 0b10000).aon = (s.tamperDestroy m kop).aon ∧
      ((s.tamperDestroy m kop).transition 0b10000).otp = s.otp.blown 0b10000 := by
  obtain ⟨aon, otp, -⟩ := s.tamperDestroy_spec m kop
  constructor
  · rw [(State.transition_spec _ _).1, aon]
  · rw [State.transition_otp, otp]

theorem tamper_count (s : State) (m : BitVec 6) (w : BitVec 2) (kop : Bool) :
    (s.latchTamper m w kop).aon.cnt.toNat = min 255 (s.aon.cnt.toNat + 1) := by
  show (BitVec.ofNat 8 (min 255 (s.aon.cnt.toNat + 1))).toNat = _
  rw [BitVec.toNat_ofNat]
  omega

/-- The state of a halted device after an event (R314). -/
def State.tamperHalted (s : State) (m : BitVec 6) (kop : Bool) : State :=
  (s.latchTamper m 1 kop).zeroise.ev Reg.KEY_KEY_EVT 0 112

theorem State.tamperHalted_spec (s : State) (m : BitVec 6) (kop : Bool) :
    (s.tamperHalted m kop).aon = { (s.latchTamper m 1 kop).aon with store := KeyStore.empty } ∧
      (s.tamperHalted m kop).key.rawRoot = none ∧ (s.tamperHalted m kop).nvm = s.nvm ∧
      (s.tamperHalted m kop).rd Reg.SYS_BOOT_STAGE = s.rd Reg.SYS_BOOT_STAGE := by
  unfold State.tamperHalted
  refine ⟨by simp [State.zeroise], by simp [State.zeroise], by simp [State.latchTamper], ?_⟩
  exact (State.get_ev_place (f := Reg.KEY_KEY_EVT) (by decide) ..).trans (State.zeroise_get _ (by decide) 0)

theorem exec_tamperEvent_halted (s : State) (src : BitVec 6) (kop : Bool) (hold : s.sys.hold = .none)
    (halted : s.halted = true) (some' : src &&& BitVec.ofNat 6 (s.rd Reg.KEY_TAMPER_EN) ≠ 0) :
    exec (.tamperEvent src kop) s =
      .next (s.tamperHalted (src &&& BitVec.ofNat 6 (s.rd Reg.KEY_TAMPER_EN)) false) := by
  have up : s.up = true := decide_eq_true hold
  simp only [exec, execTamperEvent]
  rw [mask_all _ hold, if_neg some', if_neg (by rw [up]; decide), if_pos halted]
  rfl

theorem exec_tamperEvent_boot (s : State) (src : BitVec 6) (kop : Bool) (hold : s.sys.hold = .none)
    (halted : s.halted = false) (stage : s.rd Reg.SYS_BOOT_STAGE < 7)
    (some' : src &&& BitVec.ofNat 6 (s.rd Reg.KEY_TAMPER_EN) ≠ 0) :
    exec (.tamperEvent src kop) s = .next
      (let t := s.tamperHalted (src &&& BitVec.ofNat 6 (s.rd Reg.KEY_TAMPER_EN)) kop
       (if 4 ≤ s.rd Reg.SYS_BOOT_STAGE then t.eraseCopies else t).halt 9) := by
  have up : s.up = true := decide_eq_true hold
  simp only [exec, execTamperEvent]
  rw [mask_all _ hold, if_neg some', if_neg (by rw [up]; decide), if_neg (by rw [halted]; decide), if_pos stage]
  rfl

theorem State.halt_reads (s : State) (err : Nat) :
    (s.halt err).rd Reg.SYS_BOOT_STAGE = 0xF ∧ (s.halt err).rd Reg.SYS_BOOT_ERR = err % 16 :=
  ⟨(State.get_wr_place (by decide) ..).trans (State.rd_wr_same s Reg.SYS_BOOT_STAGE 0xF),
    State.rd_wr_same (s.wr Reg.SYS_BOOT_STAGE 0xF) Reg.SYS_BOOT_ERR err⟩

/-- Settles O40: by the stage at which the event comes; in a running device by what it destroys, then by SCRAP_ON_TAMPER. -/
theorem tamperDestroys : Obligations.TamperDestroys := by
  intro s src kop m
  refine ⟨fun hold halted stage some' => ?_, fun hold halted stage some' => ⟨fun keep => ?_, fun scrap => ?_⟩,
    fun hold halted stage some' => ?_, fun hold halted some' => ?_, fun hold some' => ?_⟩
  · refine ⟨_, exec_tamperEvent_running s src kop hold halted stage some', ?_⟩
    have count := tamper_count s m 3 (kop || s.key.attest.isSome)
    obtain ⟨aon, otp, attest, raw, puf, copies, -, -, -⟩ := s.tamperDestroy_spec m kop
    have scrapped := (s.tamperScrap_spec m kop).1
    obtain ⟨-, noCopies, -, -, -, noRaw, noPuf⟩ := (s.tamperDestroy m kop).transition_spec 0b10000
    dsimp only
    split
    · rw [scrapped, aon]
      exact ⟨rfl, rfl, count, rfl, rfl, rfl, noRaw, noPuf, noCopies⟩
    · rw [aon]
      exact ⟨rfl, rfl, count, rfl, rfl, rfl, raw, puf, copies⟩
  · have ex := exec_tamperEvent_running s src kop hold halted stage some'
    obtain ⟨-, otp, attest, -, -, -, stat, event, same⟩ := s.tamperDestroy_spec m kop
    have off : ¬(s.tamperDestroy m kop).on Reg.KEY_SCRAP_ON_TAMPER = true := by rw [same, keep]; decide
    refine ⟨_, ex.trans (congrArg Host.Outcome.next (if_neg off)), stat, event, otp, attest, ?_, ?_⟩
    · intro u l under tx ul
      subst under
      obtain ⟨queue, -, count, -⟩ := s.tamperDestroy_abort m
      obtain ⟨left, counted⟩ := (s.latchTamper m 3 true).abortKeyOp_uplink (l := l) tx ul
      exact ⟨queue.trans left, count.trans counted⟩
    · intro p l under tx ul msg
      subst under
      obtain ⟨-, queue, -, stat⟩ := s.tamperDestroy_abort m
      obtain ⟨left, zero⟩ := (s.latchTamper m 3 true).abortKeyOp_message (l := l) tx ul msg
      exact ⟨queue.trans left, stat.trans zero⟩
  · have ex := exec_tamperEvent_running s src kop hold halted stage some'
    obtain ⟨-, -, -, -, -, -, -, -, same⟩ := s.tamperDestroy_spec m kop
    refine ⟨_, ex.trans (congrArg Host.Outcome.next (if_pos (same.trans scrap))), ?_, State.transition_cause _ _⟩
    rw [(s.tamperScrap_spec m kop).2]
    rfl
  · refine ⟨_, exec_tamperEvent_boot s src kop hold halted stage some', ?_⟩
    obtain ⟨aon, -, nvm, -⟩ := s.tamperHalted_spec m kop
    dsimp only
    split
    · rename_i four
      obtain ⟨halt, err⟩ := (s.tamperHalted m kop).eraseCopies.halt_reads 9
      have kept : ((s.tamperHalted m kop).eraseCopies.halt 9).aon = (s.tamperHalted m kop).aon := rfl
      rw [kept, aon]
      exact ⟨rfl, rfl, rfl, halt, err, fun _ => rfl, fun below => absurd four (by omega)⟩
    · rename_i below
      obtain ⟨halt, err⟩ := (s.tamperHalted m kop).halt_reads 9
      have kept : ((s.tamperHalted m kop).halt 9).aon = (s.tamperHalted m kop).aon := rfl
      rw [kept, aon]
      exact ⟨rfl, rfl, rfl, halt, err, fun four => absurd four below, fun _ => nvm⟩
  · obtain ⟨aon, raw, nvm, stage⟩ := s.tamperHalted_spec m false
    refine ⟨_, exec_tamperEvent_halted s src kop hold halted some', by rw [aon]; rfl, by rw [aon]; rfl, by rw [aon], raw, nvm, stage⟩
  · have up : s.up = false := decide_eq_false hold
    simp only [exec, execTamperEvent]
    exact (if_neg some').trans (if_pos (by rw [up]; rfl))

end Sys2Proof.Machine

/-!
PROOF. What an event and a reply leave of SYS's state; update sessions (O41, R322 to R329).
-/

namespace Sys2Proof.Machine

/-! ### SYS's state but for the numbers of its channels -/

/-- SYS's state with the numbers of the channels' items left out: those move with every event (R15). -/
def unnumbered (x : SysSt) : SysSt := { x with localSeq := [] }

@[simp] theorem State.event_sys (s : State) (src : Nat) : unnumbered (s.event src).sys = unnumbered s.sys := rfl

@[simp] theorem State.ev_sys (s : State) (f : Fld) (b base : Nat) : unnumbered (s.ev f b base).sys = unnumbered s.sys := by
  unfold State.ev
  split <;> rfl

@[simp] theorem State.correctCells_sys (s : State) (l : List Nat) : unnumbered (s.correctCells l).sys = unnumbered s.sys := by
  unfold State.correctCells
  exact foldl_keeps (fun (t : State) => unnumbered t.sys) _ _ _ (fun t p => by simp)

@[simp] theorem State.linkSys_sys (s : State) (q : Nat) (hdr : Option Hdr) (b : List Byte) (n : ItemNote) :
    unnumbered (s.linkSys q hdr b n).sys = unnumbered s.sys := by
  unfold State.linkSys
  dsimp only
  (repeat' split) <;> simp

@[simp] theorem State.takeItem_sys (s : State) (q : Nat) (hdr : Option Hdr) (b : List Byte) (n : ItemNote) :
    unnumbered (s.takeItem q hdr b n).sys = unnumbered s.sys := by
  unfold State.takeItem
  dsimp only
  (repeat' split) <;> simp

@[simp] theorem State.deviceItem_sys (s : State) (q : Nat) (hdr : Option Hdr) (b : List Byte) (n : ItemNote) :
    unnumbered (s.deviceItem q hdr b n).sys = unnumbered s.sys := by
  unfold State.deviceItem
  split <;> simp

@[simp] theorem State.record_sys (s : State) (q : Nat) (b : List Byte) : unnumbered (s.record q b).sys = unnumbered s.sys :=
  s.deviceItem_sys ..

@[simp] theorem State.releaseSys_sys (s : State) (q : Nat) : unnumbered (s.releaseSys q).sys = unnumbered s.sys :=
  State.correctCells_sys ..

@[simp] theorem State.flushRsp_sys (s : State) : unnumbered s.flushRsp.sys = unnumbered s.sys := by
  unfold State.flushRsp
  split
  · exact foldl_keeps (fun (t : State) => unnumbered t.sys) _ _ _ (fun t it => by simp)
  · rfl

@[simp] theorem State.mbxReply_sys (s : State) (b : List Byte) : unnumbered (s.mbxReply b).sys = unnumbered s.sys := by
  unfold State.mbxReply
  split
  · simp [State.emit]
  · rfl

@[simp] theorem State.mgtReply_sys (s : State) (r : ReplyTo) (type : Byte) (b : List Byte) :
    unnumbered (s.mgtReply r type b).sys = unnumbered s.sys := by
  simp [State.mgtReply]

@[simp] theorem State.respond_sys (s : State) (r : ReplyTo) (b : List Byte) : unnumbered (s.respond r b).sys = unnumbered s.sys := by
  unfold State.respond
  dsimp only
  (repeat' split) <;> simp

/-- What two states of SYS that differ in numbers alone share. -/
theorem sys_of_unnumbered {x y : SysSt} (h : unnumbered x = unnumbered y) :
    ∃ l, x = { y with localSeq := l } := by
  refine ⟨x.localSeq, ?_⟩
  cases x
  cases y
  simpa [unnumbered] using h

/-! ### Answers -/

/-- The open session after an answer to `r`: the owner's idle count starts again (R326). -/
def answered (r : ReplyTo) (now : Nat) (x : Sess) : Sess := if r.src = x.src then { x with answered := now } else x

theorem answered_spec (r : ReplyTo) (now : Nat) (x : Sess) :
    (answered r now x).src = x.src ∧ (answered r now x).num = x.num ∧ (answered r now x).kind = x.kind ∧
      (answered r now x).len = x.len ∧ (answered r now x).next = x.next ∧ (answered r now x).lastCrc = x.lastCrc := by
  unfold answered
  split <;> exact ⟨rfl, rfl, rfl, rfl, rfl, rfl⟩

/-- An answer changes the idle count of the open session alone (R326). -/
theorem State.answer_sys (s : State) (r : ReplyTo) (rec : SessRec) (status reason owner : Byte) (value : Nat) :
    unnumbered (s.answer r rec status reason owner value).sys =
      unnumbered { s.sys with sess := s.sys.sess.map (answered r s.sys.uptime) } := by
  have emitted (p : Bool) (t : State) : (if p then t.emit (.relay rec) else t).sys = t.sys := by split <;> rfl
  have reason' : (if status = stREFUSED || status = stABORTED then s.wr Reg.SYS_UPD_REASON reason.toNat else s).sys = s.sys := by
    split <;> rfl
  unfold State.answer
  dsimp only
  rw [State.respond_sys, ← reason']
  generalize (if (decide (status = stREFUSED) || decide (status = stABORTED)) = true then
    s.wr Reg.SYS_UPD_REASON reason.toNat else s) = t
  rw [emitted]
  cases sess : t.sys.sess with
  | none =>
    dsimp only [Option.map_none]
    rw [← sess]
  | some x =>
    dsimp only [Option.map_some, answered]
    split
    · rfl
    · rw [← sess]

theorem State.answer_nvm (s : State) (r : ReplyTo) (rec : SessRec) (status reason owner : Byte) (value : Nat) :
    (s.answer r rec status reason owner value).nvm = s.nvm := by simp

/-- A record alone in SYS's queue runs by itself (R328). -/
theorem State.sessRun_alone (s : State) {op : Byte} (f : State → ReplyTo → SessRec → State) {r : ReplyTo} {rec : SessRec}
    (front : s.sys.sessQ = [(r, rec)]) (same : rec.op = op) :
    s.sessRun op f = f { s with sys.sessQ := [] } r rec := by
  unfold State.sessRun
  rw [front]
  exact if_pos same

/-! ### OPEN -/

/-- The device once an OPEN has opened its session, unanswered (R323). -/
def State.opened (s : State) (r : ReplyTo) (rec : SessRec) : State :=
  let x : Sess :=
    { src := r.src, num := s.sys.sessNo, kind := rec.kind.toNat, len := rec.value.toNat, next := 0, lastCrc := 0
      answered := s.sys.uptime }
  let t := { s.openHeader with sys.sess := some x, sys.sessNo := (s.sys.sessNo + 1) % 4096 }
  (((t.wr Reg.SYS_STG_KIND rec.kind.toNat).wr Reg.SYS_UPD_OWNER (srcCode r.src)).wr Reg.SYS_UPD_SESSION s.sys.sessNo).wr
    Reg.SYS_UPD_NEXT 0

theorem State.sessOpen_opens (s : State) (r : ReplyTo) (rec : SessRec) (none' : s.sys.sess = none) (live : s.live = true)
    (may : s.rd Reg.SYS_BOOT_STAGE ≠ 0xE ∨ r.src = .mailbox) (kind : rec.kind.toNat = 1 ∨ rec.kind.toNat = 2)
    (len : lenOk rec.kind.toNat rec.value.toNat = true) :
    s.sessOpen r rec = (s.opened r rec).answer r rec stCOMPLETED 0 0 0 := by
  have open' : ¬(!s.live || decide (s.rd Reg.SYS_BOOT_STAGE = 0xE) && decide (r.src ≠ .mailbox)) = true := by
    rw [live]
    simp only [Bool.not_true, Bool.false_or, Bool.and_eq_true, decide_eq_true_eq]
    tauto
  have legal : ¬(!(decide (rec.kind.toNat = 1) || decide (rec.kind.toNat = 2)) || !lenOk rec.kind.toNat rec.value.toNat) = true := by
    rw [len]
    simp only [Bool.not_true, Bool.or_false, Bool.not_eq_true', Bool.or_eq_false_iff, decide_eq_false_iff_not]
    tauto
  unfold State.sessOpen
  rw [none']
  exact (if_neg open').trans (if_neg legal)

/-- The header of an OPEN reads OPEN (R68, R323). -/
theorem State.openHeader_stg (s : State) : s.openHeader.stgByte = 0x7F := by
  unfold State.openHeader
  dsimp only
  split
  · rename_i empty
    have blank : nvmRead s.nvm.bytes 0x100 = 0xFF := BitVec.eq_of_toNat_eq empty
    show (nvmRead (nvmProg s.nvm.bytes 0x100 0x7F) 0x100).toNat = 0x7F
    rw [nvmRead_prog_same, blank]
    rfl
  · show (nvmRead (nvmProg (nvmProgs (nvmErase s.nvm.bytes 0 0x10000) 0 [0x4F, 0x56, 0x48, 0x58, 0x01]) 0x100 0x7F) 0x100).toNat = 0x7F
    simp only [nvmProgs]
    rw [nvmRead_prog_same, nvmRead_prog_other _ _ _ _ (by decide), nvmRead_prog_other _ _ _ _ (by decide),
      nvmRead_prog_other _ _ _ _ (by decide), nvmRead_prog_other _ _ _ _ (by decide), nvmRead_prog_other _ _ _ _ (by decide),
      nvmRead_erase_in _ _ _ _ (by decide) (by decide)]
    rfl

/-- An OPEN that nothing refuses opens its session at block 0 under the next number (R323). -/
theorem State.opened_answer (s : State) (r : ReplyTo) (rec : SessRec) :
    let t := (s.opened r rec).answer r rec stCOMPLETED 0 0 0
    t.sys.sessQ = s.sys.sessQ ∧ t.stgByte = 0x7F ∧ t.sys.sessNo = (s.sys.sessNo + 1) % 4096 ∧
      ∃ x, t.sys.sess = some x ∧ x.src = r.src ∧ x.num = s.sys.sessNo ∧ x.kind = rec.kind.toNat ∧
        x.len = rec.value.toNat ∧ x.next = 0 := by
  obtain ⟨l, sys⟩ := sys_of_unnumbered ((s.opened r rec).answer_sys r rec stCOMPLETED 0 0 0)
  have header : (s.opened r rec).sys.sessQ = s.sys.sessQ := by simp [State.opened]
  obtain ⟨src, num, kind, len, next, -⟩ := answered_spec r (s.opened r rec).sys.uptime
    { src := r.src, num := s.sys.sessNo, kind := rec.kind.toNat, len := rec.value.toNat, next := 0, lastCrc := 0
      answered := s.sys.uptime }
  dsimp only
  rw [sys, State.stgByte, State.answer_nvm]
  exact ⟨header, s.openHeader_stg, rfl, _, rfl, src, num, kind, len, next⟩

/-! ### The end of a session -/

/-- The end of a session (R326). -/
theorem State.endSess_spec (s : State) (x : Sess) (completed : Bool) :
    unnumbered (s.endSess x completed).sys =
        unnumbered { s.sys with sess := none, sessPast := some (x.num, completed) } ∧
      (s.endSess x completed).rd Reg.SYS_UPD_LAST = (if completed then 1 else 2) ∧
      (s.endSess x completed).rd Reg.SYS_UPD_OWNER = 0 ∧ ((s.endSess x completed).rd Reg.SYS_UPD_EVT).testBit 0 = true := by
  unfold State.endSess
  dsimp only
  have last := State.rd_wr_same s Reg.SYS_UPD_LAST (if completed then 1 else 2)
  have fits : (if completed then 1 else 2) % 2 ^ Reg.SYS_UPD_LAST.width = (if completed then 1 else 2) := by
    cases completed <;> rfl
  have others : ((s.wr Reg.SYS_UPD_LAST (if completed then 1 else 2)).wr Reg.SYS_UPD_LAST_SRC (srcCode x.src)).sys = s.sys := rfl
  have lastKept := (State.get_wr_place (f := Reg.SYS_UPD_LAST_SRC) (g := Reg.SYS_UPD_LAST) (by decide)
    (s.wr Reg.SYS_UPD_LAST (if completed then 1 else 2)) (srcCode x.src) 0).trans (last.trans fits)
  generalize (s.wr Reg.SYS_UPD_LAST (if completed then 1 else 2)).wr Reg.SYS_UPD_LAST_SRC (srcCode x.src) = t at others lastKept
  have owner := State.rd_wr_same t Reg.SYS_UPD_OWNER 0
  have ownerSys : (t.wr Reg.SYS_UPD_OWNER 0).sys = s.sys := others
  have lastKept' := (State.get_wr_place (f := Reg.SYS_UPD_OWNER) (g := Reg.SYS_UPD_LAST) (by decide) t 0 0).trans lastKept
  generalize t.wr Reg.SYS_UPD_OWNER 0 = u at owner ownerSys lastKept'
  obtain ⟨l, sys⟩ := sys_of_unnumbered (u.ev_sys Reg.SYS_UPD_EVT 0 18)
  refine ⟨?_, ?_, ?_, u.ev_testBit 18 (by decide)⟩
  · rw [sys, ownerSys]; rfl
  · exact (State.get_ev_place (f := Reg.SYS_UPD_EVT) (by decide) u 0 18 0).trans lastKept'
  · exact (State.get_ev_place (f := Reg.SYS_UPD_EVT) (by decide) u 0 18 0).trans owner

theorem State.endSess_sess (s : State) (x : Sess) (completed : Bool) :
    (s.endSess x completed).sys.sess = none ∧ (s.endSess x completed).sys.sessPast = some (x.num, completed) := ⟨rfl, rfl⟩

/-- A session that is over stays so in the answer. -/
theorem State.answer_over (s : State) (r : ReplyTo) (rec : SessRec) (status reason owner : Byte) (value : Nat)
    (over' : s.sys.sess = none) :
    (s.answer r rec status reason owner value).sys.sess = none ∧
      (s.answer r rec status reason owner value).sys.sessPast = s.sys.sessPast ∧
      (s.answer r rec status reason owner value).sys.commitAt = s.sys.commitAt := by
  obtain ⟨l, sys⟩ := sys_of_unnumbered (s.answer_sys r rec status reason owner value)
  rw [sys]
  exact ⟨by rw [over']; rfl, rfl, rfl⟩

/-! ### DATA, COMMIT -/

/-- The NVM with the sector of a block erased where the block begins one (R83, R324). -/
def State.sectorReady (s : State) (b : Nat) : List Host.Cell :=
  if b % 16 = 0 then nvmErase s.nvm.bytes (stagingBase + 4096 * b) 0x10000 else s.nvm.bytes

/-- DATA of the next block, sound in number, length and checksum, is programmed (R324). -/
theorem State.sessData_next (s : State) (ok : Bool) (r : ReplyTo) (rec : SessRec) (x : Sess) (acts : s.sessFor r rec = .ok x)
    (next : rec.block = x.next) (inside : 4096 * x.next < x.len) (blen : rec.blen = min 4096 (x.len - 4096 * x.next))
    (length : rec.data.length = rec.blen) (sum : crc32 rec.data = rec.value) :
    s.sessData ok r rec =
      if ok then
        (({ s with
            nvm.bytes := nvmProgs (s.sectorReady x.next) (stagingBase + 4096 * x.next) rec.data
            sys.sess := some { x with next := x.next + 1, lastCrc := rec.value } } : State).wr Reg.SYS_UPD_NEXT
              (x.next + 1)).answer r rec stCOMPLETED 0 0 0
      else
        ((({ s with
            nvm.bytes := nvmProgs (s.sectorReady x.next) (stagingBase + 4096 * x.next)
              (leBytes rec.blen (s.freeVal (8 * rec.blen))) } : State).tick).endSess x false).answer r rec stABORTED 7 0 0 := by
  have repeated : ¬(decide (x.next + 1 = x.next) && decide (rec.value = x.lastCrc)) = true := by simp
  have shape : ¬(decide (x.len ≤ 4096 * x.next) || decide (rec.blen ≠ min 4096 (x.len - 4096 * x.next)) ||
      decide (rec.data.length ≠ rec.blen)) = true := by
    rw [length, ← blen]
    simpa using inside
  unfold State.sessData
  rw [acts]
  dsimp only
  rw [next, if_neg repeated, if_neg (not_not_intro rfl), if_neg shape, if_neg (not_not_intro sum)]
  rfl

/-- COMMIT of an image that is complete and agrees with its OPEN (R325). -/
theorem State.sessCommit_whole (s : State) (r : ReplyTo) (rec : SessRec) (x : Sess) (acts : s.sessFor r rec = .ok x)
    (whole : x.len ≤ x.next * 4096) (agrees : s.stagedAgrees x = true) :
    s.sessCommit r rec = ({ (s.setStg 0x3F).endSess x true with sys.commitAt := some s.sys.uptime } : State).answer r rec
      stCOMPLETED 0 0 0 := by
  unfold State.sessCommit
  rw [acts]
  dsimp only
  rw [if_neg (by omega), if_neg (by rw [agrees]; decide)]

/-- Settles O41: each record alone in the queue runs its own function, whose outcome the lemmas above give. -/
theorem updateSessions : Obligations.UpdateSessions := by
  refine ⟨fun s r rec front => ⟨fun op none' live may kind len => ?_, fun x op some' => ?_, fun why fails => ⟨fun op ok => ?_, fun op => ?_⟩⟩,
    fun s r rec x front acts some' => ⟨fun op next inside blen length sum => ?_, fun op next inside blen length sum => ?_,
      fun op whole agrees => ?_, fun op part => ?_, fun op => ?_⟩,
    fun s => ⟨fun x some' idle => ?_, fun may => ⟨fun x some' => ?_, fun none' never => ?_, fun c none' at' => ?_⟩⟩⟩
  · refine ⟨_, congrArg Host.Outcome.next ((s.sessRun_alone _ front op).trans
      (State.sessOpen_opens { s with sys.sessQ := [] } r rec none' live may kind len)), ?_⟩
    exact State.opened_answer { s with sys.sessQ := [] } r rec
  · refine ⟨_, congrArg Host.Outcome.next (s.sessRun_alone _ front op), ?_⟩
    have busy : ({ s with sys.sessQ := [] } : State).sessOpen r rec = State.respond
        ((({ s with sys.sessQ := [] } : State).bump Reg.SYS_UPD_BUSY_CNT).ev Reg.SYS_UPD_EVT 1 18) r
        (respBytes 1 stBUSY x.num x.next 0 (BitVec.ofNat 8 (srcCode x.src)) (s.idleLeft x) []) := by
      simp only [State.sessOpen, some', op]
      rfl
    rw [busy]
    refine ⟨?_, rfl⟩
    obtain ⟨l, sys⟩ := sys_of_unnumbered ((State.respond_sys _ r (respBytes 1 stBUSY x.num x.next 0
      (BitVec.ofNat 8 (srcCode x.src)) (s.idleLeft x) [])).trans
      (State.ev_sys (({ s with sys.sessQ := [] } : State).bump Reg.SYS_UPD_BUSY_CNT) Reg.SYS_UPD_EVT 1 18))
    rw [sys]
    exact some'
  · refine congrArg Host.Outcome.next ((s.sessRun_alone _ front op).trans ?_)
    have fails' : State.sessFor { s with sys.sessQ := [] } r rec = .error why := fails
    unfold State.sessData
    rw [fails']
  · refine congrArg Host.Outcome.next ((s.sessRun_alone _ front op).trans ?_)
    have fails' : State.sessFor { s with sys.sessQ := [] } r rec = .error why := fails
    unfold State.sessCommit
    rw [fails']
  · have next' : rec.block = x.next := by rw [← next]; exact (Nat.mod_mod (leAt rec.bytes 4 2) 2048).symm
    refine ⟨_, congrArg Host.Outcome.next ((s.sessRun_alone _ front op).trans
      (State.sessData_next { s with sys.sessQ := [] } true r rec x acts next' inside blen length sum)), ?_⟩
    rw [if_pos rfl, State.answer_nvm]
    refine ⟨?_, rfl⟩
    obtain ⟨l, sys⟩ := sys_of_unnumbered (State.answer_sys (State.wr
      { s with
        nvm.bytes := nvmProgs (State.sectorReady { s with sys.sessQ := [] } x.next) (stagingBase + 4096 * x.next) rec.data
        sys.sessQ := []
        sys.sess := some { x with next := x.next + 1, lastCrc := rec.value } } Reg.SYS_UPD_NEXT (x.next + 1)) r rec
      stCOMPLETED 0 0 0)
    obtain ⟨-, num, -, -, next'', crc⟩ := answered_spec r s.sys.uptime { x with next := x.next + 1, lastCrc := rec.value }
    rw [sys]
    exact ⟨_, rfl, next'', num, crc⟩
  · have next' : rec.block = x.next := by rw [← next]; exact (Nat.mod_mod (leAt rec.bytes 4 2) 2048).symm
    refine ⟨_, congrArg Host.Outcome.next ((s.sessRun_alone _ front op).trans
      (State.sessData_next { s with sys.sessQ := [] } false r rec x acts next' inside blen length sum)), ?_⟩
    rw [if_neg (by decide)]
    obtain ⟨gone, past, -⟩ := State.answer_over _ r rec stABORTED 7 0 0 (State.endSess_sess _ x false).1
    exact ⟨gone, past⟩
  · refine ⟨_, congrArg Host.Outcome.next ((s.sessRun_alone _ front op).trans
      (State.sessCommit_whole { s with sys.sessQ := [] } r rec x acts whole agrees)), ?_⟩
    obtain ⟨gone, past, commit⟩ := State.answer_over
      { (State.setStg { s with sys.sessQ := [] } 0x3F).endSess x true with sys.commitAt := some s.sys.uptime } r rec
      stCOMPLETED 0 0 0 rfl
    refine ⟨gone, past, ?_, commit⟩
    rw [State.answer_nvm]
    simp [State.setStg]
  · refine congrArg Host.Outcome.next ((s.sessRun_alone _ front op).trans ?_)
    have acts' : State.sessFor { s with sys.sessQ := [] } r rec = .ok x := acts
    unfold State.sessCommit
    rw [acts']
    exact if_pos part
  · have ended : State.sessAbort { s with sys.sessQ := [] } r rec =
        (State.endSess { s with sys.sessQ := [] } x false).answer r rec stCOMPLETED 0 0 0 := by
      have acts' : State.sessFor { s with sys.sessQ := [] } r rec = .ok x := acts
      unfold State.sessAbort
      rw [acts']
    refine ⟨_, congrArg Host.Outcome.next ((s.sessRun_alone _ front op).trans ended), ?_⟩
    obtain ⟨gone, past, -⟩ := State.answer_over _ r rec stCOMPLETED 0 0 0
      (State.endSess_sess { s with sys.sessQ := [] } x false).1
    exact ⟨gone, past, by rw [State.answer_nvm]; simp⟩
  · obtain ⟨-, last, owner, event⟩ := s.endSess_spec x false
    refine ⟨s.endSess x false, ?_, rfl, rfl, rfl, last, owner, event⟩
    simp only [exec, execSessionIdleExpire, some', idle]
    rfl
  · have killed : (s.numbered 1).updKill = ((s.numbered 1).endSess x false).wr Reg.SYS_UPD_KILL_ST 1 := by
      have some'' : (s.numbered 1).sys.sess = some x := some'
      unfold State.updKill
      rw [some'']
    exact ⟨_, congrArg Host.Outcome.next ((s.hostOp_may _ _ _ may).trans killed), rfl, State.rd_wr_same _ _ 1⟩
  · refine congrArg Host.Outcome.next ((s.hostOp_may _ _ _ may).trans ?_)
    have none'' : (s.numbered 1).sys.sess = none := none'
    have never' : (s.numbered 1).sys.commitAt = none := never
    unfold State.updKill
    rw [none'', never']
  · refine congrArg Host.Outcome.next ((s.hostOp_may _ _ _ may).trans ?_)
    have none'' : (s.numbered 1).sys.sess = none := none'
    have at'' : (s.numbered 1).sys.commitAt = some c := at'
    unfold State.updKill
    rw [none'', at'']
    rfl

end Sys2Proof.Machine

/-!
PROOF. Attestation and its key (O42, R330 to R334).
-/

namespace Sys2Proof.Machine

/-! ### A leaf and a token -/

/-- The next leaf: its segment is counted where it begins one (R331). -/
theorem State.takeLeaf_spec (s : State) :
    s.takeLeaf.2.rd Reg.KEY_ATT_NEXT = (s.rd Reg.KEY_ATT_NEXT + 1) % 2 ^ 21 ∧
      s.takeLeaf.2.rd Reg.KEY_ATT_STAT = s.rd Reg.KEY_ATT_STAT ∧
      s.takeLeaf.2.rd Reg.KEY_ATT_TOKENS = s.rd Reg.KEY_ATT_TOKENS ∧
      (s.rd Reg.KEY_ATT_NEXT % 65536 = 0 → s.takeLeaf.2.otp.attSeg = s.otp.attSeg + 1) := by
  have segment : ∃ t : State, s.takeLeaf.2 =
      (let u := (t.wr Reg.KEY_ATT_NEXT (s.rd Reg.KEY_ATT_NEXT + 1)).wr Reg.KEY_ATT_LEFT (1048576 - (s.rd Reg.KEY_ATT_NEXT + 1))
       if 1048576 - (s.rd Reg.KEY_ATT_NEXT + 1) = 65535 then u.ev Reg.KEY_ATT_EVT 1 117 else u) ∧ t.regs = s.regs ∧
      (s.rd Reg.KEY_ATT_NEXT % 65536 = 0 → t.otp.attSeg = s.otp.attSeg + 1) := by
    unfold State.takeLeaf
    refine ⟨_, rfl, ?_, fun begins => ?_⟩
    · split <;> split <;> rfl
    · rw [if_pos begins]
      split <;> rfl
  obtain ⟨t, e, regs, seg⟩ := segment
  rw [e]
  dsimp only
  have kept {g : Fld} (event : g.place ≠ Reg.KEY_ATT_EVT.place) (left : g.place ≠ Reg.KEY_ATT_LEFT.place) (u : State) (n v : Nat) :
      g.get (if n = 65535 then (u.wr Reg.KEY_ATT_LEFT v).ev Reg.KEY_ATT_EVT 1 117 else u.wr Reg.KEY_ATT_LEFT v).regs 0 0 =
        g.get u.regs 0 0 :=
    get_ite ((State.get_ev_place event ..).trans (State.get_wr_place left ..)) (State.get_wr_place left ..)
  refine ⟨?_, ?_, ?_, fun begins => ?_⟩
  · exact (kept (by decide) (by decide) ..).trans (State.rd_wr_same t Reg.KEY_ATT_NEXT _)
  · rw [State.rd_get, kept (by decide) (by decide), State.get_wr_place (by decide), regs]; rfl
  · rw [State.rd_get, kept (by decide) (by decide), State.get_wr_place (by decide), regs]; rfl
  · rw [← seg begins]
    split <;> simp

/-- An ATTEST that nothing refuses takes a token and the next leaf (R333, R334). -/
theorem State.attStart_accepts (s : State) (r : ReplyTo) (rec : SessRec) (accepts : s.attRefusal r = none) :
    (s.attStart r rec).rd Reg.KEY_ATT_STAT = 1 ∧
      (s.attStart r rec).rd Reg.KEY_ATT_TOKENS = (s.rd Reg.KEY_ATT_TOKENS - 1) % 32 ∧
      (s.attStart r rec).rd Reg.KEY_ATT_NEXT = (s.rd Reg.KEY_ATT_NEXT + 1) % 2 ^ 21 ∧
      (s.attStart r rec).key.attest = some { reply := r, nonce := rec.nonce, leaf := s.rd Reg.KEY_ATT_NEXT } ∧
      (s.rd Reg.KEY_ATT_NEXT % 65536 = 0 → (s.attStart r rec).otp.attSeg = s.otp.attSeg + 1) := by
  have tokens := State.rd_wr_same (s.wr Reg.KEY_ATT_STAT 1) Reg.KEY_ATT_TOKENS (s.rd Reg.KEY_ATT_TOKENS - 1)
  have stat := (State.get_wr_place (f := Reg.KEY_ATT_TOKENS) (g := Reg.KEY_ATT_STAT) (by decide) (s.wr Reg.KEY_ATT_STAT 1)
    (s.rd Reg.KEY_ATT_TOKENS - 1) 0).trans (State.rd_wr_same s Reg.KEY_ATT_STAT 1)
  have next : ((s.wr Reg.KEY_ATT_STAT 1).wr Reg.KEY_ATT_TOKENS (s.rd Reg.KEY_ATT_TOKENS - 1)).rd Reg.KEY_ATT_NEXT =
      s.rd Reg.KEY_ATT_NEXT :=
    (State.get_wr_place (f := Reg.KEY_ATT_TOKENS) (by decide) ..).trans (State.get_wr_place (f := Reg.KEY_ATT_STAT) (by decide) s 1 0)
  have otp : ((s.wr Reg.KEY_ATT_STAT 1).wr Reg.KEY_ATT_TOKENS (s.rd Reg.KEY_ATT_TOKENS - 1)).otp = s.otp := rfl
  unfold State.attStart
  rw [accepts]
  dsimp only
  generalize (s.wr Reg.KEY_ATT_STAT 1).wr Reg.KEY_ATT_TOKENS (s.rd Reg.KEY_ATT_TOKENS - 1) = t at tokens stat next otp
  obtain ⟨next', stat', tokens', seg⟩ := t.takeLeaf_spec
  refine ⟨stat'.trans stat, tokens'.trans tokens, next'.trans (by rw [next]), ?_, fun begins => ?_⟩
  · rw [← next]; rfl
  · exact (seg (by rw [next]; exact begins)).trans (by rw [otp])

/-! ### The end of a signature -/

/-- The device once a signature has ended, unanswered (R334). -/
def State.signed (s : State) : State :=
  ((({ s with key.attest := none } : State).wr Reg.KEY_ATT_STAT 2).bump Reg.KEY_ATT_SIGNED).ev Reg.KEY_ATT_EVT 0 117

theorem State.signed_reads (s : State) :
    s.signed.rd Reg.KEY_ATT_STAT = 2 ∧ s.signed.rd Reg.KEY_ATT_SIGNED = (s.bump Reg.KEY_ATT_SIGNED).rd Reg.KEY_ATT_SIGNED ∧
      s.signed.rd Reg.HST_MBX_RSP = s.rd Reg.HST_MBX_RSP ∧ s.signed.hst = s.hst ∧ s.signed.key.attest = none ∧
      s.signed.otp = s.otp ∧ s.signed.nvm = s.nvm := by
  unfold State.signed
  refine ⟨?_, ?_, ?_, by simp, by simp, by simp, by simp⟩
  · rw [State.rd_get, State.get_ev_place (by decide), State.get_bump_place (by decide)]
    exact State.rd_wr_same _ Reg.KEY_ATT_STAT 2
  · rw [State.rd_get, State.get_ev_place (by decide), State.rd_get, State.bump_regs, State.bump_regs, Fld.get_put_same,
      Fld.get_put_same, State.get_wr_place (by decide)]
  · rw [State.rd_get, State.get_ev_place (by decide), State.get_bump_place (by decide), State.get_wr_place (by decide)]
    rfl

/-- A reply to the mailbox that waits is driven out (R385). -/
theorem State.mbxReply_out (s : State) (b : List Byte) (waits : s.hst.mbx = true) :
    Out.mbxRsp (BitVec.ofNat 64 (s.rd Reg.HST_MBX_RSP)) b ∈ (s.mbxReply b).out := by
  unfold State.mbxReply
  rw [if_pos waits]
  simp [State.emit]

/-! ### The attestation key -/

theorem exec_attKeygen (s : State) (stage : s.rd Reg.SYS_BOOT_STAGE = 6) (hold : s.sys.hold = .none)
    (needs : s.needsKeygen = true) :
    ∃ t, exec .attKeygen s = .next t ∧ t.otp.slot4.isSome = true ∧ t.otp.attRoot.isSome = true ∧ t.nvm.cache = true ∧
      (∀ x, s.otp.slot4 = some x → t.otp.slot4 = some x ∧ t.free = s.free) ∧
      (∀ x, s.otp.attRoot = some x → t.otp.attRoot = some x) ∧
      { t.otp with slot4 := s.otp.slot4, attRoot := s.otp.attRoot } = s.otp := by
  have up : s.up = true := decide_eq_true hold
  have gate : ¬(decide (s.rd Reg.SYS_BOOT_STAGE ≠ 6) || !s.up || !s.needsKeygen) = true := by
    rw [up, needs, stage]; decide
  simp only [exec, execAttKeygen]
  rw [if_neg gate]
  cases slot : s.otp.slot4 with
  | some k =>
    dsimp only
    rw [slot]
    refine ⟨_, rfl, rfl, rfl, rfl, fun x h => ⟨h, rfl⟩, fun x root => by rw [root]; rfl, ?_⟩
    rw [← slot]
  | none =>
    have some' : s.key.pufKey.isSome = true := by
      simp only [State.needsKeygen, Bool.and_eq_true] at needs
      exact needs.1.2
    obtain ⟨p, puf⟩ := Option.isSome_iff_exists.mp some'
    have puf' : s.tick.tick.key.pufKey = some p := puf
    dsimp only
    rw [puf']
    dsimp only
    refine ⟨_, rfl, rfl, rfl, rfl, nofun, fun x root => ?_, ?_⟩
    · have root' : s.tick.tick.tick.otp.attRoot = some x := root
      simp only [root']
      rfl
    · rw [← slot]
      rfl

/-- Settles O42: acceptance and refusal by `attRefusal`, the end of a signature and the key by the lemmas above. -/
theorem attestation : Obligations.Attestation := by
  refine ⟨fun s => ⟨fun r rec front op => ⟨fun accepts => ?_, fun why refuses => ?_⟩, fun a signs => ?_, fun hold halted => ?_⟩,
    fun s => ⟨fun stage hold needs => exec_attKeygen s stage hold needs, fun stage halted slot root cache => ?_⟩⟩
  · exact ⟨_, congrArg Host.Outcome.next (s.sessRun_alone _ front op),
      State.attStart_accepts { s with sys.sessQ := [] } r rec accepts⟩
  · refine congrArg Host.Outcome.next ((s.sessRun_alone _ front op).trans ?_)
    have refuses' : State.attRefusal { s with sys.sessQ := [] } r = some why := refuses
    unfold State.attStart
    rw [refuses']
  · obtain ⟨stat, count, rsp, hst, gone, otp, nvm⟩ := s.signed_reads
    have ends : ∃ sig, exec .attSignDone s = .next (s.signed.respond a.reply
        (respBytes 0x10 stCOMPLETED 0 0 0 0 0 (s.report a ++ sig ++ s.attPub))) ∧
        ∀ k, s.otp.slot4 = some k → sig = attSig k a.leaf (s.report a) := by
      simp only [exec, execAttSignDone, signs]
      exact ⟨_, rfl, fun k slot => by rw [slot]⟩
    obtain ⟨sig, ex, isSig⟩ := ends
    refine ⟨_, ex, by simp [gone], by simp [otp], by simp [nvm], ?_, ?_, fun k slot mailbox waits => ?_⟩
    · exact (State.respond_get (by decide) ..).trans stat
    · exact (State.respond_get (by decide) ..).trans count
    · rw [← isSig k slot, ← rsp, State.respond, mailbox]
      exact s.signed.mbxReply_out _ (by rw [hst]; exact waits)
  · have up : s.up = true := decide_eq_true hold
    refine ⟨_, congrArg Host.Outcome.next (if_pos (by rw [up, halted]; rfl)), ?_⟩
    refine (State.rd_wr_same s Reg.KEY_ATT_TOKENS _).trans (Nat.mod_eq_of_lt (show _ < 2 ^ 5 by omega))
  · exact if_pos (by simp only [stage, halted, slot, root, cache]; rfl)

end Sys2Proof.Machine

/-!
PROOF. The interrupt controller (O43, R15, R433 to R436, R441).
-/

namespace Sys2Proof.Machine

/-! ### The control bytes of the sources -/

theorem assigned_lt {n : Nat} (h : assigned n = true) : n < 192 := by
  simp only [assigned, sourceRanges, List.any_cons, List.any_nil, Bool.or_eq_true, Bool.and_eq_true, decide_eq_true_eq,
    Bool.or_false] at h
  omega

/-- A field that no control byte of a source holds (R432). -/
def Fld.offSources (g : Fld) : Bool := g.key 0 0 < 0x100000 || 0x10C000 ≤ g.key 0 0

/-- A write of a control byte leaves the fields elsewhere. -/
theorem Fld.get_put_source {f g : Fld} (off : g.offSources = true) (addr : f.addr = 0x1000) (stride : f.stride = 1)
    (bits : f.lsb < 256) {n : Nat} (lt : n < 192) (r : List (Nat × Nat)) (v : Nat) :
    g.get (f.put r n 0 v) 0 0 = g.get r 0 0 := by
  refine Fld.get_put_of_ne ?_ r v
  simp only [Fld.offSources, Bool.or_eq_true, decide_eq_true_eq] at off
  simp only [Fld.key, addr, stride] at off ⊢
  omega

/-- A write elsewhere leaves the control bytes. -/
theorem Fld.get_source_put {f g : Fld} (off : f.offSources = true) (addr : g.addr = 0x1000) (stride : g.stride = 1)
    (bits : g.lsb < 256) {n : Nat} (lt : n < 192) (r : List (Nat × Nat)) (v : Nat) :
    g.get (f.put r 0 0 v) n 0 = g.get r n 0 := by
  refine Fld.get_put_of_ne ?_ r v
  simp only [Fld.offSources, Bool.or_eq_true, decide_eq_true_eq] at off
  simp only [Fld.key, addr, stride] at off ⊢
  omega

/-- The three fields of a control byte do not meet. -/
theorem source_fields (n : Nat) :
    Reg.IRQ_SRC_CTL_TGT.key n 0 ≠ Reg.IRQ_SRC_CTL_PEND.key n 0 ∧ Reg.IRQ_SRC_CTL_EN.key n 0 ≠ Reg.IRQ_SRC_CTL_PEND.key n 0 ∧
      Reg.IRQ_SRC_CTL_PEND.key n 0 ≠ Reg.IRQ_SRC_CTL_EN.key n 0 ∧ Reg.IRQ_SRC_CTL_TGT.key n 0 ≠ Reg.IRQ_SRC_CTL_EN.key n 0 ∧
      Reg.IRQ_SRC_CTL_PEND.key n 0 ≠ Reg.IRQ_SRC_CTL_TGT.key n 0 ∧ Reg.IRQ_SRC_CTL_EN.key n 0 ≠ Reg.IRQ_SRC_CTL_TGT.key n 0 := by
  simp only [Fld.key, Reg.IRQ_SRC_CTL_TGT, Reg.IRQ_SRC_CTL_PEND, Reg.IRQ_SRC_CTL_EN]
  omega

/-- PEND of a source written (R433). -/
theorem State.setPend_reads (s : State) {n : Nat} (v : Nat) (lt : n < 192) :
    (s.wrI Reg.IRQ_SRC_CTL_PEND n v).pendOf n = decide (v % 2 = 1) ∧
      (s.wrI Reg.IRQ_SRC_CTL_PEND n v).enOf n = s.enOf n ∧
      (s.wrI Reg.IRQ_SRC_CTL_PEND n v).rdI Reg.IRQ_SRC_CTL_TGT n = s.rdI Reg.IRQ_SRC_CTL_TGT n ∧
      (∀ i, (s.wrI Reg.IRQ_SRC_CTL_PEND n v).runs i = s.runs i) := by
  obtain ⟨tgt, en, -⟩ := source_fields n
  refine ⟨?_, ?_, ?_, fun i => ?_⟩
  · simp only [State.pendOf, State.rdI_get, State.wrI_regs, Fld.get_put_same]; rfl
  · simp only [State.enOf, State.rdI_get, State.wrI_regs]
    rw [Fld.get_put_of_ne en]
  · simp only [State.rdI_get, State.wrI_regs]
    rw [Fld.get_put_of_ne tgt]
  · exact State.runs_of_rd (s := s) (t := s.wrI Reg.IRQ_SRC_CTL_PEND n v)
      (Fld.get_put_source (f := Reg.IRQ_SRC_CTL_PEND) (g := Reg.SYS_ISL_RUN_L) (by decide) rfl rfl (by decide) lt s.regs v)
      (Fld.get_put_source (f := Reg.IRQ_SRC_CTL_PEND) (g := Reg.SYS_ISL_RUN_H) (by decide) rfl rfl (by decide) lt s.regs v) i

/-- EN of a source written (R434). -/
theorem State.setEn_reads (s : State) (n v : Nat) :
    (s.wrI Reg.IRQ_SRC_CTL_EN n v).enOf n = decide (v % 2 = 1) ∧
      (s.wrI Reg.IRQ_SRC_CTL_EN n v).pendOf n = s.pendOf n ∧
      (s.wrI Reg.IRQ_SRC_CTL_EN n v).rdI Reg.IRQ_SRC_CTL_TGT n = s.rdI Reg.IRQ_SRC_CTL_TGT n := by
  obtain ⟨-, -, pend, tgt, -⟩ := source_fields n
  refine ⟨?_, ?_, ?_⟩
  · simp only [State.enOf, State.rdI_get, State.wrI_regs, Fld.get_put_same]; rfl
  · simp only [State.pendOf, State.rdI_get, State.wrI_regs]
    rw [Fld.get_put_of_ne pend]
  · simp only [State.rdI_get, State.wrI_regs]
    rw [Fld.get_put_of_ne tgt]

/-! ### Deliveries -/

/-- The device once a delivery of a source is on record (R443). -/
def State.noted (s : State) (n : Nat) : State := (s.wr Reg.IRQ_LAST_SRC n).wrap Reg.IRQ_DELIVERIES

theorem State.noted_reads (s : State) {n : Nat} (lt : n < 192) :
    (s.noted n).rd Reg.IRQ_LAST_SRC = n ∧ (s.noted n).pendOf n = s.pendOf n ∧ (s.noted n).enOf n = s.enOf n := by
  refine ⟨?_, ?_, ?_⟩
  · refine (Fld.get_put_place (f := Reg.IRQ_DELIVERIES) (by decide) ..).trans ((State.rd_wr_same s Reg.IRQ_LAST_SRC n).trans ?_)
    exact Nat.mod_eq_of_lt (show n < 2 ^ 8 by omega)
  · simp only [State.pendOf, State.rdI_get, State.noted, State.wrap_regs, State.wr_regs]
    rw [Fld.get_source_put (by decide) rfl rfl (by decide) lt, Fld.get_source_put (by decide) rfl rfl (by decide) lt]
  · simp only [State.enOf, State.rdI_get, State.noted, State.wrap_regs, State.wr_regs]
    rw [Fld.get_source_put (by decide) rfl rfl (by decide) lt, Fld.get_source_put (by decide) rfl rfl (by decide) lt]

theorem State.deliverIrq_vector (s : State) {n : Nat} (vector : s.rdI Reg.IRQ_SRC_CTL_TGT n < 16) (host : s.runs .HST = true) :
    s.deliverIrq n = (s.noted n).msixSend (s.rdI Reg.IRQ_SRC_CTL_TGT n) := by
  unfold State.deliverIrq
  exact (if_neg (by rw [host]; simp)).trans (if_pos vector)

theorem State.deliverIrq_kept (s : State) {n : Nat} (vector : s.rdI Reg.IRQ_SRC_CTL_TGT n < 16) (host : s.runs .HST = false)
    (new : s.irq.held.contains n = false) : s.deliverIrq n = { s with irq.held := s.irq.held ++ [n] } := by
  unfold State.deliverIrq
  exact (if_pos (by rw [host]; simpa using vector)).trans (if_neg (by rw [new]; decide))

/-- A core's bit of CORE_SLEEP is clear once it has been taken off. -/
theorem testBit_sub_two_pow {c z : Nat} (core : c < 4) (asleep : z.testBit c = true) :
    ((z - 2 ^ c) % 2 ^ 4).testBit c = false := by
  rw [Nat.testBit_eq_decide_div_mod_eq, decide_eq_true_eq] at asleep
  rw [Nat.testBit_eq_decide_div_mod_eq, decide_eq_false_iff_not]
  interval_cases c <;> omega

/-- A delivery to a core wakes it (R436). -/
theorem State.deliverIrq_core (s : State) {n : Nat} (lt : n < 192) (core : 16 ≤ s.rdI Reg.IRQ_SRC_CTL_TGT n) :
    (s.deliverIrq n).out = s.out ++ [.core (s.rdI Reg.IRQ_SRC_CTL_TGT n - 16)] ∧
      (s.deliverIrq n).irq.atCore = s.irq.atCore ++ [(n, true)] ∧ (s.deliverIrq n).enOf n = s.enOf n ∧
      (s.rdI Reg.IRQ_SRC_CTL_TGT n < 20 →
        ((s.deliverIrq n).rd Reg.IRQ_CORE_SLEEP).testBit (s.rdI Reg.IRQ_SRC_CTL_TGT n - 16) = false) := by
  have woken : s.deliverIrq n =
      (let c := s.rdI Reg.IRQ_SRC_CTL_TGT n - 16
       let z := (s.noted n).rd Reg.IRQ_CORE_SLEEP
       let t := { s.noted n with irq.atCore := s.irq.atCore ++ [(n, true)] }
       (if z.testBit c then t.wr Reg.IRQ_CORE_SLEEP (z - 2 ^ c) else t).emit (.core c)) := by
    unfold State.deliverIrq
    exact (if_neg (by simp only [Bool.and_eq_true, decide_eq_true_eq]; omega)).trans (if_neg (by omega))
  obtain ⟨-, -, en⟩ := s.noted_reads lt
  rw [woken]
  dsimp only
  have few : s.rdI Reg.IRQ_SRC_CTL_TGT n < 20 → s.rdI Reg.IRQ_SRC_CTL_TGT n - 16 < 4 := by omega
  generalize s.rdI Reg.IRQ_SRC_CTL_TGT n - 16 = c at few
  have out : (s.noted n).out = s.out := rfl
  generalize s.noted n = t at en out
  split
  · rename_i asleep
    refine ⟨congrArg (· ++ [Out.core c]) out, rfl, ?_, fun core => ?_⟩
    · rw [← en]
      simp only [State.enOf, State.rdI_get]
      exact congrArg (fun v => decide (v = 1)) (Fld.get_source_put (f := Reg.IRQ_CORE_SLEEP) (by decide) rfl rfl (by decide) lt ..)
    · refine (congrArg (Nat.testBit · c) (State.rd_wr_same t Reg.IRQ_CORE_SLEEP _)).trans ?_
      exact testBit_sub_two_pow (few core) asleep
  · rename_i awake
    exact ⟨congrArg (· ++ [Out.core c]) out, rfl, en, fun _ => by simpa using awake⟩

/-! ### An edge -/

/-- The edge of an assigned source with EN set, PEND clear, is delivered (R433, R434). -/
theorem State.latch_delivers (s : State) {n : Nat} (known : assigned n = true) (clear : s.pendOf n = false)
    (en : s.enOf n = true) : s.latch n = (s.wrI Reg.IRQ_SRC_CTL_PEND n 1).deliverIrq n := by
  obtain ⟨pend, en', -⟩ := s.setPend_reads 1 (assigned_lt known)
  unfold State.latch State.deliverIf
  rw [if_neg (by rw [known, clear]; decide), if_pos (by rw [pend, en', en]; rfl)]

/-- A message to a vector that may be sent goes out, and any other waits in the PBA (R435). -/
theorem State.msixSend_cases (s : State) (v : Nat) :
    (s.irq.msixEn = true → s.irq.msixMask = false → s.irq.vecMask.getLsbD v = false →
      s.msixSend v = s.emit (.msix v (s.irq.table.getD v (0, 0)))) ∧
    ((s.irq.msixEn = false ∨ s.irq.msixMask = true ∨ s.irq.vecMask.getLsbD v = true) →
      s.msixSend v = { s with irq.pba := s.irq.pba ||| BitVec.ofNat 16 (2 ^ v) }) := by
  refine ⟨fun en mask vec => ?_, fun no => ?_⟩
  · exact if_pos (by rw [en, mask, vec]; rfl)
  · refine if_neg ?_
    simp only [Bool.and_eq_true, Bool.not_eq_true']
    rintro ⟨⟨en, mask⟩, vec⟩
    simp [en, mask, vec] at no

theorem pba_set (p : BitVec 16) {v : Nat} (lt : v < 16) : (p ||| BitVec.ofNat 16 (2 ^ v)).getLsbD v = true := by
  rw [BitVec.getLsbD_or, BitVec.getLsbD_ofNat, Nat.testBit_two_pow_self, decide_eq_true lt, Bool.and_self, Bool.or_true]

/-! ### The control byte -/

/-- EN written on a source without PEND (R434). -/
theorem State.srcCtl_en_idle (s : State) (n : Nat) (en : Bool) (held : s.irq.held.contains n = false) (clear : s.pendOf n = false) :
    s.srcCtl n false none (some en) = s.wrI Reg.IRQ_SRC_CTL_EN n (if en then 1 else 0) := by
  obtain ⟨-, pend, -⟩ := s.setEn_reads n (if en then 1 else 0)
  have idle : (s.wrI Reg.IRQ_SRC_CTL_EN n (if en then 1 else 0)).deliverIf n =
      s.wrI Reg.IRQ_SRC_CTL_EN n (if en then 1 else 0) := if_neg (by rw [pend, clear]; simp)
  have held' : ¬(s.wrI Reg.IRQ_SRC_CTL_EN n (if en then 1 else 0)).irq.held.contains n = true := by
    rw [show (s.wrI Reg.IRQ_SRC_CTL_EN n (if en then 1 else 0)).irq = s.irq from rfl, held]; decide
  unfold State.srcCtl
  refine (if_neg held').trans ?_
  by_cases was : s.enOf n = true
  · exact if_pos was
  · exact (if_neg was).trans idle

/-- EN set on a source that is pending delivers it (R434). -/
theorem State.srcCtl_en_pending (s : State) (n : Nat) (held : s.irq.held.contains n = false) (pend : s.pendOf n = true)
    (off : s.enOf n = false) :
    s.srcCtl n false none (some true) = (s.wrI Reg.IRQ_SRC_CTL_EN n 1).deliverIrq n := by
  obtain ⟨en, pend', -⟩ := s.setEn_reads n 1
  have held' : ¬(s.wrI Reg.IRQ_SRC_CTL_EN n 1).irq.held.contains n = true := by
    rw [show (s.wrI Reg.IRQ_SRC_CTL_EN n 1).irq = s.irq from rfl, held]; decide
  have both : ((s.wrI Reg.IRQ_SRC_CTL_EN n 1).pendOf n && (s.wrI Reg.IRQ_SRC_CTL_EN n 1).enOf n) = true := by
    rw [en, pend', pend]; rfl
  unfold State.srcCtl
  refine (if_neg held').trans ((if_neg ?_).trans (if_pos both))
  show ¬s.enOf n = true
  rw [off]
  decide

theorem State.pendDrop_reads (s : State) {n : Nat} (lt : n < 192) :
    (s.pendDrop n).pendOf n = false ∧ (s.pendDrop n).enOf n = s.enOf n ∧ (s.pendDrop n).out = s.out := by
  obtain ⟨pend, en, -⟩ := s.setPend_reads 0 lt
  exact ⟨pend, en, rfl⟩

/-- PEND cleared by the host forgets the edge (R433). -/
theorem State.srcCtl_clear (s : State) {n : Nat} (lt : n < 192) (held : s.irq.held.contains n = false) :
    s.srcCtl n true none none = s.pendDrop n := by
  have erased : ¬(s.pendDrop n).irq.held.contains n = true := by
    show ¬(s.irq.held.erase n).contains n = true
    rw [List.contains_iff_mem]
    intro mem
    have mem' := List.mem_of_mem_erase mem
    rw [← List.contains_iff_mem, held] at mem'
    exact absurd mem' (by decide)
  obtain ⟨pend, -, -⟩ := s.pendDrop_reads lt
  have idle : (s.pendDrop n).deliverIf n = s.pendDrop n := if_neg (by rw [pend]; simp)
  unfold State.srcCtl
  refine (if_neg erased).trans ?_
  by_cases was : (s.pendDrop n).enOf n = true
  · exact if_pos was
  · exact (if_neg was).trans idle

/-- TGT written (R441). -/
theorem State.srcCtl_tgt (s : State) (n t : Nat) (held : s.irq.held.contains n = false) :
    (s.srcCtl n false (some t) none = s.wrI Reg.IRQ_SRC_CTL_TGT n (min 19 t)) := by
  have held' : ¬(s.wrI Reg.IRQ_SRC_CTL_TGT n (min 19 t)).irq.held.contains n = true := by
    rw [show (s.wrI Reg.IRQ_SRC_CTL_TGT n (min 19 t)).irq = s.irq from rfl, held]; decide
  unfold State.srcCtl
  refine (if_neg held').trans ?_
  by_cases was : (s.wrI Reg.IRQ_SRC_CTL_TGT n (min 19 t)).enOf n = true
  · exact if_pos was
  · exact (if_neg was).trans (if_neg (by simp only [Bool.and_eq_true]; exact fun both => was both.2))

/-- A core's firmware clears the latch that its oldest delivery stands for (R436). -/
theorem State.coreClear_oldest (s : State) {n : Nat} {b : Bool} {l l' : List (Nat × Bool)}
    (oldest : s.irq.atCore = l ++ (n, b) :: l') (first : ∀ p ∈ l, p.1 ≠ n) :
    s.coreClear n = if b then ({ s with irq.atCore := l ++ l' } : State).pendDrop n else { s with irq.atCore := l ++ l' } := by
  have found : s.irq.atCore.find? (fun p => p.1 = n) = some (n, b) := by
    rw [oldest, List.find?_append, List.find?_eq_none.mpr (fun p mem => by simpa using first p mem)]
    simp
  have erased : s.irq.atCore.erase (n, b) = l ++ l' := by
    rw [oldest, List.erase_append_right _ (fun mem => first _ mem rfl), List.erase_cons_head]
  unfold State.coreClear
  rw [found]
  dsimp only
  rw [erased]

/-- Settles O43: an edge by PEND, EN, TGT and the vector's masks; a control byte by the field written. -/
theorem interrupts : Obligations.Interrupts := by
  refine ⟨fun s src e run next => ?_, fun s src lt => ⟨fun may host held => ⟨fun en off clear => ?_, fun v off pend tgt core => ?_, ?_⟩,
    fun b l l' hold halted run oldest first => ?_, fun tgt may held => ?_⟩⟩
  · have latched (same : e.src = src.toNat) :
        exec (.eventLatch src) s = .next (({ s with irq.events := s.irq.events.erase e } : State).latch src.toNat) := by
      simp only [exec, execEventLatch, next]
      exact if_pos (by rw [run, same]; simp)
    refine ⟨fun other => ?_, fun same idle => ?_, fun same known clear off => ?_,
      fun same known clear en => ⟨fun vector host on mask vec => ?_, fun vector host no => ?_, fun core few => ?_, fun vector host held => ?_⟩⟩
    · simp only [exec, execEventLatch, next]
      exact if_neg (by rw [run]; simpa using other)
    · rw [latched same]
      refine congrArg Host.Outcome.next (if_pos ?_)
      obtain unknown | pend := idle
      · rw [unknown]; rfl
      · exact Bool.or_eq_true_iff.mpr (.inr pend)
    · obtain ⟨-, en', -⟩ := ({ s with irq.events := s.irq.events.erase e } : State).setPend_reads 1 (assigned_lt known)
      rw [latched same]
      have fresh : ¬(!assigned src.toNat || ({ s with irq.events := s.irq.events.erase e } : State).pendOf src.toNat) = true := by
        rw [known]
        exact ne_true_of_eq_false clear
      refine congrArg Host.Outcome.next ((if_neg fresh).trans (if_neg ?_))
      rw [en', Bool.and_eq_true]
      exact fun both => absurd (off.symm.trans both.2) (by decide)
    all_goals
      have ex := (latched same).trans (congrArg Host.Outcome.next
        (({ s with irq.events := s.irq.events.erase e } : State).latch_delivers known clear en))
      obtain ⟨pend, -, tgt, runs⟩ := ({ s with irq.events := s.irq.events.erase e } : State).setPend_reads 1 (assigned_lt known)
    · rw [State.deliverIrq_vector _ (by rw [tgt]; exact vector) (by rw [runs]; exact host), tgt] at ex
      obtain ⟨last, pend', -⟩ := (State.wrI { s with irq.events := s.irq.events.erase e } Reg.IRQ_SRC_CTL_PEND src.toNat 1).noted_reads
        (assigned_lt known)
      have sends := (State.msixSend_cases ((State.wrI { s with irq.events := s.irq.events.erase e } Reg.IRQ_SRC_CTL_PEND src.toNat
        1).noted src.toNat) (s.rdI Reg.IRQ_SRC_CTL_TGT src.toNat)).1 on mask vec
      exact ⟨_, ex.trans (congrArg Host.Outcome.next sends), rfl, pend'.trans pend, last⟩
    · rw [State.deliverIrq_vector _ (by rw [tgt]; exact vector) (by rw [runs]; exact host), tgt] at ex
      obtain ⟨-, pend', -⟩ := (State.wrI { s with irq.events := s.irq.events.erase e } Reg.IRQ_SRC_CTL_PEND src.toNat 1).noted_reads
        (assigned_lt known)
      have waits := (State.msixSend_cases ((State.wrI { s with irq.events := s.irq.events.erase e } Reg.IRQ_SRC_CTL_PEND src.toNat
        1).noted src.toNat) (s.rdI Reg.IRQ_SRC_CTL_TGT src.toNat)).2 no
      exact ⟨_, ex.trans (congrArg Host.Outcome.next waits), rfl, pba_set _ vector, pend'.trans pend⟩
    · obtain ⟨out, queue, -, sleep⟩ := State.deliverIrq_core (State.wrI { s with irq.events := s.irq.events.erase e }
        Reg.IRQ_SRC_CTL_PEND src.toNat 1) (assigned_lt known) (by rw [tgt]; exact core)
      rw [tgt] at out sleep
      exact ⟨_, ex, out, queue, sleep few⟩
    · rw [State.deliverIrq_kept (State.wrI { s with irq.events := s.irq.events.erase e } Reg.IRQ_SRC_CTL_PEND src.toNat 1)
        (by rw [tgt]; exact vector) (by rw [runs]; exact host) held] at ex
      exact ⟨_, ex, rfl, rfl⟩
  · obtain ⟨en', pend', -⟩ := (s.numbered 1).setEn_reads src.toNat (if en then 1 else 0)
    refine ⟨_, (if_pos lt).trans (congrArg Host.Outcome.next ((s.hostOp_may _ _ _ may).trans
      ((s.numbered 1).srcCtl_en_idle src.toNat en held clear))), ?_, pend'.trans clear, rfl⟩
    rw [en']
    cases en <;> rfl
  · subst tgt
    obtain ⟨en', -, tgt'⟩ := (s.numbered 1).setEn_reads src.toNat 1
    obtain ⟨out, -, on, -⟩ := State.deliverIrq_core ((s.numbered 1).wrI Reg.IRQ_SRC_CTL_EN src.toNat 1) lt (by rw [tgt']; exact core)
    rw [tgt'] at out
    exact ⟨_, (if_pos lt).trans (congrArg Host.Outcome.next ((s.hostOp_may _ _ _ may).trans
      ((s.numbered 1).srcCtl_en_pending src.toNat held pend off))), on.trans en', out⟩
  · have ex : exec (.pendClear ⟨src, false⟩) s = .next ((s.numbered 1).pendDrop src.toNat) := by
      simp only [exec, execPendClear]
      exact (if_neg (by omega)).trans ((if_neg (by rw [host]; decide)).trans
        (congrArg Host.Outcome.next ((s.hostOp_may _ _ _ may).trans ((s.numbered 1).srcCtl_clear lt held))))
    exact ⟨_, ex, (s.numbered 1).pendDrop_reads lt⟩
  · have up : s.up = true := decide_eq_true hold
    have ex : exec (.pendClear ⟨src, true⟩) s = .next (if b then ({ s with irq.atCore := l ++ l' } : State).pendDrop src.toNat
        else { s with irq.atCore := l ++ l' }) := by
      simp only [exec, execPendClear]
      exact (if_neg (by omega)).trans ((if_pos (by rfl)).trans (congrArg Host.Outcome.next
        ((if_pos (by rw [up, halted, run]; rfl)).trans (s.coreClear_oldest oldest first))))
    obtain ⟨pend, en, out⟩ := ({ s with irq.atCore := l ++ l' } : State).pendDrop_reads lt
    refine ⟨_, ex, ?_⟩
    cases b with
    | true => exact ⟨fun _ => ⟨pend, en⟩, nofun, out⟩
    | false => exact ⟨nofun, fun _ => rfl, rfl⟩
  · exact (if_pos lt).trans (congrArg Host.Outcome.next ((s.hostOp_may _ _ _ may).trans
      ((s.numbered 1).srcCtl_tgt src.toNat tgt.toNat held)))

end Sys2Proof.Machine

/-!
PROOF. Internal resets (O45, R54, R55, R58, R63, R64, R282, R315).
-/

namespace Sys2Proof.Machine

/-! ### What a reset leaves -/

/-- A field that no internal reset keeps or sets (R55). -/
def Fld.unkept (g : Fld) : Bool :=
  keptFields.all (fun f => g.place ≠ f.place) && g.place ≠ Reg.SYS_ISL_RUN_L.place && g.place ≠ Reg.SYS_ISL_RUN_H.place &&
    g.place ≠ Reg.SYS_REC_STATE.place

/-- A field that no reset keeps reads its reset value (R55). -/
theorem State.internalReset_rst (s : State) (cause : Nat) (hold : Hold) {g : Fld} (h : g.unkept = true) :
    g.get (s.internalReset cause hold).regs 0 0 = g.rst := by
  simp only [Fld.unkept, Bool.and_eq_true, decide_eq_true_eq, List.all_eq_true] at h
  obtain ⟨⟨⟨kept, low⟩, high⟩, rec⟩ := h
  have written (l : List Fld) (off : ∀ f ∈ l, g.place ≠ f.place) (t : State) :
      g.get (l.foldl (fun (f : State) x => f.wr x (s.rd x)) t).regs 0 0 = g.get t.regs 0 0 := by
    induction l generalizing t with
    | nil => rfl
    | cons x xs ih =>
      exact (ih (fun f mem => off f (List.mem_cons_of_mem _ mem)) _).trans
        (State.get_wr_place (off x List.mem_cons_self) t _ 0)
  have stuck (t : State) : g.get (t.keepStuck s).regs 0 0 = g.get t.regs 0 0 := by
    unfold State.keepStuck
    split
    · show g.get (((t.wr Reg.SYS_ISL_RUN_L (runBits s.stuckIsl 0)).wr Reg.SYS_ISL_RUN_H (runBits s.stuckIsl 8)).wr
        Reg.SYS_REC_STATE 3).regs 0 0 = _
      exact (State.get_wr_place rec ..).trans ((State.get_wr_place high ..).trans (State.get_wr_place low ..))
    · rfl
  have causeKept : g.place ≠ Reg.SYS_RST_CAUSE.place := kept _ (by simp [keptFields])
  unfold State.internalReset
  refine (State.get_wr_place causeKept ..).trans ((stuck _).trans ((written _ kept _).trans ?_))
  rfl

/-- What an internal reset for a cause leaves (R54, R55). -/
theorem State.internalReset_spec (s : State) {cause : Nat} (hold : Hold) (fits : cause < 8) :
    let t := s.internalReset cause hold
    t.rd Reg.SYS_RST_CAUSE = cause ∧ t.sys.hold = hold ∧ t.rd Reg.SYS_BOOT_STAGE = 0 ∧ t.on Reg.SYS_SEAL = false ∧
      t.aon = s.aon ∧ t.otp = s.otp ∧ t.nvm = s.nvm ∧ t.pending = s.pending ∧ t.car.nodeQs = [] ∧ t.ntb.slots = [] ∧
      t.sys.linkUp = false ∧ t.key.rawRoot = none := by
  have cause' := (s.internalReset_cause cause hold).trans (Nat.mod_eq_of_lt fits)
  have stage := s.internalReset_rst cause hold (g := Reg.SYS_BOOT_STAGE) (by decide)
  have sealed := s.internalReset_rst cause hold (g := Reg.SYS_SEAL) (by decide)
  obtain ⟨r, l, e⟩ := s.internalReset_bare cause hold
  refine ⟨cause', ?_, stage, ?_, ?_⟩
  · rw [e]; rfl
  · rw [State.on_get, sealed]; rfl
  · rw [e]
    exact ⟨rfl, rfl, rfl, rfl, rfl, rfl, rfl, rfl⟩

/-- A write elsewhere leaves it as it is whether the device is halted. -/
theorem State.halted_wr {f : Fld} (stage : Reg.SYS_BOOT_STAGE.place ≠ f.place) (mode : Reg.SYS_BOOT_MODE.place ≠ f.place)
    (lc : Reg.SYS_LC_STATE.place ≠ f.place) (s : State) (v : Nat) : (s.wr f v).halted = s.halted := by
  simp only [State.halted, State.testHalt, State.testMode, State.rd_get]
  rw [State.get_wr_place stage, State.get_wr_place mode, State.get_wr_place lc]

/-- The device once a reference clock is lost (R58). -/
def State.clockLost (s : State) (which : RefClk) : State :=
  match which with
  | .xo40 => ({ s with sys.xoOk := false } : State).wr Reg.SYS_XO40_OK 0
  | .sdref => ({ s with sys.sdOk := false } : State).wr Reg.SYS_SDREF_OK 0

theorem State.clockLost_keeps (s : State) (which : RefClk) :
    (s.clockLost which).sys.hold = s.sys.hold ∧ (s.clockLost which).halted = s.halted ∧ (s.clockLost which).aon = s.aon ∧
      (s.clockLost which).otp = s.otp ∧ (s.clockLost which).nvm = s.nvm ∧ (s.clockLost which).pending = s.pending := by
  cases which
  · exact ⟨rfl, State.halted_wr (by decide) (by decide) (by decide) _ _, rfl, rfl, rfl, rfl⟩
  · exact ⟨rfl, State.halted_wr (by decide) (by decide) (by decide) _ _, rfl, rfl, rfl, rfl⟩

theorem exec_clockLoss (s : State) (which : RefClk) :
    (s.sys.hold = .none → s.halted = false →
      exec (.clockLoss which) s = .next ((s.clockLost which).internalReset 1 .clock)) ∧
    (s.sys.hold = .thermal → exec (.clockLoss which) s = .next ((s.clockLost which).wr Reg.SYS_RST_CAUSE 1)) := by
  obtain ⟨kept, halted', -⟩ := s.clockLost_keeps which
  have form : exec (.clockLoss which) s = (match (s.clockLost which).sys.hold with
      | .none => .next (if (s.clockLost which).halted then s.clockLost which else (s.clockLost which).internalReset 1 .clock)
      | .thermal => .next ((s.clockLost which).wr Reg.SYS_RST_CAUSE 1)
      | _ => .next (s.clockLost which)) := by
    cases which <;> rfl
  rw [form, kept]
  refine ⟨fun hold halted => ?_, fun hold => ?_⟩
  · rw [hold]
    exact congrArg Host.Outcome.next (if_neg (by rw [halted', halted]; decide))
  · rw [hold]

theorem State.event_irq (s : State) (src : Nat) :
    (s.event src).irq = { s.irq with events := s.irq.events ++ [{ src := src, seq := s.localNext (srcIsl src) }] } := rfl

/-! ### The temperature -/

theorem State.showTemp_reads (s : State) (x : Int) {g : Fld} (h : g.place ≠ Reg.SYS_DIE_TEMP.place) :
    g.get (s.showTemp x).regs 0 0 = g.get s.regs 0 0 ∧ (s.showTemp x).irq = s.irq ∧
      unnumbered (s.showTemp x).sys = unnumbered { s.sys with temp := x, hotClear := false } ∧
      (s.showTemp x).sys.localSeq = s.sys.localSeq ∧ (s.showTemp x).aon = s.aon ∧ (s.showTemp x).otp = s.otp ∧
      (s.showTemp x).nvm = s.nvm ∧ (s.showTemp x).pending = s.pending := by
  unfold State.showTemp
  dsimp only
  split
  · exact ⟨State.get_wr_place h .., rfl, rfl, rfl, rfl, rfl, rfl, rfl⟩
  · exact ⟨State.get_wr_place h .., rfl, rfl, rfl, rfl, rfl, rfl, rfl⟩

theorem toInt_emod (b : Byte) : (b.toInt % 256).toNat = b.toNat := by
  have lt := b.isLt
  rw [BitVec.toInt_eq_toNat_cond]
  split <;> omega

theorem State.showTemp_byte (s : State) (b : Byte) :
    s.showTemp b.toInt = ({ s with sys.temp := b.toInt, sys.hotClear := false } : State).wr Reg.SYS_DIE_TEMP b.toNat := by
  have low := BitVec.le_toInt b
  have high := BitVec.toInt_lt (x := b)
  unfold State.showTemp
  dsimp only
  rw [if_pos (by simp only [Bool.and_eq_true, decide_eq_true_eq]; omega), toInt_emod]

/-- A running device at 135 °C or above resets (R63). -/
theorem exec_dieTempUpdate_running (s : State) (x : Int) (hold : s.sys.hold = .none) (halted : s.halted = false) :
    exec (.dieTempUpdate x) s = .next
      (if 135 ≤ x then (s.showTemp x).internalReset 5 .thermal
       else if s.rdS Reg.SYS_TEMP_WARN ≤ x then (s.showTemp x).ev Reg.SYS_THERM_WARN 0 17 else s.showTemp x) := by
  have warn : (s.showTemp x).rdS Reg.SYS_TEMP_WARN = s.rdS Reg.SYS_TEMP_WARN :=
    State.rdS_congr (s.showTemp_reads x (by decide)).1
  simp only [exec, execDieTempUpdate, hold, halted, warn, Bool.not_false, Bool.and_true, decide_eq_true_eq,
    Bool.false_eq_true, if_false]
  split
  · rfl
  · split <;> rfl

/-- Settles O45: each cause runs its own guard into an internal reset, which leaves what `internalReset_spec` says. -/
theorem internalResets : Obligations.InternalResets := by
  intro s hold halted
  have up : s.up = true := decide_eq_true hold
  have runs : ¬(!s.up || s.halted) = true := by rw [up, halted]; decide
  refine ⟨⟨_, if_neg runs, s.internalReset_spec .none (by decide)⟩, ⟨_, if_neg runs, s.internalReset_spec .none (by decide)⟩,
    fun stage apart => ?_, ?_, ?_, fun x hot => ?_, fun x cool => ?_, fun x cool warm => ?_⟩
  · have differ : (decide (s.otp.lc0 = s.otp.lc1) && decide (s.otp.lc1 = s.otp.lc2)) = false := by
      rw [Bool.and_eq_false_iff, decide_eq_false_iff_not, decide_eq_false_iff_not]
      exact apart
    refine ⟨_, (if_neg runs).trans ((if_neg (by omega)).trans (congrArg Host.Outcome.next (if_neg ?_))),
      s.internalReset_spec .none (by decide)⟩
    rw [differ]
    simp
  · exact ⟨_, (exec_clockLoss s .xo40).1 hold halted, State.internalReset_spec _ .clock (by decide)⟩
  · exact ⟨_, (exec_clockLoss s .sdref).1 hold halted, State.internalReset_spec _ .clock (by decide)⟩
  · obtain ⟨-, -, -, -, aon, otp, nvm, pending⟩ := s.showTemp_reads x (g := Reg.SYS_BOOT_STAGE) (by decide)
    refine ⟨_, (exec_dieTempUpdate_running s x hold halted).trans (congrArg Host.Outcome.next (if_pos hot)), ?_⟩
    obtain ⟨cause, hold', stage, seal', aon', otp', nvm', pending', rest⟩ := (s.showTemp x).internalReset_spec (cause := 5) .thermal (by decide)
    exact ⟨cause, hold', stage, seal', aon'.trans aon, otp'.trans otp, nvm'.trans nvm, pending'.trans pending, rest⟩
  · have low := BitVec.toInt_lt (x := x)
    rw [exec_dieTempUpdate_running s _ hold halted, if_neg (by omega), if_neg (by omega), State.showTemp_byte]
  · refine ⟨_, (exec_dieTempUpdate_running s x hold halted).trans
      (congrArg Host.Outcome.next ((if_neg (by omega)).trans (if_pos warm))), State.ev_testBit _ 17 (by decide), ?_, fun b is => ?_⟩
    · obtain ⟨warn, irq, -, seq, -⟩ := s.showTemp_reads x (g := Reg.SYS_THERM_WARN) (by decide)
      have now : (s.showTemp x).rd Reg.SYS_THERM_WARN = s.rd Reg.SYS_THERM_WARN := warn
      have next : ((s.showTemp x).wr Reg.SYS_THERM_WARN (s.rd Reg.SYS_THERM_WARN + 2 ^ 0)).localNext (srcIsl 17) =
          s.localNext (srcIsl 17) := by
        unfold State.localNext
        rw [show ((s.showTemp x).wr Reg.SYS_THERM_WARN (s.rd Reg.SYS_THERM_WARN + 2 ^ 0)).sys = (s.showTemp x).sys from rfl, seq]
      have same : ((s.showTemp x).wr Reg.SYS_THERM_WARN (s.rd Reg.SYS_THERM_WARN + 2 ^ 0)).irq = s.irq := irq
      unfold State.ev
      rw [now]
      split
      · exact irq
      · rw [State.event_irq, State.event_irq, same, Nat.add_zero, next]
    · subst is
      rw [State.rd_get, State.get_ev_place (by decide), State.showTemp_byte]
      exact (State.rd_wr_same _ Reg.SYS_DIE_TEMP _).trans (Nat.mod_eq_of_lt b.isLt)

end Sys2Proof.Machine

/-!
PROOF. Holds, pins, the always-on domain's supply and the PCIe link (O46, R49, R50, R54, R57 to R59, R63, R64, R381, R435,
R449, R462).
-/

namespace Sys2Proof.Machine

/-! ### PORST_N -/

/-- PORST_N low leaves the bare device, with the two bits of the always-on domain's supply (R54). -/
theorem exec_porstAssert (s : State) :
    ∃ t, exec .porstAssert s = .next t ∧ (∃ r, t = { s.bare .porst with regs := r }) ∧ t.rd Reg.SYS_BOOT_STAGE = 0 ∧
      t.rd Reg.SYS_RST_CAUSE = 0 := by
  refine ⟨_, rfl, ⟨_, rfl⟩, ?_, ?_⟩
  · exact (State.get_wr_place (f := Reg.SYS_AON_SRC) (by decide) ..).trans
      ((State.get_wr_place (f := Reg.SYS_VBAT_OK) (by decide) ..).trans rfl)
  · exact (State.get_wr_place (f := Reg.SYS_AON_SRC) (by decide) ..).trans
      ((State.get_wr_place (f := Reg.SYS_VBAT_OK) (by decide) ..).trans rfl)

/-- PORST_N's rise latches the straps (R57). -/
theorem exec_porstRise (s : State) (mode : BitVec 2) (twin : Bool) (hold : s.sys.hold = .porst) :
    ∃ t, exec (.porstRise mode twin) s = .next t ∧ t.sys.hold = .none ∧ t.rd Reg.SYS_BOOT_MODE = mode.toNat ∧
      t.rd Reg.SYS_TWIN_ID = (if twin then 1 else 0) := by
  have straps := State.rd_wr_same s Reg.SYS_BOOT_MODE mode.toNat
  have id := State.rd_wr_same (s.wr Reg.SYS_BOOT_MODE mode.toNat) Reg.SYS_TWIN_ID (b2n twin)
  refine ⟨_, if_neg (not_not_intro hold), rfl, ?_, ?_⟩
  · refine (State.get_wr_place (f := Reg.SYS_SDREF_OK) (by decide) ..).trans
      ((State.get_wr_place (f := Reg.SYS_XO40_OK) (by decide) ..).trans
        ((State.get_wr_place (f := Reg.SYS_TWIN_ID) (by decide) ..).trans (straps.trans ?_)))
    exact Nat.mod_eq_of_lt mode.isLt
  · refine (State.get_wr_place (f := Reg.SYS_SDREF_OK) (by decide) ..).trans
      ((State.get_wr_place (f := Reg.SYS_XO40_OK) (by decide) ..).trans (id.trans ?_))
    cases twin <;> rfl

/-! ### PERST_N -/

/-- The device once PERST_N has taken the link down (R59, R435). -/
def State.linkLost (s : State) : State :=
  ({ s with
    sys.perst := true
    hst.pcie := PcieCfg.empty
    irq.table := IrqSt.noTable
    sys.linkUp := false
    irq.msixEn := false
    irq.msixMask := false
    irq.vecMask := 0xFFFF
    irq.pba := 0 } : State).wr Reg.HST_PCIE_STAT 0

theorem State.linkLost_keeps (s : State) :
    s.linkLost.up = s.up ∧ s.linkLost.live = s.live ∧ s.linkLost.runs .HST = s.runs .HST ∧
      s.linkLost.rd Reg.SYS_REC_STATE = s.rd Reg.SYS_REC_STATE ∧ s.linkLost.rd Reg.SYS_ISL_FLT_H = s.rd Reg.SYS_ISL_FLT_H := by
  have kept {g : Fld} (h : g.place ≠ Reg.HST_PCIE_STAT.place) : g.get s.linkLost.regs 0 0 = g.get s.regs 0 0 :=
    State.get_wr_place h ..
  refine ⟨rfl, ?_, State.runs_of_rd (kept (by decide)) (kept (by decide)) _, kept (by decide), kept (by decide)⟩
  unfold State.live
  simp only [State.on_get]
  rw [kept (by decide)]

theorem exec_perstAssert (s : State) (host : s.headless = false) :
    exec .perstAssert s = .next
      (if s.up && s.live && s.runs .HST then
        (let t := s.linkLost.openGen Isl.HST.num 0
         if t.rd Reg.SYS_REC_STATE = 3 then t else t.wr Reg.SYS_REC_STATE 1).stopHst
       else s.linkLost) := by
  obtain ⟨up, live, runs, -⟩ := s.linkLost_keeps
  have form : exec .perstAssert s = (if s.headless then .next { s with sys.perst := true }
      else if s.linkLost.up && s.linkLost.live && s.linkLost.runs .HST then .next
        (let t := s.linkLost.openGen Isl.HST.num 0
         if t.rd Reg.SYS_REC_STATE = 3 then t else t.wr Reg.SYS_REC_STATE 1).stopHst
      else .next s.linkLost) := rfl
  rw [form, host, up, live, runs, if_neg (by decide)]
  split <;> rfl

/-- A recovery generation opens for HST where none is open (R413). -/
theorem State.openGen_new (s : State) (isl cause : Nat) (closed : s.rd Reg.SYS_REC_STATE = 0) (fits : isl < 16) :
    (s.openGen isl cause).rd Reg.SYS_REC_STATE = 0 ∧ (s.openGen isl cause).rd Reg.SYS_REC_ISL = isl ∧
      (s.openGen isl cause).rd Reg.SYS_REC_CAUSE = cause % 8 ∧
      (∀ g : Fld, g.place ≠ Reg.SYS_REC_GEN.place → g.place ≠ Reg.SYS_REC_ISL.place → g.place ≠ Reg.SYS_REC_CAUSE.place →
        g.get (s.openGen isl cause).regs 0 0 = g.get s.regs 0 0) ∧
      ∃ r, s.openGen isl cause = { s with regs := r, sys.fltCount := [] } := by
  have form : s.openGen isl cause =
      { ((s.wrap Reg.SYS_REC_GEN).wr Reg.SYS_REC_ISL isl).wr Reg.SYS_REC_CAUSE cause with sys.fltCount := [] } := if_pos closed
  have kept (g : Fld) (gen : g.place ≠ Reg.SYS_REC_GEN.place) (island : g.place ≠ Reg.SYS_REC_ISL.place)
      (cause' : g.place ≠ Reg.SYS_REC_CAUSE.place) : g.get (s.openGen isl cause).regs 0 0 = g.get s.regs 0 0 := by
    rw [form]
    exact (State.get_wr_place cause' ..).trans ((State.get_wr_place island ..).trans (Fld.get_put_place gen ..))
  refine ⟨(kept _ (by decide) (by decide) (by decide)).trans closed, ?_, ?_, kept, ?_⟩
  · rw [form]
    exact (State.get_wr_place (f := Reg.SYS_REC_CAUSE) (by decide) ..).trans
      ((State.rd_wr_same (s.wrap Reg.SYS_REC_GEN) Reg.SYS_REC_ISL isl).trans (Nat.mod_eq_of_lt fits))
  · rw [form]
    exact State.rd_wr_same ((s.wrap Reg.SYS_REC_GEN).wr Reg.SYS_REC_ISL isl) Reg.SYS_REC_CAUSE cause
  · rw [form]
    exact ⟨_, rfl⟩

/-! ### The table ring's results -/

@[simp] theorem State.ringDone_sys (s : State) (ring : Nat) : unnumbered (s.ringDone ring).sys = unnumbered s.sys := rfl

/-- Results that leave touch no slot and no part of SYS but its numbers (R386). -/
theorem State.flushTbl_spec (s : State) :
    unnumbered s.flushTbl.sys = unnumbered s.sys ∧ s.flushTbl.ntb.slots = s.ntb.slots ∧
      (s.ntb.done = [] → s.flushTbl.regs = s.regs) := by
  have wrote (t : State) (d : TblDone) : unnumbered (t.writeTblDone d).sys = unnumbered t.sys := by
    unfold State.writeTblDone
    dsimp only
    split <;> rfl
  unfold State.flushTbl
  dsimp only
  split
  · refine ⟨?_, ?_, fun empty => ?_⟩
    · exact foldl_keeps (fun (t : State) => unnumbered t.sys) _ _ _ wrote
    · exact foldl_keeps (fun (t : State) => t.ntb.slots) _ _ _ (fun t d => by simp)
    · rw [empty]; rfl
  · exact ⟨rfl, rfl, fun _ => rfl⟩

/-- Settles O46: each pin by its guard; the link's results by `flushTbl_spec`. -/
theorem holdsAndPins : Obligations.HoldsAndPins := by
  refine ⟨fun s => ⟨?_, fun m tw hold => exec_porstRise s m tw hold, fun x hold xo sd => ?_, fun hold => ?_, fun hold => ?_, rfl⟩,
    fun s => ⟨rfl, fun a b => ?_⟩, fun s => ⟨fun headless => ?_, fun host idle => ?_, fun host live hold run closed => ?_⟩,
    fun s sp w => ⟨fun hold perst host test stage speed width => ?_, fun test => ?_⟩⟩
  · obtain ⟨t, ex, ⟨r, e⟩, stage, cause⟩ := exec_porstAssert s
    refine ⟨t, ex, ?_⟩
    subst e
    exact ⟨rfl, rfl, rfl, rfl, rfl, stage, cause, rfl, rfl⟩
  · have now : s.holdNow = .none := if_pos (by rw [xo, sd]; rfl)
    simp only [exec, execDieTempUpdate, hold, now]
  · obtain ⟨kept, -⟩ := s.clockLost_keeps .xo40
    exact ⟨_, (exec_clockLoss s .xo40).2 hold, kept.trans hold, rfl, State.rd_wr_same _ Reg.SYS_RST_CAUSE 1⟩
  · have after : ∀ u : State, u.sys.hold = .clock → u.sys.xoOk = true → u.sys.sdOk = true →
        (if u.sys.hold = .clock then { u with sys.hold := .none } else u : State).sys.hold = .none ∧
          (if u.sys.hold = .clock then { u with sys.hold := .none } else u : State).sys.xoOk = true ∧
          (if u.sys.hold = .clock then { u with sys.hold := .none } else u : State).sys.sdOk = true := by
      intro u clock xo sd
      rw [if_pos clock]
      exact ⟨rfl, xo, sd⟩
    have notPorst : ¬({ s with sys.xoOk := true, sys.sdOk := true } : State).sys.hold = .porst := by
      show ¬s.sys.hold = .porst
      rw [hold]
      decide
    refine ⟨_, rfl, ?_⟩
    rw [if_neg notPorst]
    exact after _ hold rfl rfl
  · cases a <;> cases b <;> rfl
  · exact if_pos headless
  · rw [exec_perstAssert s host, if_neg]
    · rfl
    · obtain off | off := idle <;> rw [off] <;> simp
  · have up : s.up = true := decide_eq_true hold
    obtain ⟨-, -, -, rec, flt⟩ := s.linkLost_keeps
    obtain ⟨still, isl, -, kept, r, e⟩ := s.linkLost.openGen_new Isl.HST.num 0 (rec.trans closed) (by decide)
    rw [exec_perstAssert s host, if_pos (by rw [up, live, run]; rfl)]
    refine ⟨_, rfl, (s.linkLost.openGen Isl.HST.num 0).wr Reg.SYS_REC_STATE 1, ?_, ?_, ?_, ?_, ?_, ?_, ?_⟩
    · dsimp only
      rw [if_neg (by rw [still]; decide)]
    · rw [e]; rfl
    · rw [e]; rfl
    · exact State.rd_wr_same _ Reg.SYS_REC_STATE 1
    · exact (State.get_wr_place (f := Reg.SYS_REC_STATE) (by decide) ..).trans isl
    · rw [e]; rfl
    · exact (State.get_wr_place (f := Reg.SYS_REC_STATE) (by decide) ..).trans
        ((kept Reg.SYS_ISL_FLT_H (by decide) (by decide) (by decide)).trans flt)
  · have up : s.up = true := decide_eq_true hold
    have may : (s.up && !s.sys.perst && !s.headless && !s.testMode && decide (2 ≤ s.rd Reg.SYS_BOOT_STAGE) && decide (sp ≠ 0) &&
        (decide (w = 1) || decide (w = 2))) = true := by
      rw [up, perst, host, test]
      simpa using ⟨⟨stage, speed⟩, width⟩
    obtain ⟨sys, slots, shown⟩ := State.flushTbl_spec
      (({ s with sys.linkUp := true } : State).wr Reg.HST_PCIE_STAT (sp.toNat + 4 * w.toNat + 16))
    obtain ⟨l, sys'⟩ := sys_of_unnumbered sys
    refine ⟨_, if_pos may, by rw [sys']; rfl, slots, fun empty => ?_⟩
    rw [State.rd_get, shown empty]
    refine (State.rd_wr_same _ Reg.HST_PCIE_STAT _).trans (Nat.mod_eq_of_lt (show _ < 2 ^ 5 from ?_))
    have := sp.isLt
    have := w.isLt
    omega
  · exact if_neg (by rw [test]; simp)

end Sys2Proof.Machine

/-!
PROOF. Boot stages 1 to 6 (O47, O48, R50, R71, R84, R286, R307, R320, R321).
-/

namespace Sys2Proof.Machine

/-! ### Stage 1 over a register file out of form -/

/-- Ready for stage 1 after a loss of retention, with a register file that lists 3 for the one-bit field VBAT_LOST. -/
def vbatLostThree : State :=
  { State.reset with
    sys := { State.reset.sys with hold := .none }
    aon := { State.reset.aon with lost := true }
    regs := [(Reg.SYS_VBAT_LOST.key 0 0, 3)] }

/-- The event's bit is set already, so stage 1 leaves the 3. -/
theorem vbatLostThree_reads :
    (Outcome.get (exec .stage1TamperRead vbatLostThree) vbatLostThree).on Reg.SYS_VBAT_LOST = false := by
  decide +kernel

/-- Refutes O47: stage 1 after a loss of retention raises the event of VBAT_LOST, which does nothing where the event's bit is
set; over a register file that lists 3 for that one-bit field the field reads 3 after it, and not 1. -/
theorem not_bootFirst : ¬ Obligations.BootFirst := by
  intro h
  obtain ⟨t, ex, -, -, -, shown⟩ := (h vbatLostThree rfl (by decide)).1 rfl |>.2 rfl
  have reads := vbatLostThree_reads
  rw [ex] at reads
  exact absurd (reads.symm.trans shown) (by decide)

/-! ### Stage 5 -/

theorem State.atStage_of (s : State) {n : Nat} (hold : s.sys.hold = .none) (halted : s.halted = false)
    (stage : s.rd Reg.SYS_BOOT_STAGE = n) : s.atStage n = true := by
  have up : s.up = true := decide_eq_true hold
  rw [State.atStage, up, halted, stage]
  simp

/-- The records of an image do not depend on the registers (R72). -/
theorem State.cfgParse_regs (s : State) (r : List (Nat × Nat)) (base len fuel o : Nat) :
    State.cfgParse { s with regs := r } base len fuel o = s.cfgParse base len fuel o := by
  induction fuel generalizing o with
  | zero => rfl
  | succ fuel ih =>
    have record : State.cfgRecord { s with regs := r } base o len = s.cfgRecord base o len := rfl
    unfold State.cfgParse
    rw [record]
    split
    · rfl
    · split
      · rfl
      · rw [ih]

/-- Nor do the checks of a staged image (R320). -/
theorem State.stgCheck_regs (s : State) (r : List (Nat × Nat)) (v : Verdict) :
    State.stgCheck { s with regs := r } v = s.stgCheck v := by
  have records : State.cfgOps { s with regs := r } stagingBase = s.cfgOps stagingBase := State.cfgParse_regs ..
  unfold State.stgCheck
  rw [records]
  rfl

/-- The codes that a check of R320 leaves fit their field. -/
theorem State.stgCheck_lt (s : State) (v : Verdict) {why : Nat} (fails : s.stgCheck v = some why) : why < 8 := by
  unfold State.stgCheck at fails
  split at fails
  · cases fails; decide
  · split at fails
    · cases fails; decide
    · split at fails
      · cases fails; decide
      · split at fails
        · split at fails
          · cases fails; decide
          · cases fails
        · split at fails
          · cases fails; decide
          · cases fails

/-- The device at stage 5 with the kind of the staged image shown (R320). -/
def State.stage5 (s : State) : State :=
  let t := s.wr Reg.SYS_BOOT_STAGE 5
  if t.imgFormat stagingBase then t.wr Reg.SYS_STG_KIND (t.imgKind stagingBase) else t

theorem State.stage5_spec (s : State) :
    s.stage5.rd Reg.SYS_BOOT_STAGE = 5 ∧ s.stage5.nvm = s.nvm ∧ ∃ r, s.stage5 = { s with regs := r } := by
  have shown := State.rd_wr_same s Reg.SYS_BOOT_STAGE 5
  unfold State.stage5
  dsimp only
  split
  · exact ⟨(State.get_wr_place (by decide) ..).trans shown, rfl, _, rfl⟩
  · exact ⟨shown, rfl, _, rfl⟩

theorem exec_stage5StagingCopy (s : State) (v : Verdict) (at' : s.atStage 4 = true) :
    (s.stgByte ≠ 0x3F → s.stgByte ≠ 0x1F → exec (.stage5StagingCopy v) s = .next (s.wr Reg.SYS_BOOT_STAGE 5)) ∧
    (s.stgByte = 0x3F ∨ s.stgByte = 0x1F →
      (∀ why, s.stgCheck v = some why → exec (.stage5StagingCopy v) s =
        .next (((s.stage5.setStg 0x07).wr Reg.SYS_STG_REJ_WHY why).wr Reg.SYS_STG_REJ 1)) ∧
      (s.stgCheck v = none → exec (.stage5StagingCopy v) s = .next s.stage5.copyImage)) := by
  have check : s.stage5.stgCheck v = s.stgCheck v := by
    obtain ⟨-, -, r, e⟩ := s.stage5_spec
    rw [e, State.stgCheck_regs]
  have staged : (s.wr Reg.SYS_BOOT_STAGE 5).stgByte = s.stgByte := rfl
  have form : exec (.stage5StagingCopy v) s = (if s.atStage 4 then
      if (s.wr Reg.SYS_BOOT_STAGE 5).stgByte ≠ 0x3F && (s.wr Reg.SYS_BOOT_STAGE 5).stgByte ≠ 0x1F then
        .next (s.wr Reg.SYS_BOOT_STAGE 5)
      else match s.stage5.stgCheck v with
        | some why => .next (((s.stage5.setStg 0x07).wr Reg.SYS_STG_REJ_WHY why).wr Reg.SYS_STG_REJ 1)
        | none => .next s.stage5.copyImage
      else .next s) := rfl
  rw [form, if_pos at', staged, check]
  refine ⟨fun no no' => ?_, fun yes => ?_⟩
  · rw [if_pos (by simpa using ⟨no, no'⟩)]
  · have gate : ¬(decide (s.stgByte ≠ 0x3F) && decide (s.stgByte ≠ 0x1F)) = true := by
      simp only [Bool.and_eq_true, decide_eq_true_eq]
      tauto
    rw [if_neg gate]
    exact ⟨fun why fails => by rw [fails], fun passes => by rw [passes]⟩

/-- A copy whose checks pass is marked (R84). -/
theorem State.copyImage_copied (s : State) {m' : List Host.Cell}
    (copied : copySectors (s.imgByte stagingBase 4) (if s.imgKind stagingBase = 1 then fwBase else cfgBase)
      (s.imgNum stagingBase 0xC 4) (s.setStg 0x1F).nvm.bytes
      (sectorsLeft (s.setStg 0x1F).nvm.bytes (ceilDiv (s.imgNum stagingBase 0xC 4) 0x10000)) = (true, m'))
    (sound : s.imgByte stagingBase 4 = 2 ∨
      readsBack (if s.imgKind stagingBase = 1 then fwBase else cfgBase) m' 0 (s.imgNum stagingBase 0xC 4) = true) :
    s.copyImage.on Reg.SYS_STG_COPIED = true ∧ s.copyImage.nvm.bytes = nvmProg m' 0x100 0x0F := by
  unfold State.copyImage
  dsimp only
  rw [copied, if_pos (by simpa using sound)]
  refine ⟨?_, rfl⟩
  rw [State.on_get, decide_eq_true_eq]
  exact State.rd_wr_same _ Reg.SYS_STG_COPIED 1

theorem State.copyImage_stage (s : State) : s.copyImage.rd Reg.SYS_BOOT_STAGE = s.rd Reg.SYS_BOOT_STAGE := by
  have marked (p : Bool) (u : State) : (if p then (u.setStg 0x0F).wr Reg.SYS_STG_COPIED 1 else u).rd Reg.SYS_BOOT_STAGE =
      u.rd Reg.SYS_BOOT_STAGE := by
    split
    · exact State.get_wr_place (f := Reg.SYS_STG_COPIED) (by decide) ..
    · rfl
  exact marked _ _

/-! ### Stage 6 -/

/-- The device at stage 6 with its firmware taken (R321). -/
def State.stage6 (s : State) : State :=
  let t := s.wr Reg.SYS_BOOT_STAGE 6
  let u := { t with
    otp.arb := t.imgByte fwBase 6
    sys.fwHeader := nvmReads t.nvm.bytes fwBase 64 }
  (u.wr Reg.SYS_FW_ARB (t.imgByte fwBase 6)).wr Reg.SYS_FW_BUILD (u.imgNum fwBase 8 4)

theorem exec_stage6FwVerify (s : State) (v : Verdict) (puf slot4 : Bool) (at' : s.atStage 5 = true) :
    let good := s.imgFormat fwBase = true ∧ s.imgKind fwBase = 1 ∧ v.digestOk = true ∧ s.imgSigned fwBase v = true
    (¬good → exec (.stage6FwVerify v puf slot4) s = .next ((s.wr Reg.SYS_BOOT_STAGE 6).halt 3)) ∧
    (good → s.imgByte fwBase 6 < s.otp.arb →
      exec (.stage6FwVerify v puf slot4) s = .next ((s.wr Reg.SYS_BOOT_STAGE 6).halt 4)) ∧
    (good → s.otp.arb ≤ s.imgByte fwBase 6 → exec (.stage6FwVerify v puf slot4) s = .next
      (match s.nvm.kuMove with
        | some b => (s.stage6.unwrap puf slot4).transition b
        | none => s.stage6.unwrap puf slot4)) := by
  have move : (s.stage6.unwrap puf slot4).nvm.kuMove = s.nvm.kuMove := by
    simp only [State.unwrap_keeps]
    rfl
  have form : exec (.stage6FwVerify v puf slot4) s = (if s.atStage 5 then
      if !s.imgFormat fwBase || s.imgKind fwBase ≠ 1 || !v.digestOk || !s.imgSigned fwBase v then
        .next ((s.wr Reg.SYS_BOOT_STAGE 6).halt 3)
      else if s.imgByte fwBase 6 < s.otp.arb then .next ((s.wr Reg.SYS_BOOT_STAGE 6).halt 4)
      else match (s.stage6.unwrap puf slot4).nvm.kuMove with
        | some b => .next ((s.stage6.unwrap puf slot4).transition b)
        | none => .next (s.stage6.unwrap puf slot4)
      else .next s) := rfl
  have bad (good : s.imgFormat fwBase = true ∧ s.imgKind fwBase = 1 ∧ v.digestOk = true ∧ s.imgSigned fwBase v = true) :
      ¬(!s.imgFormat fwBase || decide (s.imgKind fwBase ≠ 1) || !v.digestOk || !s.imgSigned fwBase v) = true := by
    obtain ⟨format, kind, digest, sign⟩ := good
    rw [format, kind, digest, sign]
    decide
  rw [form, if_pos at', move]
  refine ⟨fun no => ?_, fun good older => ?_, fun good new => ?_⟩
  · refine if_pos ?_
    simp only [Bool.or_eq_true, Bool.not_eq_true', decide_eq_true_eq, ← Bool.not_eq_true]
    tauto
  · rw [if_neg (bad good), if_pos older]
  · rw [if_neg (bad good), if_neg (by omega)]
    split <;> rfl

theorem State.stage6_spec (s : State) :
    s.stage6.rd Reg.SYS_BOOT_STAGE = 6 ∧ s.stage6.rd Reg.SYS_FW_ARB = s.imgByte fwBase 6 ∧
      s.stage6.otp = { s.otp with arb := s.imgByte fwBase 6 } ∧ s.stage6.key = s.key := by
  refine ⟨?_, ?_, rfl, rfl⟩
  · exact (State.get_wr_place (f := Reg.SYS_FW_BUILD) (by decide) ..).trans
      ((State.get_wr_place (f := Reg.SYS_FW_ARB) (by decide) ..).trans (State.rd_wr_same s Reg.SYS_BOOT_STAGE 6))
  · refine (State.get_wr_place (f := Reg.SYS_FW_BUILD) (by decide) ..).trans ((State.rd_wr_same _ Reg.SYS_FW_ARB _).trans ?_)
    exact Nat.mod_eq_of_lt (nvmRead s.nvm.bytes (fwBase + 6)).isLt

/-- The root is unwrapped, or KSTATE reads PUF_FAIL (R286). -/
theorem State.unwrap_spec (s : State) (puf slot4 : Bool) :
    (s.unwrap puf slot4).otp = s.otp ∧
      (∀ g : Fld, g.place ≠ Reg.KEY_KSTATE.place → g.get (s.unwrap puf slot4).regs 0 0 = g.get s.regs 0 0) ∧
      (∀ p, puf = true → s.key.captured = true → s.otp.helper = some p →
        ({ s with key.pufKey := some p } : State).rootOf.isSome = true →
        (s.unwrap puf slot4).key.pufKey = some p ∧
          (s.unwrap puf slot4).key.rawRoot = ({ s with key.pufKey := some p } : State).rootOf) ∧
      (puf = false → (s.unwrap puf slot4).rd Reg.KEY_KSTATE = 4) := by
  refine ⟨?_, fun g off => ?_, fun p ok captured helper root => ?_, fun fails => ?_⟩
  · simp
  · have either (p : Bool) (a b : State) (same : a.regs = s.regs) (same' : b.regs = s.regs) :
        g.get (if p then a else b.wr Reg.KEY_KSTATE 4).regs 0 0 = g.get s.regs 0 0 := by
      split
      · rw [same]
      · rw [State.get_wr_place off, same']
    exact either _ _ _ rfl rfl
  · have held : (if (puf && s.key.captured) = true then s.otp.helper else none) = some p := by
      rw [ok, captured, helper]
      rfl
    unfold State.unwrap
    rw [held]
    dsimp only
    rw [if_pos (by rw [Option.isSome_some, Bool.true_and]; exact root)]
    exact ⟨rfl, rfl⟩
  · subst fails
    unfold State.unwrap
    exact State.rd_wr_same _ Reg.KEY_KSTATE 4

/-- Settles O48: stage 5 by STG_STATE and the first check that fails; stage 6 by the firmware's checks, its age and the move
that was cut off. -/
theorem bootImages : Obligations.BootImages := by
  intro s v hold halted
  refine ⟨fun stage => ?_, fun puf slot4 stage => ?_⟩
  · obtain ⟨alone, checked⟩ := exec_stage5StagingCopy s v (s.atStage_of hold halted stage)
    obtain ⟨stage5, nvm, r, e⟩ := s.stage5_spec
    refine ⟨alone, fun why yes fails => ?_, fun yes passes => ⟨_, (checked yes).2 passes, ?_, fun m' copied sound => ?_⟩⟩
    · refine ⟨_, (checked yes).1 why fails, ?_, ?_, ?_, ?_⟩
      · exact (State.get_wr_place (f := Reg.SYS_STG_REJ) (by decide) ..).trans
          ((State.get_wr_place (f := Reg.SYS_STG_REJ_WHY) (by decide) ..).trans stage5)
      · show (nvmRead (nvmProg s.stage5.nvm.bytes 0x100 0x07) 0x100).toNat = 0x07
        have now : nvmRead s.nvm.bytes 0x100 = 0x3F ∨ nvmRead s.nvm.bytes 0x100 = 0x1F :=
          yes.imp BitVec.eq_of_toNat_eq BitVec.eq_of_toNat_eq
        rw [nvm, nvmRead_prog_same]
        obtain now | now := now <;> rw [now] <;> rfl
      · rw [State.on_get, decide_eq_true_eq]
        exact State.rd_wr_same _ Reg.SYS_STG_REJ 1
      · exact (State.get_wr_place (f := Reg.SYS_STG_REJ) (by decide) ..).trans
          ((State.rd_wr_same _ Reg.SYS_STG_REJ_WHY why).trans (Nat.mod_eq_of_lt (s.stgCheck_lt v fails)))
    · exact s.stage5.copyImage_stage.trans stage5
    · have same : s.stage5.setStg 0x1F = { s.setStg 0x1F with regs := r } := by rw [e]; rfl
      refine s.stage5.copyImage_copied ?_ ?_
      · rw [e]; exact copied
      · rw [e]; exact sound
  · obtain ⟨bad, old, taken⟩ := exec_stage6FwVerify s v puf slot4 (s.atStage_of hold halted stage)
    obtain ⟨shown, arb, otp, key⟩ := s.stage6_spec
    obtain ⟨otp', kept, root, fails⟩ := s.stage6.unwrap_spec puf slot4
    refine ⟨fun no => ⟨_, bad no, State.halt_reads _ 3⟩, fun good older => ⟨_, old good older, State.halt_reads _ 4⟩,
      fun good new none' => ?_, fun b good new some' => ?_⟩
    · refine ⟨_, (taken good new).trans (by rw [none']), ?_, otp'.trans otp, ?_, fun p ok captured helper is => ?_, fails⟩
      · exact (kept _ (by decide)).trans shown
      · exact (kept _ (by decide)).trans arb
      · exact root p ok captured helper is
    · obtain ⟨-, copies, move, cause, -⟩ := (s.stage6.unwrap puf slot4).transition_spec b
      refine ⟨_, (taken good new).trans (by rw [some']), cause, ?_, move, copies⟩
      rw [State.transition_otp, otp', otp]
      rfl

end Sys2Proof.Machine

/-!
PROOF. Host writes and reads (O50, R5 to R9, R34, R79, R85, R421, R422, R462).
-/

namespace Sys2Proof.Machine

/-! ### Writes that may not take effect -/

/-- A write that is no REC_ACK under a register fence goes the common way (R422). -/
theorem State.hostWrite_common (s : State) (a v : Nat) (other : ¬(a = 0x78 ∧ s.runs .HST = true) ∨ s.on Reg.SYS_REGW_FENCED = false) :
    s.hostWrite a v = s.hostOp (islOf a) (fun t => t.hostByte a v) := by
  refine if_neg ?_
  simp only [Bool.and_eq_true, decide_eq_true_eq]
  rintro ⟨⟨⟨⟨ack, -⟩, -⟩, run⟩, fenced⟩
  obtain other | other := other
  · exact other ⟨ack, run⟩
  · rw [other] at fenced
    exact absurd fenced (by decide)

/-- What the gate of a host write of one byte does where the write may not take effect (R34, R85, R421, R462). -/
theorem State.hostOp_shut (s : State) (isl : Isl) (f : State → State) :
    (s.sys.linkUp = false → s.hostOp isl f = s) ∧
    (s.sys.linkUp = true → s.live = false → s.hostOp isl f = s.bump Reg.SYS_HOSTWR_DROP) ∧
    (s.sys.linkUp = true → s.live = true → s.on Reg.SYS_REGW_FENCED = true → s.hostOp isl f = s.bump Reg.SYS_FENCED_OTHER) ∧
    (s.sys.linkUp = true → s.live = true → s.on Reg.SYS_REGW_FENCED = false → s.runs isl = false ∨ s.runs .HST = false →
      s.hostOp isl f = ((s.wr Reg.SYS_REGW_FENCED 1).wr Reg.SYS_REGW_RESUME s.sys.regW.toNat).bump Reg.SYS_FENCED_OTHER) := by
  unfold State.hostOp State.hostGate
  refine ⟨fun link => ?_, fun link live => ?_, fun link live fenced => ?_, fun link live fenced stopped => ?_⟩
  · rw [link]; rfl
  · rw [link, live]; rfl
  · rw [link, live, fenced]; rfl
  · have no : (s.runs isl && s.runs .HST) = false := by
      rw [Bool.and_eq_false_iff]
      exact stopped
    rw [link, live, fenced, no]
    rfl

/-- REC_ACK acts under a register fence too (R422). -/
theorem State.hostWrite_ack (s : State) (v : Nat) (link : s.sys.linkUp = true) (live : s.live = true) (run : s.runs .HST = true)
    (fenced : s.on Reg.SYS_REGW_FENCED = true) : s.hostWrite 0x78 v = if v.testBit 0 then s.recAck else s :=
  if_pos (by rw [link, live, run, fenced]; rfl)

/-! ### Writes that take effect -/

theorem State.hostWrite_may (s : State) (a v : Nat) (may : s.hostMay (islOf a) = true) :
    s.hostWrite a v = (s.numbered 1).hostByte a v := by
  have unfenced : s.on Reg.SYS_REGW_FENCED = false := by
    simp only [State.hostMay, Bool.and_eq_true, Bool.not_eq_true'] at may
    obtain ⟨⟨⟨-, fenced⟩, -⟩, -⟩ := may
    exact fenced
  rw [s.hostWrite_common a v (.inr unfenced)]
  exact s.hostOp_may _ _ _ may

/-- A lower byte of a writable group is staged (R5). -/
theorem State.hostByte_staged (s : State) (a v : Nat) (several : 1 < (groupAt a).2)
    (lower : a + 1 ≠ (groupAt a).1 + (groupAt a).2)
    (may : ((fieldsAt a).any (fun p => p.1.acc = .rw || p.1.acc = .wo)) = true)
    (noRs : ((fieldsAt a).all (fun p => p.1.acc ≠ .rs)) = true) :
    s.hostByte a v = { s with staged := mput s.staged a (BitVec.ofNat 8 v) } := by
  have held : ¬(fieldsAt a).isEmpty = true := by
    intro empty
    rw [List.isEmpty_iff.mp empty] at may
    exact absurd may (by decide)
  have open' : ¬((fieldsAt a).any (fun p => p.1.acc = .rs)) = true := by
    simp only [List.all_eq_true, decide_eq_true_eq] at noRs
    simp only [List.any_eq_true, decide_eq_true_eq]
    rintro ⟨p, mem, rs⟩
    exact noRs p mem rs
  unfold State.hostByte
  dsimp only
  rw [if_neg held, if_neg (by omega), if_neg open', if_pos may]
  exact if_neg lower

/-- TL_MARGIN takes the value written, clamped (R5, R8). -/
theorem State.hostByte_margin (s : State) (v : Nat) :
    s.hostByte 0x6002 v = s.wr Reg.PHY_TL_MARGIN (min 30 (v % 32)) := by
  have fields : fieldsAt 0x6002 = [(Reg.PHY_TL_MARGIN, 0)] := rfl
  have clamped : Reg.PHY_TL_MARGIN.clamp.apply (bits v Reg.PHY_TL_MARGIN.lsb Reg.PHY_TL_MARGIN.width) = min 30 (v % 32) := by
    show max 0 (min 30 (v / 2 ^ 0 % 2 ^ 5)) = min 30 (v % 32)
    rw [Nat.zero_max, pow_zero, Nat.div_one]
    rfl
  have put : s.putGroup true v [(Reg.PHY_TL_MARGIN, 0)] =
      s.wrB Reg.PHY_TL_MARGIN 0 0 (Reg.PHY_TL_MARGIN.clamp.apply (bits v Reg.PHY_TL_MARGIN.lsb Reg.PHY_TL_MARGIN.width)) := rfl
  rw [clamped] at put
  unfold State.hostByte groupAt
  rw [fields]
  exact put

/-- The value 1 in TMAP_CMD reads a tone map (R161). -/
theorem State.hostByte_tmapRead (s : State) (v : Nat) (one : v % 4 = 1) : s.hostByte 0x6012 v = s.tmapCmd 1 := by
  have fields : fieldsAt 0x6012 = [(Reg.PHY_TMAP_CMD, 0)] := rfl
  have acts : s.hostByte 0x6012 v = s.tmapCmd (v % 4) := by
    unfold State.hostByte groupAt
    rw [fields]
    rfl
  rw [acts, one]

/-! ### Reads -/

/-- What a capture holds for a byte of its group (R6). -/
theorem capture_get (bs : List Byte) (base : Nat) (m : List (Nat × Byte)) (i a : Nat) :
    mget ((bs.zipIdx i).foldl (fun m p => mput m (base + p.2) p.1) m) a =
      if base + i ≤ a ∧ a < base + i + bs.length then bs[a - (base + i)]? else mget m a := by
  induction bs generalizing m i with
  | nil => rw [if_neg (by simp)]; rfl
  | cons b bs ih =>
    rw [List.zipIdx_cons, List.foldl_cons, ih, List.length_cons]
    by_cases here : a = base + i
    · subst here
      rw [if_neg (by omega), if_pos (by omega), mget_mput_same]
      simp
    · rw [mget_mput_other _ _ _ _ here]
      by_cases inside : base + i ≤ a ∧ a < base + i + (bs.length + 1)
      · have next : a - (base + i) = a - (base + (i + 1)) + 1 := by omega
        rw [if_pos (by omega), if_pos inside, next, List.getElem?_cons_succ]
      · rw [if_neg (by omega), if_neg inside]

theorem State.clearRc_captured (s : State) (l : List (Fld × Nat)) : (s.clearRc l).captured = s.captured := by
  unfold State.clearRc
  exact foldl_keeps State.captured _ _ _ (fun t p => rfl)

theorem State.clearRc_none (s : State) (l : List (Fld × Nat)) (none' : (l.all (fun p => p.1.acc ≠ .rc)) = true) :
    s.clearRc l = s := by
  have empty : l.filter (fun p => p.1.acc = .rc) = [] := by
    rw [List.filter_eq_nil_iff]
    simp only [List.all_eq_true, decide_eq_true_eq] at none' ⊢
    exact none'
  unfold State.clearRc
  rw [empty]
  rfl

theorem State.readByte_plain (s : State) {a : Nat} (fence : a ≠ 0x18) (window : inWindow a = false) :
    s.readByte a = if (groupAt a).2 = 1 then { s.clearRc (fieldsAt a) with hostData := s.liveByte a }
      else if a = (groupAt a).1 then
        { (s.capture (groupAt a).1 (s.liveBytes (groupAt a).1 (groupAt a).2)).clearRc (fieldsAt a) with
          hostData := (s.liveBytes (groupAt a).1 (groupAt a).2).headD 0 }
      else { s with hostData := (mget s.captured a).getD (s.liveByte a) } := by
  have tev : a ≠ 0x9080 := by rintro rfl; exact absurd window (by decide)
  have sev : a ≠ 0x90A0 := by rintro rfl; exact absurd window (by decide)
  unfold State.readByte
  rw [if_neg fence, if_neg tev, if_neg sev, window]
  simp only [Bool.not_false, Bool.and_true, decide_eq_true_eq]

/-- The lowest byte of a group captures the group (R6). -/
theorem State.readByte_lowest (s : State) {a : Nat} (fence : a ≠ 0x18) (window : inWindow a = false) (several : 1 < (groupAt a).2)
    (lowest : a = (groupAt a).1) :
    (s.readByte a).hostData = (s.liveBytes a (groupAt a).2).headD 0 ∧
      ∀ k < (groupAt a).2, mget (s.readByte a).captured (a + k) = some (s.liveByte (a + k)) := by
  rw [s.readByte_plain fence window, if_neg (by omega), if_pos lowest, ← lowest]
  refine ⟨rfl, fun k lt => ?_⟩
  show mget ((s.capture a (s.liveBytes a (groupAt a).2)).clearRc (fieldsAt a)).captured (a + k) = _
  rw [State.clearRc_captured, State.capture]
  dsimp only
  rw [capture_get, if_pos]
  · simp [State.liveBytes, lt]
  · simp [State.liveBytes, lt]

/-- A byte that stands alone reads its value; without a clear-on-read field nothing else changes (R7). -/
theorem State.readByte_alone (s : State) {a : Nat} (fence : a ≠ 0x18) (window : inWindow a = false) (one : (groupAt a).2 = 1) :
    (s.readByte a).hostData = s.liveByte a ∧
      (((fieldsAt a).all (fun p => p.1.acc ≠ .rc)) = true → (s.readByte a).regs = s.regs) := by
  rw [s.readByte_plain fence window, if_pos one]
  refine ⟨rfl, fun none' => ?_⟩
  show (s.clearRc (fieldsAt a)).regs = s.regs
  rw [s.clearRc_none _ none']

/-- Settles O50: a write by the gate, then by the byte's group; a read by the gate, then by the place in its group. -/
theorem hostAccess : Obligations.HostAccess := by
  refine ⟨fun s a v => ?_, fun s a v may => ?_, fun s a => ?_⟩
  · obtain ⟨down, early, fence, stop⟩ := s.hostOp_shut (islOf a.toNat) (fun t => t.hostByte a.toNat v.toNat)
    have ack (is : a.toNat = 0x78) : a = 0x78 := BitVec.eq_of_toNat_eq is
    have common (other : ¬(a = 0x78 ∧ s.runs .HST = true) ∨ s.on Reg.SYS_REGW_FENCED = false) :=
      s.hostWrite_common a.toNat v.toNat (other.imp_left (fun no both => no ⟨ack both.1, both.2⟩))
    have shut (closed : s.sys.linkUp = false ∨ s.live = false) : s.hostWrite a.toNat v.toNat =
        s.hostOp (islOf a.toNat) (fun t => t.hostByte a.toNat v.toNat) := by
      refine if_neg ?_
      obtain closed | closed := closed <;> rw [closed] <;> simp
    refine ⟨fun link => ?_, fun link live => ?_, fun link live fenced => ⟨fun other => ?_, fun is run => ?_⟩,
      fun link live open' stopped => ?_⟩ <;> refine congrArg Host.Outcome.next ?_
    · exact (shut (.inl link)).trans (down link)
    · exact (shut (.inr live)).trans (early link live)
    · exact (common (.inl other)).trans (fence link live fenced)
    · subst is
      exact s.hostWrite_ack v.toNat link live run fenced
    · exact (common (.inr open')).trans (stop link live open' stopped)
  · have wrote : exec (.regWrite a v) s = .next ((s.numbered 1).hostByte a.toNat v.toNat) :=
      congrArg Host.Outcome.next (s.hostWrite_may a.toNat v.toNat may)
    refine ⟨fun none' => ?_, fun several lower writable noRs => ?_, fun is => ?_, fun is one => ?_⟩
    · rw [wrote]
      exact congrArg Host.Outcome.next (if_pos (by rw [none']; rfl))
    · rw [wrote, State.hostByte_staged _ _ _ several lower writable noRs, BitVec.ofNat_toNat, BitVec.setWidth_eq]
      rfl
    · rw [wrote, is, State.hostByte_margin]
    · rw [is] at may
      refine ⟨_, wrote, _, congrArg Host.Outcome.next (s.hostOp_may .PHY _ _ may), ?_⟩
      rw [is]
      exact State.hostByte_tmapRead _ _ one
  · have closed (no : s.hostReads (islOf a.toNat) = false) : s.hostRead a.toNat = s.readZero := if_neg (by rw [no]; decide)
    have read (yes : s.hostReads (islOf a.toNat) = true) : s.hostRead a.toNat = s.readByte a.toNat := if_pos yes
    have fence (other : a ≠ 0x18) : a.toNat ≠ 0x18 := fun is => other (BitVec.eq_of_toNat_eq is)
    refine ⟨fun link => ?_, fun link no => ?_, fun yes other window several => ⟨fun lowest => ?_, fun higher => ?_⟩,
      fun yes other window one => ?_⟩
    · have no : s.hostReads (islOf a.toNat) = false := by
        unfold State.hostReads
        rw [link]
        rfl
      have same : s.hostRead a.toNat = s := (closed no).trans (if_neg (by rw [link]; decide))
      exact ⟨congrArg Host.Outcome.next same, congrArg Host.Outcome.next same⟩
    · have zero : s.hostRead a.toNat = { s with hostData := 0 } := (closed no).trans (if_pos link)
      exact ⟨congrArg Host.Outcome.next zero, congrArg Host.Outcome.next zero⟩
    · have captured := s.readByte_lowest (fence other) window several lowest
      exact ⟨⟨_, congrArg Host.Outcome.next (read yes), captured⟩, ⟨_, congrArg Host.Outcome.next (read yes), captured⟩⟩
    · have kept : s.hostRead a.toNat = { s with hostData := (mget s.captured a.toNat).getD (s.liveByte a.toNat) } := by
        rw [read yes, s.readByte_plain (fence other) window, if_neg (by omega), if_neg higher]
      exact ⟨congrArg Host.Outcome.next kept, congrArg Host.Outcome.next kept⟩
    · have alone := s.readByte_alone (fence other) window one
      exact ⟨⟨_, congrArg Host.Outcome.next (read yes), alone⟩, ⟨_, congrArg Host.Outcome.next (read yes), alone⟩⟩

end Sys2Proof.Machine

/-!
PROOF. The time base: selection, steering, holdover, the step and the free start (O51, R41, R354 to R358).
-/

namespace Sys2Proof.Machine

/-! ### Signed fields -/

/-- A signed field reads what was written into it, within its range. -/
theorem State.rdS_wrS (s : State) (f : Fld) {v : Int} (wide : 1 ≤ f.width) (low : -(2 ^ (f.width - 1)) ≤ v)
    (high : v < 2 ^ (f.width - 1)) : (s.wrS f v).rdS f = v := by
  obtain ⟨w, hw⟩ : ∃ w, f.width = w + 1 := ⟨f.width - 1, by omega⟩
  rw [hw, Nat.add_sub_cancel] at low high
  have pos : (0 : Int) < 2 ^ w := by positivity
  have double : (2 : Int) ^ (w + 1) = 2 * 2 ^ w := by ring
  have read : (s.wrS f v).rd f = (v % 2 ^ (w + 1)).toNat := by
    unfold State.wrS
    rw [State.rd_wr_same, hw]
    refine Nat.mod_eq_of_lt ?_
    have := Int.emod_lt_of_pos v (show (0 : Int) < 2 ^ (w + 1) by positivity)
    have := Int.emod_nonneg v (show (2 : Int) ^ (w + 1) ≠ 0 by positivity)
    zify
    rw [Int.toNat_of_nonneg ‹_›]
    assumption
  unfold State.rdS
  dsimp only
  rw [read, hw, Nat.add_sub_cancel]
  by_cases neg : v < 0
  · have value : v % 2 ^ (w + 1) = v + 2 ^ (w + 1) := by
      rw [← Int.add_emod_right]
      exact Int.emod_eq_of_lt (by omega) (by omega)
    rw [value, if_neg, Int.toNat_of_nonneg (by omega)]
    · omega
    · zify
      rw [Int.toNat_of_nonneg (by omega)]
      omega
  · have value : v % 2 ^ (w + 1) = v := Int.emod_eq_of_lt (by omega) (by omega)
    rw [value, if_pos, Int.toNat_of_nonneg (by omega)]
    zify
    rw [Int.toNat_of_nonneg (by omega)]
    exact high

theorem clampRate_bounds (x : Int) : -1099511 ≤ clampRate x ∧ clampRate x ≤ 1099511 := by
  unfold clampRate
  omega

theorem State.rateAdj_wrS (s : State) (x : Int) : (s.wrS Reg.TIM_RATE_ADJ (clampRate x)).rdS Reg.TIM_RATE_ADJ = clampRate x := by
  obtain ⟨low, high⟩ := clampRate_bounds x
  refine s.rdS_wrS Reg.TIM_RATE_ADJ (by decide) ?_ ?_
  · show -(2 ^ 31) ≤ clampRate x
    omega
  · show clampRate x < 2 ^ 31
    omega

/-- An event leaves the lower bits of its register. -/
theorem State.ev_testBit_lower (s : State) {f : Fld} {b c : Nat} (base : Nat) (lower : c < b) (wide : c < f.width) :
    (f.get (s.ev f b base).regs 0 0).testBit c = (f.get s.regs 0 0).testBit c := by
  rw [State.ev_regs]
  split
  · rfl
  · rw [Fld.get_put_same, Nat.testBit_mod_two_pow, decide_eq_true wide, Bool.true_and, Nat.add_comm,
      Nat.testBit_two_pow_add_gt lower]

/-! ### Selection and steering -/

theorem State.noteSel_get (s : State) (sel : Option Dom) {g : Fld} (count : g.place ≠ Reg.TIM_SEL_SWITCH.place)
    (event : g.place ≠ Reg.TIM_TIM_EVT.place) : g.get (s.noteSel sel).regs 0 0 = g.get s.regs 0 0 := by
  unfold State.noteSel
  split
  · rfl
  · exact (State.get_ev_place event ..).trans (State.get_bump_place count s 0)

theorem State.noteSel_spec (s : State) (sel : Option Dom) :
    (s.noteSel sel).tim = { s.tim with sel := sel } ∧ unnumbered (s.noteSel sel).sys = unnumbered s.sys := by
  unfold State.noteSel
  split
  · rename_i same
    rw [← same]
    exact ⟨rfl, rfl⟩
  · exact ⟨by simp, by simp⟩

theorem State.steerOfs_get (s : State) (o : Int) {g : Fld} (ofs : g.place ≠ Reg.TIM_STEER_OFS.place)
    (event : g.place ≠ Reg.TIM_TIM_EVT.place) : g.get (s.steerOfs o).regs 0 0 = g.get s.regs 0 0 := by
  unfold State.steerOfs
  dsimp only
  split
  · exact (State.get_ev_place event ..).trans (State.get_wr_place ofs ..)
  · exact State.get_wr_place ofs ..

theorem State.steerOfs_sys (s : State) (o : Int) : unnumbered (s.steerOfs o).sys = unnumbered s.sys := by
  unfold State.steerOfs
  dsimp only
  split
  · exact State.ev_sys ..
  · rfl

/-- STEER_OFS leaves the events before its own (R356). -/
theorem State.steerOfs_event (s : State) (o : Int) {c : Nat} (lower : c < 4) :
    ((s.steerOfs o).rd Reg.TIM_TIM_EVT).testBit c = (s.rd Reg.TIM_TIM_EVT).testBit c := by
  have kept : (s.wrS Reg.TIM_STEER_OFS o).rd Reg.TIM_TIM_EVT = s.rd Reg.TIM_TIM_EVT := State.get_wr_place (by decide) ..
  unfold State.steerOfs
  dsimp only
  rw [← kept]
  split
  · exact State.ev_testBit_lower _ 120 lower (show c < 6 by omega)
  · rfl

theorem State.steerRate_spec (s : State) (f o : Int) :
    (∃ a, (s.steerRate f o).rdS Reg.TIM_RATE_ADJ = clampRate a) ∧
      (s.steerRate f o).rd Reg.TIM_SRC = s.rd Reg.TIM_SRC := by
  unfold State.steerRate
  refine ⟨⟨_, State.rateAdj_wrS _ _⟩, (State.get_wr_place (f := Reg.TIM_RATE_ADJ) (by decide) ..).trans ?_⟩
  split
  · exact State.get_bump_place (f := Reg.TIM_ADJ_CLAMP) (by decide) ..
  · rfl

theorem State.byTwin_congr {s t : State} (en : t.rd Reg.TWN_TW_EN = s.rd Reg.TWN_TW_EN)
    (st : t.rd Reg.TWN_TW_STATE = s.rd Reg.TWN_TW_STATE) (link : t.rd Reg.TWN_TW_LINK = s.rd Reg.TWN_TW_LINK) (twn : t.twn = s.twn) :
    t.byTwin = s.byTwin := by
  unfold State.byTwin State.on
  rw [en, st, link, twn]

theorem State.noteSel_byTwin (s : State) (sel : Option Dom) : (s.noteSel sel).byTwin = s.byTwin :=
  State.byTwin_congr (s.noteSel_get sel (by decide) (by decide)) (s.noteSel_get sel (by decide) (by decide))
    (s.noteSel_get sel (by decide) (by decide)) (by simp)

theorem srcOf_lt (sel : Option Dom) : srcOf sel < 4 := by
  unfold srcOf
  split <;> decide

/-- Steering by a domain (R355). -/
theorem State.steer_domain (s : State) (alone : s.byTwin = none) {d : Dom} (sel : s.select = some d) :
    s.steer.tim.sel = some d ∧ s.steer.tim.holdover = false ∧ s.steer.tim.holdF = s.rdS (Reg.TIM_DOM_FREQ d) ∧
      s.steer.rd Reg.TIM_SRC = srcOf (some d) ∧ -1099511 ≤ s.steer.rdS Reg.TIM_RATE_ADJ ∧
      s.steer.rdS Reg.TIM_RATE_ADJ ≤ 1099511 ∧ s.steer.sys.timeNs = s.sys.timeNs := by
  have freq : (s.noteSel (some d)).rdS (Reg.TIM_DOM_FREQ d) = s.rdS (Reg.TIM_DOM_FREQ d) :=
    State.rdS_congr (s.noteSel_get _ (by cases d <;> decide) (by cases d <;> decide))
  obtain ⟨tim, sys⟩ := s.noteSel_spec (some d)
  have form : s.steer = (let t := s.noteSel (some d)
      let u := ({ t with
        tim.holdover := false
        tim.holdF := t.rdS (Reg.TIM_DOM_FREQ d) } : State).wr Reg.TIM_SRC (srcOf (some d))
      (u.steerRate (t.rdS (Reg.TIM_DOM_FREQ d)) (t.domOfs d)).steerOfs (t.domOfs d)) := by
    unfold State.steer
    rw [sel]
    dsimp only
    rw [State.noteSel_byTwin, alone]
  rw [form]
  dsimp only
  generalize s.noteSel (some d) = t at freq tim sys
  obtain ⟨⟨a, rate⟩, src⟩ := State.steerRate_spec (State.wr
    { t with
      tim.holdover := false
      tim.holdF := t.rdS (Reg.TIM_DOM_FREQ d) } Reg.TIM_SRC (srcOf (some d))) (t.rdS (Reg.TIM_DOM_FREQ d)) (t.domOfs d)
  have src' := src.trans ((State.rd_wr_same _ Reg.TIM_SRC _).trans (Nat.mod_eq_of_lt (srcOf_lt (some d))))
  have tim' : (State.steerRate (State.wr
      { t with
        tim.holdover := false
        tim.holdF := t.rdS (Reg.TIM_DOM_FREQ d) } Reg.TIM_SRC (srcOf (some d))) (t.rdS (Reg.TIM_DOM_FREQ d)) (t.domOfs d)).tim =
      { t.tim with holdover := false, holdF := t.rdS (Reg.TIM_DOM_FREQ d) } := by simp
  have sys' : (State.steerRate (State.wr
      { t with
        tim.holdover := false
        tim.holdF := t.rdS (Reg.TIM_DOM_FREQ d) } Reg.TIM_SRC (srcOf (some d))) (t.rdS (Reg.TIM_DOM_FREQ d)) (t.domOfs d)).sys =
      t.sys := by simp
  generalize State.steerRate _ _ _ = u at rate src' tim' sys'
  obtain ⟨low, high⟩ := clampRate_bounds a
  obtain ⟨l, same⟩ := sys_of_unnumbered (u.steerOfs_sys (t.domOfs d))
  obtain ⟨l', same'⟩ := sys_of_unnumbered sys
  have shown : (u.steerOfs (t.domOfs d)).rdS Reg.TIM_RATE_ADJ = clampRate a :=
    (State.rdS_congr (u.steerOfs_get _ (by decide) (by decide))).trans rate
  have kept : (u.steerOfs (t.domOfs d)).tim = u.tim := by simp
  rw [kept, tim', tim, shown, same, sys', same']
  exact ⟨rfl, rfl, freq, (u.steerOfs_get _ (by decide) (by decide)).trans src', low, high, rfl⟩

/-- Nothing selected: holdover at the last rate (R355). -/
theorem State.steer_holdover (s : State) (alone : s.byTwin = none) (sel : s.select = none) (free : s.rd Reg.TIM_SRC ≠ 3)
    (begins : s.tim.holdover = false) :
    s.steer.tim.sel = none ∧ s.steer.tim.holdover = true ∧ s.steer.rd Reg.TIM_SRC = 0 ∧
      s.steer.rdS Reg.TIM_RATE_ADJ = clampRate s.tim.holdF ∧ (s.steer.rd Reg.TIM_TIM_EVT).testBit 1 = true := by
  obtain ⟨tim, -⟩ := s.noteSel_spec none
  have src : (s.noteSel none).rd Reg.TIM_SRC = s.rd Reg.TIM_SRC := s.noteSel_get none (by decide) (by decide)
  have form : s.steer = (let t := s.noteSel none
      let u := (({ t with tim.holdover := true } : State).wr Reg.TIM_SRC 0).ev Reg.TIM_TIM_EVT 1 120
      (u.wrS Reg.TIM_RATE_ADJ (clampRate u.tim.holdF)).steerOfs 0) := by
    unfold State.steer
    rw [sel]
    dsimp only
    rw [State.noteSel_byTwin, alone]
    dsimp only
    rw [src, if_neg free, tim, begins]
    rfl
  rw [form]
  dsimp only
  generalize s.noteSel none = t at tim
  have event := State.ev_testBit (({ t with tim.holdover := true } : State).wr Reg.TIM_SRC 0) (f := Reg.TIM_TIM_EVT) (b := 1) 120
    (by decide)
  have shown : ((({ t with tim.holdover := true } : State).wr Reg.TIM_SRC 0).ev Reg.TIM_TIM_EVT 1 120).rd Reg.TIM_SRC = 0 :=
    (State.get_ev_place (f := Reg.TIM_TIM_EVT) (by decide) ..).trans (State.rd_wr_same _ Reg.TIM_SRC 0)
  have tim' : ((({ t with tim.holdover := true } : State).wr Reg.TIM_SRC 0).ev Reg.TIM_TIM_EVT 1 120).tim =
      { s.tim with sel := none, holdover := true } := by simp [tim]
  generalize (({ t with tim.holdover := true } : State).wr Reg.TIM_SRC 0).ev Reg.TIM_TIM_EVT 1 120 = u at event shown tim'
  have kept : ((u.wrS Reg.TIM_RATE_ADJ (clampRate u.tim.holdF)).steerOfs 0).tim = u.tim := by simp
  refine ⟨by rw [kept, tim'], by rw [kept, tim'], ?_, ?_, ?_⟩
  · exact (State.steerOfs_get _ _ (by decide) (by decide)).trans ((State.get_wr_place (f := Reg.TIM_RATE_ADJ) (by decide) ..).trans shown)
  · refine (State.rdS_congr (State.steerOfs_get _ _ (by decide) (by decide))).trans ((u.rateAdj_wrS _).trans ?_)
    rw [tim']
  · refine (State.steerOfs_event _ _ (by decide)).trans ?_
    rw [← event]
    exact congrArg (Nat.testBit · 1) (State.get_wr_place (f := Reg.TIM_RATE_ADJ) (by decide) ..)

/-! ### The time base is set -/

/-- With no node queued, setting the time base places none (R340, R357). -/
theorem State.timeSet_empty (s : State) (empty : ∀ p ∈ s.ntb.slots, p.2.entry.qne = false) :
    s.timeSet = (s.wr Reg.TIM_TIME_SET 1).ev Reg.TIM_TIM_EVT 5 120 := by
  have slots : ((s.wr Reg.TIM_TIME_SET 1).ev Reg.TIM_TIM_EVT 5 120).ntb.slots = s.ntb.slots := by simp
  unfold State.timeSet
  dsimp only
  rw [slots]
  generalize (s.wr Reg.TIM_TIME_SET 1).ev Reg.TIM_TIM_EVT 5 120 = t
  exact foldl_fixed_of_mem _ _ _ (fun p mem => if_neg (by rw [empty p mem]; decide))

theorem State.timeSet_spec (s : State) (empty : ∀ p ∈ s.ntb.slots, p.2.entry.qne = false) :
    s.timeSet.on Reg.TIM_TIME_SET = true ∧ (s.timeSet.rd Reg.TIM_TIM_EVT).testBit 5 = true ∧
      s.timeSet.sys.timeNs = s.sys.timeNs ∧
      (∀ g : Fld, g.place ≠ Reg.TIM_TIME_SET.place → g.place ≠ Reg.TIM_TIM_EVT.place →
        g.get s.timeSet.regs 0 0 = g.get s.regs 0 0) := by
  rw [s.timeSet_empty empty]
  obtain ⟨l, sys⟩ := sys_of_unnumbered ((s.wr Reg.TIM_TIME_SET 1).ev_sys Reg.TIM_TIM_EVT 5 120)
  refine ⟨?_, State.ev_testBit _ 120 (by decide), by rw [sys]; rfl, fun g set event => ?_⟩
  · rw [State.on_get, decide_eq_true_eq, State.get_ev_place (by decide)]
    exact State.rd_wr_same s Reg.TIM_TIME_SET 1
  · exact (State.get_ev_place event ..).trans (State.get_wr_place set ..)

/-- The step loads the time base and sets it (R357). -/
theorem State.stepTime_spec (s : State) (o rate : Int) (empty : ∀ p ∈ s.ntb.slots, p.2.entry.qne = false) :
    (s.stepTime o rate).sys.timeNs = ((s.sys.timeNs + o) % 2 ^ 64).toNat ∧ (s.stepTime o rate).on Reg.TIM_TIME_SET = true ∧
      (s.stepTime o rate).on Reg.TIM_STEPPED = true ∧ (s.stepTime o rate).rd Reg.TIM_SRC = s.rd Reg.TIM_SRC ∧
      ((s.stepTime o rate).rd Reg.TIM_TIM_EVT).testBit 5 = true := by
  have form : ∃ t : State, s.stepTime o rate = ((t.wrS Reg.TIM_RATE_ADJ (clampRate rate)).wr Reg.TIM_STEPPED 1).timeSet ∧
      t.sys.timeNs = ((s.sys.timeNs + o) % 2 ^ 64).toNat ∧ t.regs = s.regs ∧ t.ntb = s.ntb := ⟨_, rfl, rfl, rfl, rfl⟩
  obtain ⟨t, e, time, regs, ntb⟩ := form
  obtain ⟨set, event, kept, others⟩ := ((t.wrS Reg.TIM_RATE_ADJ (clampRate rate)).wr Reg.TIM_STEPPED 1).timeSet_spec
    (by show ∀ p ∈ t.ntb.slots, _; rw [ntb]; exact empty)
  rw [e]
  refine ⟨kept.trans time, set, ?_, ?_, event⟩
  · rw [State.on_get, decide_eq_true_eq, others _ (by decide) (by decide)]
    exact State.rd_wr_same _ Reg.TIM_STEPPED 1
  · rw [State.rd_get, others _ (by decide) (by decide), State.get_wr_place (by decide)]
    refine (State.get_wr_place (f := Reg.TIM_RATE_ADJ) (by decide) t _ 0).trans ?_
    rw [regs]
    rfl

theorem State.acquire_form (s : State) (alone : s.byTwin = none) :
    s.acquire = match s.select with
      | some d => ({ (s.noteSel (some d)).wr Reg.TIM_SRC (srcOf (some d)) with
          tim.holdF := s.rdS (Reg.TIM_DOM_FREQ d) } : State).stepTime (s.domOfs d) (s.rdS (Reg.TIM_DOM_FREQ d))
      | none => s := by
  have none' : (if s.twn.partnerTime then s.byTwin else none) = none := by rw [alone, ite_self]
  unfold State.acquire
  rw [none'] <;> rfl

/-- The step to a domain (R357). -/
theorem State.acquire_domain (s : State) (alone : s.byTwin = none) {d : Dom} (sel : s.select = some d)
    (empty : ∀ p ∈ s.ntb.slots, p.2.entry.qne = false) :
    s.acquire.sys.timeNs = ((s.sys.timeNs + s.domOfs d) % 2 ^ 64).toNat ∧ s.acquire.on Reg.TIM_TIME_SET = true ∧
      s.acquire.on Reg.TIM_STEPPED = true ∧ s.acquire.rd Reg.TIM_SRC = srcOf (some d) ∧
      (s.acquire.rd Reg.TIM_TIM_EVT).testBit 5 = true := by
  rw [s.acquire_form alone, sel]
  dsimp only
  obtain ⟨-, sys⟩ := s.noteSel_spec (some d)
  have ntb : (s.noteSel (some d)).ntb = s.ntb := by simp
  obtain ⟨l, sys'⟩ := sys_of_unnumbered sys
  generalize s.noteSel (some d) = t at ntb sys'
  obtain ⟨time, set, stepped, src, event⟩ := State.stepTime_spec
    { t.wr Reg.TIM_SRC (srcOf (some d)) with tim.holdF := s.rdS (Reg.TIM_DOM_FREQ d) } (s.domOfs d)
    (s.rdS (Reg.TIM_DOM_FREQ d)) (by show ∀ p ∈ t.ntb.slots, _; rw [ntb]; exact empty)
  refine ⟨time.trans ?_, set, stepped, src.trans ((State.rd_wr_same t Reg.TIM_SRC _).trans (Nat.mod_eq_of_lt (srcOf_lt (some d)))), event⟩
  show ((t.sys.timeNs + s.domOfs d) % 2 ^ 64).toNat = _
  rw [sys']

/-- Settles O51: each update by what is selected. -/
theorem timeBase : Obligations.TimeBase := by
  intro s alone
  refine ⟨fun run set => ⟨fun d sel => ?_, fun sel free begins => ?_⟩, fun run unset empty => ⟨fun d sel => ?_, fun sel policy => ?_,
    fun sel policy => ?_⟩, fun hold set => ?_⟩
  · obtain ⟨sel', over', freq, src, low, high, time⟩ := s.steer_domain alone sel
    exact ⟨_, (if_neg (by rw [run]; decide)).trans (if_pos set), sel', over', freq, src, low, high, time⟩
  · exact ⟨_, (if_neg (by rw [run]; decide)).trans (if_pos set), s.steer_holdover alone sel free begins⟩
  · exact ⟨_, (if_neg (by rw [run]; decide)).trans (if_neg (by rw [unset]; decide)), s.acquire_domain alone sel empty⟩
  · have still : s.acquire = s := by rw [s.acquire_form alone, sel]
    have ex : exec .timeAcqExpire s = .next ((s.wr Reg.TIM_SRC 3).wr Reg.SYS_TIME_FREE 1).timeSet := by
      simp only [exec, execTimeAcqExpire]
      rw [if_neg (by rw [run, unset, policy]; decide), still, if_neg (by rw [unset]; decide)]
    obtain ⟨set, -, time, others⟩ := ((s.wr Reg.TIM_SRC 3).wr Reg.SYS_TIME_FREE 1).timeSet_spec empty
    refine ⟨_, ex, ?_, ?_, set, time⟩
    · rw [State.rd_get, others _ (by decide) (by decide), State.get_wr_place (by decide)]
      exact State.rd_wr_same s Reg.TIM_SRC 3
    · rw [State.on_get, decide_eq_true_eq, others _ (by decide) (by decide)]
      exact State.rd_wr_same _ Reg.SYS_TIME_FREE 1
  · exact if_pos (by rw [policy]; simp)
  · have up : s.up = true := decide_eq_true hold
    exact congrArg Host.Outcome.next (if_pos (by rw [up, set]; rfl))

end Sys2Proof.Machine

/-!
PROOF. Masters and exchanges of the ordinary clocks (O52, R348 to R350).
-/

namespace Sys2Proof.Machine

/-! ### An ordinary clock -/

theorem State.dom_setDom (s : State) (d : Dom) (x : DomSt) : (s.setDom d x).dom d = x := by
  cases d <;> rfl

theorem State.dom_of_tim {s t : State} (h : t.tim = s.tim) (d : Dom) : t.dom d = s.dom d := by
  unfold State.dom
  rw [h]

theorem State.dom_wr (s : State) (f : Fld) (v : Nat) (d : Dom) : (s.wr f v).dom d = s.dom d :=
  State.dom_of_tim rfl d

theorem State.setDom_regs (s : State) (d : Dom) (x : DomSt) : (s.setDom d x).regs = s.regs := by simp

/-- A field other than those in which an ordinary clock shows its state, its losses and its events. -/
abbrev Fld.offState (f : Fld) (d : Dom) : Prop :=
  f.place ≠ (lostOf d).place ∧ f.place ≠ Reg.TIM_TIM_EVT.place ∧ f.place ≠ (Reg.TIM_DOM_STATE d).place

theorem State.leaveQual_get {f : Fld} {d : Dom} (off : f.offState d) (s : State) (c : Nat) :
    f.get (s.leaveQual d).regs 0 c = f.get s.regs 0 c := by
  obtain ⟨lost, event, state⟩ := off
  unfold State.leaveQual
  split
  · rw [State.get_wr_place state, State.get_ev_place event, State.get_bump_place lost]
  · rfl

/-- A loss leaves the clock in NONE with no master (R350). -/
theorem State.domLoss_spec (s : State) (d : Dom) (tracks : s.tracks d = true) :
    (s.domLoss d).rd (Reg.TIM_DOM_STATE d) = 1 ∧ (s.domLoss d).rd (Reg.TIM_MASTER_PORT d) = 0 ∧
      ((s.domLoss d).dom d).master = none ∧ ((s.domLoss d).dom d).run = 0 := by
  unfold State.domLoss
  rw [if_neg (by rw [tracks]; decide)]
  dsimp only
  refine ⟨?_, ?_, by rw [State.dom_setDom], by rw [State.dom_setDom]⟩
  all_goals rw [State.rd_get, State.setDom_regs, State.get_wr_place (by cases d <;> decide),
    State.get_wr_place (by cases d <;> decide), State.get_wr_place (by cases d <;> decide)]
  · rw [State.get_wr_place (by cases d <;> decide)]
    cases d <;> exact State.rd_wr_same ..
  · cases d <;> exact State.rd_wr_same ..

/-! ### The choice of a master (R349) -/

/-- One master that is good is the best. -/
theorem bestForeign_one {f : Foreign} {now : Nat} (good : f.ok now = true) : bestForeign [f] now = some f := by
  simp [bestForeign, good]

/-- One master that has not qualified is none. -/
theorem bestForeign_none {f : Foreign} {now : Nat} (bad : f.ok now = false) : bestForeign [f] now = none := by
  simp [bestForeign, bad]

/-- With one foreign master, MASTER_PORT is its port. -/
theorem State.masterPort_one (s : State) (d : Dom) {f : Foreign} (only : (s.dom d).foreign = [f]) :
    s.masterPort d f.id = s.wr (Reg.TIM_MASTER_PORT d) (portCode f.port) := by
  unfold State.masterPort
  rw [only]
  obtain ⟨id, port, ann, last, prev⟩ := f
  cases port <;> simp [portCode]

theorem State.showMaster_get {f : Fld} {d : Dom} (c1 : f.place ≠ (Reg.TIM_DOM_CLASS d).place)
    (c2 : f.place ≠ (Reg.TIM_DOM_UTC d).place) (c3 : f.place ≠ (gmOf d).place) (s : State) (m : Foreign) (c : Nat) :
    f.get (s.showMaster d m).regs 0 c = f.get s.regs 0 c := by
  unfold State.showMaster
  rw [State.get_wr_place c3, State.get_wr_place c2, State.get_wr_place c1]

theorem State.showMaster_dom (s : State) (d : Dom) (m : Foreign) : (s.showMaster d m).dom d = s.dom d :=
  State.dom_of_tim (by simp) d

theorem State.showMaster_class (s : State) (d : Dom) (m : Foreign) :
    (s.showMaster d m).rd (Reg.TIM_DOM_CLASS d) = m.ann.clockClass % 256 := by
  unfold State.showMaster
  rw [State.rd_get, State.get_wr_place (by cases d <;> decide), State.get_wr_place (by cases d <;> decide)]
  cases d <;> exact State.rd_wr_same ..

/-- The only foreign master, once it qualifies, is selected by a clock that has none (R349, R350). -/
theorem State.selectMaster_first (s : State) (d : Dom) {f : Foreign} (only : (s.dom d).foreign = [f])
    (new : (s.dom d).master = none) (good : f.ok s.sys.uptime = true) :
    ((s.selectMaster d).dom d).master = some f.id ∧ (s.selectMaster d).rd (Reg.TIM_DOM_STATE d) = 2 ∧
      (s.selectMaster d).rd (Reg.TIM_MASTER_PORT d) = portCode f.port ∧
      (s.selectMaster d).rd (Reg.TIM_DOM_CLASS d) = f.ann.clockClass % 256 := by
  unfold State.selectMaster
  rw [only, bestForeign_one good]
  dsimp only
  rw [if_neg (by rw [new]; simp)]
  have kept : (((s.leaveQual d).wr (Reg.TIM_DOM_STATE d) 2).wr (Reg.TIM_MASTER_PORT d) 0).dom d = s.dom d :=
    State.dom_of_tim (by simp) d
  have state : (((s.leaveQual d).wr (Reg.TIM_DOM_STATE d) 2).wr (Reg.TIM_MASTER_PORT d) 0).rd (Reg.TIM_DOM_STATE d) = 2 := by
    rw [State.rd_get, State.get_wr_place (by cases d <;> decide)]
    cases d <;> exact State.rd_wr_same ..
  rw [kept]
  generalize ((s.leaveQual d).wr (Reg.TIM_DOM_STATE d) 2).wr (Reg.TIM_MASTER_PORT d) 0 = t at state
  have dom : (((t.setDom d { s.dom d with master := some f.id, sync := none, req := none, run := 0 }).showMaster d f).dom d) =
      { s.dom d with master := some f.id, sync := none, req := none, run := 0 } := by
    rw [State.showMaster_dom, State.dom_setDom]
  rw [State.masterPort_one _ d (by rw [dom]; exact only)]
  refine ⟨?_, ?_, ?_, ?_⟩
  · rw [State.dom_wr, dom]
  · rw [State.rd_get, State.get_wr_place (by cases d <;> decide), State.showMaster_get (by cases d <;> decide)
      (by cases d <;> decide) (by cases d <;> decide), State.setDom_regs]
    exact state
  · rw [State.rd_wr_same]
    cases d <;> cases f.port <;> rfl
  · rw [State.rd_get, State.get_wr_place (by cases d <;> decide)]
    exact State.showMaster_class _ d f

/-! ### Announce messages -/

/-- The data set that an Announce brings, with the time of the one before it. -/
def heardMaster (s : State) (h : PtpHdr) (a : PtpAnn) (prev : Option Nat) : Foreign :=
  { id := h.master, port := h.port, ann := a, last := s.sys.uptime, prev := prev }

/-- The first Announce of a master is recorded and selects nothing. -/
theorem ptpAnnounceRx_first {s : State} {d : Dom} {h : PtpHdr} (a : PtpAnn) (heard : s.ptpHeard d h = true)
    (number : h.domain.toNat = s.rd (Reg.TIM_DOM_NUM d)) (new : (s.dom d).master = none) (none' : (s.dom d).foreign = []) :
    exec (.ptpAnnounceRx d h a) s = .next (s.setDom d { s.dom d with foreign := [heardMaster s h a none] }) := by
  have still : (s.setDom d { s.dom d with foreign := [heardMaster s h a none] }).selectMaster d =
      s.setDom d { s.dom d with foreign := [heardMaster s h a none] } := by
    unfold State.selectMaster
    rw [State.dom_setDom, bestForeign_none (by simp [Foreign.ok, heardMaster])]
  simp only [exec, execPtpAnnounceRx]
  rw [if_neg (by rw [heard]; decide), if_neg (not_not.mpr number), none', if_neg (by rw [new]; simp)]
  exact congrArg Host.Outcome.next still

/-- The second Announce of a master within four of its intervals selects it. -/
theorem ptpAnnounceRx_second {s : State} {d : Dom} {h : PtpHdr} (a : PtpAnn) {f : Foreign} (heard : s.ptpHeard d h = true)
    (number : h.domain.toNat = s.rd (Reg.TIM_DOM_NUM d)) (new : (s.dom d).master = none) (only : (s.dom d).foreign = [f])
    (id : f.id = h.master) (port : f.port = h.port) (near : a.stepsRemoved < 255)
    (soon : s.sys.uptime ≤ f.last + 4 * logTicks a.logInterval) :
    ∃ t, exec (.ptpAnnounceRx d h a) s = .next t ∧ (t.dom d).master = some h.master ∧
      t.rd (Reg.TIM_DOM_STATE d) = 2 ∧ t.rd (Reg.TIM_MASTER_PORT d) = portCode h.port ∧
      t.rd (Reg.TIM_DOM_CLASS d) = a.clockClass % 256 := by
  have dom := s.dom_setDom d { s.dom d with foreign := [heardMaster s h a (some f.last)] }
  have ex : exec (.ptpAnnounceRx d h a) s =
      .next ((s.setDom d { s.dom d with foreign := [heardMaster s h a (some f.last)] }).selectMaster d) := by
    simp only [exec, execPtpAnnounceRx]
    rw [if_neg (by rw [heard]; decide), if_neg (not_not.mpr number), only, if_neg (by rw [new]; simp)]
    simp [id, port, heardMaster]
  have uptime : (s.setDom d { s.dom d with foreign := [heardMaster s h a (some f.last)] }).sys = s.sys := by simp
  refine ⟨_, ex, ?_⟩
  generalize s.setDom d { s.dom d with foreign := [heardMaster s h a (some f.last)] } = t at dom uptime
  have good : (heardMaster s h a (some f.last)).ok t.sys.uptime = true := by
    rw [uptime]
    simp [Foreign.ok, heardMaster, near, soon]
  exact t.selectMaster_first d (by rw [dom]) (by rw [dom]; exact new) good

/-- Where Announce messages stop, the other port that hears the master takes over. -/
theorem announceTimeout_other {s : State} {d : Dom} {p : EPort} {f g : Foreign} (run : s.runs .TIM = true)
    (tracks : s.tracks d = true) (both : (s.dom d).foreign = [f, g]) (mine : (s.dom d).master = some f.id)
    (same : g.id = f.id) (here : f.port = p) (there : g.port ≠ p) (port : s.rd (Reg.TIM_MASTER_PORT d) = portCode p) :
    exec (.announceTimeout d p) s =
      .next ((s.setDom d { s.dom d with foreign := [g] }).wr (Reg.TIM_MASTER_PORT d) (portCode g.port)) := by
  have rest : (s.dom d).foreign.filter (fun x => !(some x.id = (s.dom d).master && x.port = p)) = [g] := by
    rw [both, mine]
    simp [same, here, there]
  have shown : (s.setDom d { s.dom d with foreign := [g] }).rd (Reg.TIM_MASTER_PORT d) = portCode p := by
    rw [State.rd_get, State.setDom_regs]
    exact port
  simp only [exec, execAnnounceTimeout]
  rw [if_neg (by rw [run, tracks]; decide), rest, if_neg (not_not.mpr shown)]
  have found : [g].find? (fun x => some x.id = (s.dom d).master) = some g := by
    rw [mine]
    simp [same]
  rw [found]

/-! ### Exchanges (R348) -/

theorem State.qualTest_get {f : Fld} {d : Dom} (off : f.offState d) (s : State) (span c : Nat) :
    f.get (s.qualTest d span).regs 0 c = f.get s.regs 0 c := by
  unfold State.qualTest
  dsimp only
  split
  · split
    · rw [State.get_ev_place off.2.1, State.get_wr_place off.2.2]
    · rfl
  · split
    · rfl
    · exact State.leaveQual_get off s c

theorem State.qualTest_dom (s : State) (d : Dom) (span : Nat) : (s.qualTest d span).dom d = s.dom d :=
  State.dom_of_tim (by simp) d

/-- The clock after the exchange of a Delay_Resp: its request is answered, its run one longer, its offset known. -/
def State.afterExchange (s : State) (d : Dom) (h : PtpHdr) (t4 : Int) (y : SyncSt) (t1 t3 : Int) : DomSt :=
  { s.dom d with
    req := none
    run := (s.dom d).run + 1
    ref := some (s.sys.timeNs + (t1 + y.corr + ((y.t2 - t1) + (t4 - t3) - y.corr - h.corr) / 2 - y.t2), s.sys.uptime) }

/-- A completed exchange: the mean path delay, one more exchange, DOM_FREQ. -/
def State.exchanged (s : State) (d : Dom) (x : DomSt) (mpd freq : Int) : State :=
  (((s.setDom d x).wr (Reg.TIM_DOM_MPD d) (min mpd.toNat 0xFFFFFFFF)).wrap (Reg.TIM_DOM_EXCH d)).wrS
    (Reg.TIM_DOM_FREQ d) (max (-2147483648) (min 2147483647 freq))

theorem State.exchanged_dom (s : State) (d : Dom) (x : DomSt) (mpd freq : Int) : (s.exchanged d x mpd freq).dom d = x := by
  cases d <;> rfl

theorem State.exchanged_freq (s : State) (d : Dom) (x : DomSt) (mpd freq : Int) :
    (s.exchanged d x mpd freq).rdS (Reg.TIM_DOM_FREQ d) = max (-2147483648) (min 2147483647 freq) := by
  refine State.rdS_wrS _ _ (by cases d <;> decide) ?_ ?_
  · cases d <;> exact le_max_left _ _
  · have : max (-2147483648) (min 2147483647 freq) < (2 : Int) ^ 31 := by omega
    cases d <;> exact this

theorem State.exchanged_mpd (s : State) (d : Dom) (x : DomSt) (mpd freq : Int) :
    (s.exchanged d x mpd freq).rd (Reg.TIM_DOM_MPD d) = min mpd.toNat 0xFFFFFFFF := by
  unfold State.exchanged State.wrS
  rw [State.rd_get, State.get_wr_place (by cases d <;> decide), State.wrap_regs,
    Fld.get_put_place (by cases d <;> decide)]
  have small : min mpd.toNat 0xFFFFFFFF < 2 ^ 32 := by omega
  cases d <;> exact (State.rd_wr_same ..).trans (Nat.mod_eq_of_lt small)

section
variable {s : State} {d : Dom} {h : PtpHdr} (heard : s.ptpHeard d h = true)
include heard

/-- A message of another master is rejected. -/
theorem exchange_stranger (stranger : s.fromMaster d h = false) (two : Bool) (t1 t4 f : Int) (span : Nat) :
    exec (.ptpSyncRx d h two t1) s = .next s.ptpBad ∧ exec (.ptpFollowUpRx d h t1) s = .next s.ptpBad ∧
      exec (.ptpDelayRespRx d h t4 f span) s = .next s.ptpBad := by
  have gate : ¬(!s.ptpHeard d h) = true := by rw [heard]; decide
  have other : (!s.fromMaster d h) = true := by rw [stranger]; rfl
  exact ⟨(if_neg gate).trans (if_pos other), (if_neg gate).trans (if_pos other), (if_neg gate).trans (if_pos other)⟩

variable (master : s.fromMaster d h = true)
include master

/-- The Delay_Resp of the request under way completes the exchange. -/
theorem ptpDelayRespRx_completes {y : SyncSt} {t1 t3 : Int} (t4 f : Int) (span : Nat) (sync : (s.dom d).sync = some y)
    (brought : y.t1 = some t1) (req : (s.dom d).req = some (h.seqId, t3)) :
    ∃ t, exec (.ptpDelayRespRx d h t4 f span) s = .next t ∧ (t.dom d).req = none ∧
      (t.dom d).run = (s.dom d).run + 1 ∧
      t.rd (Reg.TIM_DOM_MPD d) = min ((((y.t2 - t1) + (t4 - t3) - y.corr - h.corr) / 2).toNat) 0xFFFFFFFF ∧
      t.rdS (Reg.TIM_DOM_FREQ d) = max (-2147483648) (min 2147483647 f) := by
  have gate : ¬(!s.ptpHeard d h) = true := by rw [heard]; decide
  have pair : ((s.dom d).sync.bind fun y => y.t1.map fun t1 => (y, t1)) = some (y, t1) := by
    rw [sync]
    simp [brought]
  have ex : exec (.ptpDelayRespRx d h t4 f span) s = .next ((s.exchanged d (s.afterExchange d h t4 y t1 t3)
      (((y.t2 - t1) + (t4 - t3) - y.corr - h.corr) / 2) f).qualTest d span) := by
    simp only [exec, execPtpDelayRespRx]
    rw [if_neg gate, if_neg (by rw [master]; decide), req]
    dsimp only
    rw [if_neg (not_not.mpr rfl), pair]
    rfl
  refine ⟨_, ex, ?_, ?_, ?_, ?_⟩
  · rw [State.qualTest_dom, State.exchanged_dom]
    rfl
  · rw [State.qualTest_dom, State.exchanged_dom]
    rfl
  · rw [State.rd_get, State.qualTest_get (by cases d <;> decide)]
    exact s.exchanged_mpd d _ _ f
  · unfold State.rdS
    rw [State.rd_get, State.qualTest_get (by cases d <;> decide)]
    exact s.exchanged_freq d _ _ f

variable (port : s.onMasterPort d h = true)
include port

/-- A Sync of the master is stamped. -/
theorem ptpSyncRx_stamps (two : Bool) (t1 : Int) :
    exec (.ptpSyncRx d h two t1) s = .next (s.setDom d { s.dom d with
      sync := some { seqId := h.seqId, t2 := s.sys.timeNs, t1 := if two then none else some t1, corr := h.corr } }) :=
  (if_neg (by rw [heard]; decide)).trans ((if_neg (by rw [master]; decide)).trans (if_neg (by rw [port]; decide)))

/-- The Follow_Up of the same sequenceId brings t1. -/
theorem ptpFollowUpRx_brings {y : SyncSt} (t1 : Int) (sync : (s.dom d).sync = some y) (same : y.seqId = h.seqId)
    (waits : y.t1 = none) : exec (.ptpFollowUpRx d h t1) s = .next (s.setDom d { s.dom d with
      sync := some { y with t1 := some t1, corr := y.corr + h.corr } }) := by
  simp only [exec, execPtpFollowUpRx]
  rw [if_neg (by rw [heard]; decide), if_neg (by rw [master]; decide), if_neg (by rw [port]; decide), sync]
  exact if_pos (by rw [waits]; simp [same])

end

/-- A Follow_Up that does not come leaves the Sync incomplete. -/
theorem followUpTimeout_drops {s : State} {d : Dom} {y : SyncSt} (sync : (s.dom d).sync = some y) (waits : y.t1 = none)
    (run : s.runs .TIM = true) :
    exec (.followUpTimeout d) s = .next (s.setDom d { s.dom d with sync := none, run := 0 }) := by
  simp only [exec, execFollowUpTimeout]
  rw [sync]
  exact congrArg Host.Outcome.next (if_pos (by rw [waits, run]; rfl))

/-- A Delay_Req leaves by MASTER_PORT and is stamped. -/
theorem delayReqSend_leaves {s : State} {d : Dom} (active : s.epActive = true) (run : s.runs .TIM = true)
    (tracks : s.tracks d = true) (port : s.rd (Reg.TIM_MASTER_PORT d) ≠ 0) :
    ∃ t, exec (.delayReqSend d) s = .next t ∧ (t.dom d).req = some ((s.dom d).reqSeq, (s.sys.timeNs : Int)) ∧
      (t.dom d).reqSeq = (s.dom d).reqSeq + 1 ∧
      t.out = s.out ++ [.delayReq d (if s.rd (Reg.TIM_MASTER_PORT d) = 1 then .A else .B)
        (s.on (Reg.TIM_DOM_TRANSPORT d)) (BitVec.ofNat 8 (s.rd (Reg.TIM_DOM_NUM d))) s.otp.devEui (s.dom d).reqSeq] := by
  refine ⟨_, if_neg (by rw [active, run, tracks, decide_eq_false port]; decide), ?_, ?_, ?_⟩
  · cases d <;> rfl
  · cases d <;> rfl
  · cases d <;> rfl

/-- Settles O52: Announce messages and exchanges, each under its own guards. -/
theorem ptpClocks : Obligations.PtpClocks := by
  refine ⟨fun s d => ⟨fun h a heard => ⟨fun other => ?_, fun number new => ⟨fun first => ?_, ?_⟩⟩, fun run tracks => ⟨?_, ?_⟩⟩,
    fun s d => ⟨fun h two t1 t4 f span heard stranger => ?_, fun h heard master port => ⟨?_, ?_, ?_⟩, ?_, ?_⟩⟩
  · exact (if_neg (by rw [heard]; decide)).trans (if_pos other)
  · exact ptpAnnounceRx_first a heard number new first
  · intro f only id fport near soon
    exact ptpAnnounceRx_second a heard number new only id fport near soon
  · exact ⟨_, congrArg Host.Outcome.next (if_pos run), s.domLoss_spec d tracks⟩
  · intro p f g both mine same here there port
    exact announceTimeout_other run tracks both mine same here there port
  · exact exchange_stranger heard stranger two t1 t4 f span
  · exact ptpSyncRx_stamps heard master port
  · intro y t1 sync same waits
    exact ptpFollowUpRx_brings heard master port t1 sync same waits
  · intro y t1 t3 t4 f span sync brought req
    exact ptpDelayRespRx_completes heard master t4 f span sync brought req
  · intro y sync waits run
    exact followUpTimeout_drops sync waits run
  · exact delayReqSend_leaves

end Sys2Proof.Machine

/-!
PROOF. Links, the bridge and the checks of a datagram (O53, O54, R351, R352, R362 to R373).
-/

namespace Sys2Proof.Machine

/-! ### Links (R362) -/

theorem State.portUp_get (s : State) (p : EPort) :
    s.portUp p = (Reg.ETH_LINK_STAT.get s.regs 0 0).testBit (portBit p) := (rfl)

/-- The two link bits of a byte of LINK_STAT. -/
theorem linkBits (a b c d e : Bool) :
    ((b2n a + 2 * b2n b + 4 * b2n c + 8 * b2n d + 16 * b2n e) % 2 ^ 5).testBit 0 = a ∧
      ((b2n a + 2 * b2n b + 4 * b2n c + 8 * b2n d + 16 * b2n e) % 2 ^ 5).testBit 1 = b := by
  revert a b c d e
  decide

/-- A link change shows the port as it now is and leaves the other as it was. -/
theorem State.setLink_spec (s : State) (p : EPort) (up los : Bool) :
    (s.setLink p up los).portUp p = up ∧ (s.setLink p up los).portUp (otherPort p) = s.portUp (otherPort p) := by
  have shown : ∃ c d e : Bool, Reg.ETH_LINK_STAT.get (s.setLink p up los).regs 0 0 =
      (b2n (if p = .A then up else s.portUp .A) + 2 * b2n (if p = .B then up else s.portUp .B) +
        4 * b2n c + 8 * b2n d + 16 * b2n e) % 2 ^ 5 := by
    refine ⟨if p = .A then los else (s.rd Reg.ETH_LINK_STAT).testBit 2,
      if p = .B then los else (s.rd Reg.ETH_LINK_STAT).testBit 3,
      (if p = .A then up else s.portUp .A) && (if p = .B then up else s.portUp .B) && s.portMode .A = s.portMode .B, ?_⟩
    unfold State.setLink
    dsimp only
    split
    · rw [State.get_ev_place (by decide)]
      exact s.rd_wr_same Reg.ETH_LINK_STAT _
    · exact s.rd_wr_same Reg.ETH_LINK_STAT _
  obtain ⟨c, d, e, shown⟩ := shown
  rw [State.portUp_get, State.portUp_get, shown]
  obtain ⟨bitA, bitB⟩ := linkBits (if p = .A then up else s.portUp .A) (if p = .B then up else s.portUp .B) c d e
  cases p with
  | A => exact ⟨bitA, bitB⟩
  | B => exact ⟨bitB, bitA⟩

/-! ### The bridge (R351, R352) -/

/-- The correction of a PTP frame emits nothing. -/
theorem State.correct_out (s : State) (f : EthFrame) (p : PtpFrame) : (s.correct f p).2.2.out = s.out := by
  unfold State.correct
  split
  · rfl
  split
  · simp
  split
  · simp
  · simp

/-- An event message of version 2 that the transparent clock can correct carries its residence time. -/
theorem State.correct_event {s : State} {f : EthFrame} {p : PtpFrame} (clock : s.on Reg.TIM_TC_EN = true)
    (version : p.version = 2) (event : p.event = true) (tags : f.vlans.length ≤ 2)
    (udp : p.transport = 2 → p.extHdr = false ∧ p.udpSumZero = false ∧ p.msgLen + 2 ≤ p.udpLen) :
    (s.correct f p).1 = min (p.corr + p.residence) 0x7FFFFFFFFFFFFFFF ∧
      (s.correct f p).2.1 = if p.transport = 1 then .zeroed else if p.transport = 2 then .padded else .kept := by
  have form : s.correct f p = (min (p.corr + p.residence) 0x7FFFFFFFFFFFFFFF,
      if p.transport = 1 then .zeroed else if p.transport = 2 then .padded else .kept, s.wrap Reg.TIM_TC_FIXED) := by
    unfold State.correct
    rw [if_neg (by rw [clock, version, event]; decide), if_neg, if_neg]
    · rw [Bool.and_eq_true, decide_eq_true_eq, decide_eq_true_eq]
      rintro ⟨six, short⟩
      have := (udp six).2.2
      omega
    · rw [Bool.or_eq_true, Bool.and_eq_true, decide_eq_true_eq, decide_eq_true_eq]
      rintro (many | ⟨six, odd⟩)
      · omega
      · obtain ⟨ext, zero, -⟩ := udp six
        rw [ext, zero] at odd
        exact absurd odd (by decide)
  rw [form]
  exact ⟨rfl, rfl⟩

/-- A whole frame with a good FCS leaves by the other port, as the transparent clock makes it. -/
theorem State.forward_out {s : State} {p : EPort} {f : EthFrame} (fcs : f.fcsOk = true) (fits : f.fits = true)
    (up : s.portUp (otherPort p) = true) :
    ∃ c u, (s.forward p f).out = s.out ++ [.ethFrame (otherPort p) f c u true] ∧
      ∀ x, f.payload = .ptp x → c = (s.correct f x).1 ∧ u = (s.correct f x).2.1 := by
  unfold State.forward
  dsimp only
  rw [if_neg (by rw [up]; decide), if_neg (by rw [fits]; simp), if_neg (by rw [fcs]; simp)]
  cases load : f.payload
  case ptp x =>
    refine ⟨(s.correct f x).1, (s.correct f x).2.1, ?_, fun x' same => ?_⟩
    · simp [State.emit, fcs]
    · obtain rfl : x = x' := EthPayload.ptp.inj same
      exact ⟨rfl, rfl⟩
  all_goals exact ⟨0, .kept, by simp [State.emit, fcs], fun x absurd' => nomatch absurd'⟩

/-- The state with the port of the head-end's gateway learned from a frame (R364). -/
def State.learned (s : State) (p : EPort) (f : EthFrame) : State :=
  if f.fcsOk && f.sa.toNat = s.rd Reg.ETH_GW_MAC then { s with eth.gwPort := p } else s

theorem State.learned_reads (s : State) (p : EPort) (f : EthFrame) :
    (s.learned p f).regs = s.regs ∧ (s.learned p f).out = s.out ∧ (s.learned p f).sys = s.sys ∧
      (s.learned p f).aon = s.aon := by
  unfold State.learned
  split <;> exact ⟨rfl, rfl, rfl, rfl⟩

/-- Settles O53: the link bits, the frame that is forwarded, the reassembly that is dropped. -/
theorem bridgeForwards : Obligations.BridgeForwards := by
  refine fun s => ⟨fun p up los on => ?_, fun p f on up other => ⟨fun size => ?_, fun low high idle fcs fits link => ?_⟩,
    fun id run found => ?_⟩
  · exact ⟨_, congrArg Host.Outcome.next (if_pos on), s.setLink_spec p _ los⟩
  · simp only [exec, execBridgeRx]
    rw [if_neg (by rw [on, up]; decide), if_neg other, if_pos (by simpa using size)]
  · obtain ⟨regs, out, sys, aon⟩ := s.learned_reads p f
    have ex : exec (.bridgeRx p f) s = .next ((s.learned p f).forward p f) := by
      simp only [exec, execBridgeRx]
      rw [if_neg (by rw [on, up]; decide), if_neg other, if_neg (by simp; omega)]
      refine if_pos ?_
      show (!(s.learned p f).epActive) = true
      have same : (s.learned p f).epActive = s.epActive := by
        simp [State.epActive, State.up, State.live, State.runs, State.rd, regs, sys]
      rw [same, idle]
      rfl
    have link' : (s.learned p f).portUp (otherPort p) = true := by
      rw [State.portUp_get, regs]
      exact link
    obtain ⟨c, u, left, correct⟩ := (s.learned p f).forward_out fcs fits link'
    refine ⟨_, ex, c, u, left.trans (by rw [out]), fun x load clock version event tags udp => ?_⟩
    obtain ⟨rfl, rfl⟩ := correct x load
    exact State.correct_event (by rw [State.on_get, regs]; exact clock) version event tags udp
  · exact if_pos (by rw [run, found]; rfl)

/-! ### The checks of a datagram (R371) -/

section
variable {s : State} {d : Dgram} (active : s.epActive = true)
include active

/-- A malformed datagram counts in DG_BAD. -/
theorem datagramRx_malformed (bad : d.udpLen < 48 ∨ d.magicOk = false ∨ d.lenOk = false ∨ (d.chan ≠ 1 ∧ d.chan ≠ 2)) :
    exec (.datagramRx d) s = .next (s.bump Reg.ETH_DG_BAD) := by
  refine (if_neg (by rw [active]; decide)).trans (if_pos ?_)
  rcases bad with short | magic | len | ⟨one, two⟩
  · simp [short]
  · simp [magic]
  · simp [len]
  · simp only [Bool.or_eq_true, Bool.not_eq_true', Bool.or_eq_false_iff, Bool.and_eq_false_iff, decide_eq_false_iff_not]
    exact .inl (.inr ⟨.inl one, .inl (.inl two)⟩)

variable (whole : 48 ≤ d.udpLen) (magic : d.magicOk = true) (len : d.lenOk = true)
  (chan : (d.chan = 1 ∧ d.port = s.rd Reg.ETH_MGT_PORT) ∨
    (d.chan = 2 ∧ d.port = s.rd Reg.ETH_TUN_PORT ∧ s.tunRuns = true))
include whole magic len chan

omit active in
/-- A well-formed datagram passes the first check. -/
theorem datagram_formed : ¬(d.udpLen < 48 || !d.magicOk || !((d.chan = 1 && d.port = s.rd Reg.ETH_MGT_PORT) ||
    (d.chan = 2 && d.port = s.rd Reg.ETH_TUN_PORT && s.tunRuns)) || !d.lenOk) = true := by
  rcases chan with ⟨one, port⟩ | ⟨two, port, run⟩
  · simp [whole, magic, len, one, port]
  · simp [whole, magic, len, two, port, run]

/-- Another version, another boot or TYPE 0 is answered with INFO. -/
theorem datagramRx_info (other : ¬(d.ver = 1 ∨ d.ver = 2) ∨ d.bootId.toNat ≠ s.rd Reg.ETH_BOOT_ID ∨ d.type = 0) :
    exec (.datagramRx d) s = .next (s.infoReply d) := by
  refine (if_neg (by rw [active]; decide)).trans ((if_neg (datagram_formed whole magic len chan)).trans (if_pos ?_))
  simp only [Bool.or_eq_true, Bool.not_eq_true', Bool.or_eq_false_iff, decide_eq_false_iff_not, decide_eq_true_eq]
  rcases other with ver | boot | type
  · exact .inl (.inl (not_or.mp ver))
  · exact .inl (.inr boot)
  · exact .inr type

variable (ver : d.ver = 1 ∨ d.ver = 2) (boot : d.bootId.toNat = s.rd Reg.ETH_BOOT_ID) (type : d.type ≠ 0)
include ver boot type

omit active whole magic len chan in
/-- A datagram of this version and boot passes the second check. -/
theorem datagram_current : ¬(!(d.ver = 1 || d.ver = 2) || d.bootId.toNat ≠ s.rd Reg.ETH_BOOT_ID || d.type = 0) = true := by
  simp only [Bool.or_eq_true, Bool.not_eq_true', Bool.or_eq_false_iff, decide_eq_false_iff_not, decide_eq_true_eq]
  rintro ((none' | moved) | zero)
  · exact ver.elim none'.1 none'.2
  · exact moved boot
  · exact type zero

/-- Without a key for it, a datagram counts in DG_NOKEY. -/
theorem datagramRx_noKey (none' : s.dgKey d = none) : exec (.datagramRx d) s = .next (s.dgReject Reg.ETH_DG_NOKEY) := by
  simp only [exec, execDatagramRx]
  rw [if_neg (by rw [active]; decide), if_neg (datagram_formed whole magic len chan),
    if_neg (datagram_current ver boot type), none']

variable {k : Key} (key : s.dgKey d = some k)
include key

/-- A datagram whose tag is not of its key counts in DG_AUTH. -/
theorem datagramRx_forged (tag : d.tag ≠ some k) : exec (.datagramRx d) s = .next (s.dgReject Reg.ETH_DG_AUTH) := by
  simp only [exec, execDatagramRx]
  rw [if_neg (by rw [active]; decide), if_neg (datagram_formed whole magic len chan),
    if_neg (datagram_current ver boot type), key]
  exact if_pos tag

variable (tag : d.tag = some k)
include tag

/-- A management datagram whose SEQ does not rise counts in DG_REPLAY. -/
theorem datagramRx_replay (mgt : d.chan = 1) (old : d.seq.toNat ≤ s.eth.mgtRx.toNat) :
    exec (.datagramRx d) s = .next (s.dgReject Reg.ETH_DG_REPLAY) := by
  simp only [exec, execDatagramRx]
  rw [if_neg (by rw [active]; decide), if_neg (datagram_formed whole magic len chan),
    if_neg (datagram_current ver boot type), key]
  dsimp only
  rw [if_neg (not_not.mpr tag), if_pos mgt]
  exact if_pos (by simp [mgt, old])

/-- A management datagram of no defined TYPE or shape counts in DG_BAD. -/
theorem datagramRx_badType (mgt : d.chan = 1) (new : s.eth.mgtRx.toNat < d.seq.toNat) (bad : typeOk d = false) :
    exec (.datagramRx d) s = .next (s.bump Reg.ETH_DG_BAD) := by
  simp only [exec, execDatagramRx]
  rw [if_neg (by rw [active]; decide), if_neg (datagram_formed whole magic len chan),
    if_neg (datagram_current ver boot type), key]
  dsimp only
  rw [if_neg (not_not.mpr tag), if_pos mgt, if_neg (by simp [mgt, new]), if_pos (by rw [bad]; rfl), if_neg (by simp [mgt])]

/-- A management request that passes every check goes to queue 0x20. -/
theorem datagramRx_request (mgt : d.chan = 1) (new : s.eth.mgtRx.toNat < d.seq.toNat) (good : typeOk d = true) :
    exec (.datagramRx d) s = .next (State.deviceItem { s with eth.mgtRx := d.seq, eth.mgtVer := d.ver } 0x20
      (some (devHdr 6 0 0 0 none)) d.payload (.request d)) := by
  simp only [exec, execDatagramRx]
  rw [if_neg (by rw [active]; decide), if_neg (datagram_formed whole magic len chan),
    if_neg (datagram_current ver boot type), key]
  dsimp only
  rw [if_neg (not_not.mpr tag), if_pos mgt, if_neg (by simp [mgt, new]), if_neg (by rw [good]; decide), if_pos mgt]
  exact congrArg Host.Outcome.next (if_pos mgt)

/-- A data datagram of the tunnel waits for its record to be taken. -/
theorem datagramRx_data (tunnel : d.chan = 2) (data : d.dir = 0) (good : typeOk d = true) (empty : s.eth.dgrams = []) :
    exec (.datagramRx d) s = .next { s with eth.dgrams := [(true, d)] } := by
  have one : d.chan ≠ 1 := by rw [tunnel]; decide
  have kept : s.dgKeep true d = { s with eth.dgrams := [(true, d)] } := by
    unfold State.dgKeep
    rw [if_neg one, empty]
    rfl
  simp only [exec, execDatagramRx]
  rw [if_neg (by rw [active]; decide), if_neg (datagram_formed whole magic len chan),
    if_neg (datagram_current ver boot type), key]
  dsimp only
  rw [if_neg (not_not.mpr tag), if_neg (by simp [tunnel, data]), if_neg (by rw [good]; decide), if_neg one,
    if_pos (by simp [tunnel, data]), kept]

end

/-- Settles O54: each check in its turn. -/
theorem datagramChecks : Obligations.DatagramChecks := by
  refine fun s d active => ⟨datagramRx_malformed active, fun whole magic len mgt port => ?_,
    fun k whole magic len tun port run ver boot type data key tag good empty => ?_⟩
  · have chan : (d.chan = 1 ∧ d.port = s.rd Reg.ETH_MGT_PORT) ∨
        (d.chan = 2 ∧ d.port = s.rd Reg.ETH_TUN_PORT ∧ s.tunRuns = true) := .inl ⟨mgt, port⟩
    have key : s.dgKey d = if s.key.zeroised then none else s.mgmtKey := if_pos mgt
    refine ⟨datagramRx_info active whole magic len chan, fun ver boot type => ⟨fun none' => ?_, fun k held mine => ?_⟩⟩
    · refine datagramRx_noKey active whole magic len chan ver boot type (key.trans ?_)
      rcases none' with zero | none'
      · exact if_pos zero
      · rw [none', ite_self]
    · have key' : s.dgKey d = some k := key.trans ((if_neg (by rw [held]; decide)).trans mine)
      exact ⟨datagramRx_forged active whole magic len chan ver boot type key',
        fun tag => datagramRx_replay active whole magic len chan ver boot type key' tag mgt,
        fun tag => datagramRx_badType active whole magic len chan ver boot type key' tag mgt,
        fun tag => datagramRx_request active whole magic len chan ver boot type key' tag mgt⟩
  · exact datagramRx_data active whole magic len (.inr ⟨tun, port, run⟩) ver boot type key tag tun data good empty

end Sys2Proof.Machine

/-!
PROOF. The headless tunnel (O56, R375 to R378).
-/

namespace Sys2Proof.Machine

/-! ### System queues -/

theorem State.setSysQ_sysQ_other (s : State) {q r : Nat} (x : Queue) (other : r ≠ q) : (s.setSysQ q x).sysQ r = s.sysQ r :=
  congrArg (fun o => o.getD emptyQueue) (mget_mset_other _ _ _ _ other)

theorem State.releaseSys_sysQ_other (s : State) {q r : Nat} (other : r ≠ q) : (s.releaseSys q).sysQ r = s.sysQ r := by
  rw [State.releaseSys, State.sysQ_correctCells, State.setSysQ_sysQ_other _ _ other]

theorem State.sysQ_of_car {s t : State} (same : t.car = s.car) (q : Nat) : t.sysQ q = s.sysQ q := by
  unfold State.sysQ
  rw [same]

/-- An item linked to a system queue stands last on it; every other queue is as it was. -/
theorem State.linkSys_sysQ (s : State) (q : Nat) (hdr : Option Hdr) (body : List Byte) (note : ItemNote) :
    (∃ cells, (s.linkSys q hdr body note).sysQ q = Queue.push (s.sysQ q) hdr body cells note) ∧
      ∀ r ≠ q, (s.linkSys q hdr body note).sysQ r = s.sysQ r := by
  have car : ∃ cells, ∀ r, (s.linkSys q hdr body note).sysQ r = ((s.takeCells (if hdr.isSome then cellsOf body.length else 1)).2.setSysQ q
      (Queue.push (s.sysQ q) hdr body cells note)).sysQ r := by
    refine ⟨(s.takeCells (if hdr.isSome then cellsOf body.length else 1)).1, fun r => ?_⟩
    unfold State.linkSys
    dsimp only
    generalize (if hdr.isSome then cellsOf body.length else 1) = n
    have same : (s.takeCells n).2.sysQ q = s.sysQ q := State.sysQ_of_car (by simp) q
    rw [same]
    generalize (s.takeCells n).2.setSysQ q (Queue.push (s.sysQ q) hdr body (s.takeCells n).1 note) = t
    have linked : (t.noteFree.correctCells (s.takeCells n).1).sysQ r = t.sysQ r := by
      rw [State.sysQ_correctCells]
      exact State.sysQ_of_car (by simp) r
    refine (State.sysQ_of_car ?_ r).trans linked
    (repeat' split) <;> simp
  obtain ⟨cells, car⟩ := car
  refine ⟨⟨cells, (car q).trans (State.setSysQ_sysQ _ _ _)⟩, fun r other => (car r).trans ?_⟩
  rw [State.setSysQ_sysQ_other _ _ other]
  exact State.sysQ_of_car (by simp) r

/-! ### Datagrams leave (R377) -/

theorem State.tunKey_of {s t : State} (state : t.rd Reg.KEY_KSTATE = s.rd Reg.KEY_KSTATE)
    (lc : t.rd Reg.SYS_LC_STATE = s.rd Reg.SYS_LC_STATE) (aon : t.aon = s.aon) (otp : t.otp = s.otp) (key : t.key = s.key) :
    t.tunKey = s.tunKey := by
  simp only [State.tunKey, State.devIdent, state, lc, aon, otp, key]

section
variable {s : State} {k : Key} (key : s.tunKey = some k)
include key

/-- A tunnel datagram leaves, secured. -/
theorem State.tunSend_out (type dir : Byte) (seq : Word) (payload : List Byte) :
    ∃ o, (s.tunSend type dir seq payload).out = s.out ++ [.datagram o] ∧ o.dst = s.heIp6 ∧
      o.dstPort = s.rd Reg.ETH_HE_PORT ∧ o.key = some k ∧ o.payload = payload ∧
      o.head = dgHeader s.eth.tunVer 2 type dir (s.rd Reg.ETH_BOOT_ID) seq
        (BitVec.ofNat 32 (s.rd Reg.ETH_TUN_RX_NEXT)) payload.length s.aon.store.epoch := by
  unfold State.tunSend
  rw [key]
  exact ⟨_, rfl, rfl, rfl, rfl, rfl, rfl⟩

/-- A datagram that is sent again leaves with its body. -/
theorem State.tunResend_out {x : QItem} {n : Word} {ty : Byte} (data : QItem.tunnel x = some (n, ty)) :
    ∃ o, (s.tunResend x).out = s.out ++ [.datagram o] ∧ o.key = some k ∧ o.payload = x.body ∧ o.dst = s.heIp6 := by
  unfold State.tunResend
  rw [data]
  obtain ⟨o, out, dst, -, key, payload, -⟩ := State.tunSend_out key ty 1 n x.body
  exact ⟨o, out, key, payload, dst⟩

end

/-- A sending changes no part of the state. -/
theorem State.tunResend_reads (s : State) (x : QItem) :
    (s.tunResend x).regs = s.regs ∧ (s.tunResend x).car = s.car ∧ (s.tunResend x).eth = s.eth := by
  unfold State.tunResend
  split
  · exact ⟨by simp, by simp, by simp⟩
  · exact ⟨rfl, rfl, rfl⟩

theorem State.tunResends_reads (s : State) (l : List QItem) :
    (l.foldl State.tunResend s).regs = s.regs ∧ (l.foldl State.tunResend s).car = s.car ∧
      (l.foldl State.tunResend s).eth = s.eth :=
  ⟨foldl_keeps (fun (t : State) => t.regs) _ _ _ (fun t x => (t.tunResend_reads x).1),
    foldl_keeps (fun (t : State) => t.car) _ _ _ (fun t x => (t.tunResend_reads x).2.1),
    foldl_keeps (fun (t : State) => t.eth) _ _ _ (fun t x => (t.tunResend_reads x).2.2)⟩

/-! ### Acknowledgements of the head-end (R377) -/

/-- The release of acknowledged datagrams. -/
theorem State.trimOut_get {g : Fld} (h : g.offQueues = true) (s : State) (n c : Nat) :
    g.get (s.trimOut n).regs 0 c = g.get s.regs 0 c := by
  induction n generalizing s with
  | zero => rfl
  | succ n ih =>
    unfold State.trimOut
    split
    · split
      · exact (ih _).trans (s.releaseSys_get h _ c)
      · rfl
    · rfl

/-- A datagram that an acknowledgement at `acked` covers. -/
def QItem.below (acked : Nat) (x : QItem) : Bool := (QItem.tunnel x).any (fun p => p.1.toNat < acked)

theorem QItem.below_data {acked : Nat} {x : QItem} {seq : Word} {type : Byte} (data : QItem.tunnel x = some (seq, type)) :
    QItem.below acked x = decide (seq.toNat < acked) := by
  rw [QItem.below, data]
  rfl

theorem State.trimOut_items (s : State) (n : Nat) (run : s.runs .CAR = true) (length : (s.sysQ 0x22).items.length = n) :
    ((s.trimOut n).sysQ 0x22).items = (s.sysQ 0x22).items.dropWhile (QItem.below (s.rd Reg.ETH_TUN_TX_ACKED)) := by
  induction n generalizing s with
  | zero => rw [List.length_eq_zero_iff.mp length]; exact List.length_eq_zero_iff.mp length
  | succ n ih =>
    obtain ⟨x, l, items⟩ : ∃ x l, (s.sysQ 0x22).items = x :: l := List.exists_cons_of_length_eq_add_one length
    have rest := s.releaseSys_items 0x22 items
    have acked : (s.releaseSys 0x22).rd Reg.ETH_TUN_TX_ACKED = s.rd Reg.ETH_TUN_TX_ACKED := s.releaseSys_get (by decide) _ _
    have run' : (s.releaseSys 0x22).runs .CAR = true :=
      (State.runs_of_rd (s.releaseSys_get (by decide) _ _) (s.releaseSys_get (by decide) _ _) .CAR).trans run
    unfold State.trimOut
    rw [items, List.dropWhile_cons]
    simp only [List.head?_cons, Option.bind_some]
    cases data : QItem.tunnel x with
    | none =>
      rw [if_neg (by simp [QItem.below, data])]
      exact items
    | some p =>
      obtain ⟨seq, type⟩ := p
      by_cases low : seq.toNat < s.rd Reg.ETH_TUN_TX_ACKED
      · rw [if_pos ((QItem.below_data data).trans (decide_eq_true low))]
        refine (congrArg (fun t : State => (t.sysQ 0x22).items) (if_pos (by rw [run, decide_eq_true low]; rfl))).trans ?_
        rw [ih _ run' (by rw [rest]; rw [items] at length; simpa using length), rest, acked]
      · rw [if_neg (by rw [QItem.below_data data, decide_eq_false low]; decide)]
        exact (congrArg (fun t : State => (t.sysQ 0x22).items) (if_neg (by rw [decide_eq_false low]; simp))).trans items

theorem State.trimOut_eth (s : State) (n : Nat) : (s.trimOut n).eth = s.eth := by simp

theorem State.ackOut_get {g : Fld} (h : g.offQueues = true) (h' : g.place ≠ Reg.ETH_TUN_TX_ACKED.place) (s : State)
    (ack : Word) (c : Nat) : g.get (s.ackOut ack).regs 0 c = g.get s.regs 0 c := by
  unfold State.ackOut
  split
  · exact (State.trimOut_get h _ _ c).trans (State.get_wr_place h' ..)
  · rfl

theorem State.ackOut_eth (s : State) (ack : Word) : (s.ackOut ack).eth.dgrams = s.eth.dgrams := by
  unfold State.ackOut
  split
  · rw [State.trimOut_eth]
    rfl
  · rfl

/-! ### The SEQ of a record (R376) -/

/-- The record of the next SEQ is taken, and TUN_RX_NEXT moves on. -/
theorem State.tunSeq_next (s : State) (d : Dgram) (next : d.seq.toNat = s.rd Reg.ETH_TUN_RX_NEXT) :
    (s.tunSeq d true).1 = true ∧ (s.tunSeq d true).2.rd Reg.ETH_TUN_RX_NEXT = (d.seq.toNat + 1) % 2 ^ 32 ∧
      (s.tunSeq d true).2.eth.dgrams = s.eth.dgrams := by
  have form : s.tunSeq d true = (true, ({ ({ s with eth.ackDue := true } : State).wr Reg.ETH_TUN_RX_NEXT
      (s.rd Reg.ETH_TUN_RX_NEXT + 1) with eth.tunVer := d.ver } : State).ackOut d.ack) := by
    unfold State.tunSeq
    exact (if_neg (by rw [next]; exact lt_irrefl _)).trans (if_neg (by rw [next]; simp [State.rd]))
  rw [form, next]
  refine ⟨rfl, ?_, State.ackOut_eth _ _⟩
  rw [State.rd_get, State.ackOut_get (by decide) (by decide)]
  exact State.rd_wr_same _ Reg.ETH_TUN_RX_NEXT _

/-- A record whose SEQ has been taken counts in TUN_DUP. -/
theorem State.tunSeq_old (s : State) (d : Dgram) (room : Bool) (old : d.seq.toNat < s.rd Reg.ETH_TUN_RX_NEXT) :
    s.tunSeq d room = (false, State.bump { s with eth.ackDue := true } Reg.ETH_TUN_DUP) :=
  if_pos old

/-- With no datagram at hand nothing more is taken. -/
theorem State.dgDrain_none (s : State) (n : Nat) (empty : s.eth.dgrams = []) : s.dgDrain n = s := by
  cases n with
  | zero => rfl
  | succ n =>
    unfold State.dgDrain
    rw [empty]

theorem State.dgFront_only {s : State} {d : Dgram} (only : s.eth.dgrams = [(true, d)]) {chan type : Byte}
    (isChan : d.chan = chan) (isType : d.type = type) (run : s.runs .ETH = true) : s.dgFront chan type = some d := by
  unfold State.dgFront
  rw [only]
  exact if_pos (by simp [isChan, isType, run])

theorem State.runs_of_tunRuns {s : State} (runs : s.tunRuns = true) : s.runs .ETH = true := by
  simp only [State.tunRuns, State.epActive, Bool.and_eq_true] at runs
  obtain ⟨⟨⟨-, ⟨⟨⟨-, run⟩, -⟩, -⟩⟩, -⟩, -⟩ := runs
  exact run

/-! ### A DOWN record (R375) -/

/-- A descriptor stands on ring 0 for a record of the tunnel. -/
def State.tunSlot (s : State) (seq : Word) (idx : BitVec 16) : Prop :=
  ∃ p ∈ s.hst.txSlots, p.1 = 0 ∧ p.2.tunSeq = some seq ∧ p.2.idx = idx

section
variable {s : State} {seq : Word} {idx : BitVec 16} (slot : s.tunSlot seq idx)
include slot

theorem State.tunSlot_of_hst {t : State} (same : t.hst = s.hst) : t.tunSlot seq idx := by
  unfold State.tunSlot
  rw [same]
  exact slot

/-- What changes slots without their ring, SEQ and index keeps the descriptor. -/
theorem State.tunSlot_map {t : State} {f : Nat × TxSlot → Nat × TxSlot} (mapped : t.hst.txSlots = s.hst.txSlots.map f)
    (keeps : ∀ p, (f p).1 = p.1 ∧ (f p).2.tunSeq = p.2.tunSeq ∧ (f p).2.idx = p.2.idx) : t.tunSlot seq idx := by
  obtain ⟨p, mem, ring, isSeq, isIdx⟩ := slot
  obtain ⟨ring', seq', idx'⟩ := keeps p
  exact ⟨f p, mapped ▸ List.mem_map_of_mem mem, ring'.trans ring, seq'.trans isSeq, idx'.trans isIdx⟩

theorem State.markEnqueued_tunSlot (h : Hdr) : (s.markEnqueued h).tunSlot seq idx :=
  State.tunSlot_map slot rfl fun p => by split <;> exact ⟨rfl, rfl, rfl⟩

theorem State.settle_tunSlot (h : Hdr) (status reason : Byte) : (s.settle h status reason).tunSlot seq idx := by
  have first : (s.settleSlot h (Hdr.completion h status reason)).tunSlot seq idx :=
    State.tunSlot_map slot rfl fun p => by split <;> exact ⟨rfl, rfl, rfl⟩
  unfold State.settle
  dsimp only
  split
  · exact State.tunSlot_map first rfl fun p => by split <;> exact ⟨rfl, rfl, rfl⟩
  · exact first

theorem State.enqueueNode_tunSlot (n : BitVec 18) (h : Hdr) (body : List Byte) : (s.enqueueNode n h body).tunSlot seq idx := by
  have read : (s.access n 5).2.tunSlot seq idx := State.tunSlot_of_hst slot (by simp)
  have settled : ∀ (t : State) (st r : Byte) (f : Fld), t.tunSlot seq idx → ((t.settle h st r).bump f).tunSlot seq idx :=
    fun t st r f held => State.tunSlot_of_hst (State.settle_tunSlot held h st r) rfl
  unfold State.enqueueNode
  dsimp only
  split
  · exact settled s _ _ _ slot
  split
  · exact settled _ _ _ _ read
  split
  · split
    · exact State.tunSlot_of_hst read (by simp)
    · exact settled _ _ _ _ read
  · split <;> exact State.tunSlot_of_hst read (by simp)

theorem State.postItem_tunSlot (w : WaitItem) : (s.postItem w).tunSlot seq idx := by
  have marked := State.markEnqueued_tunSlot slot w.hdr
  have queued : (s.enqueueItem w).tunSlot seq idx := by
    unfold State.enqueueItem
    dsimp only
    split
    · exact State.enqueueNode_tunSlot marked _ _ _
    · split
      · exact State.tunSlot_of_hst (State.settle_tunSlot marked _ _ _) rfl
      · exact State.tunSlot_of_hst marked (by simp)
  unfold State.postItem
  split
  · exact marked
  unfold State.offerItem
  split
  · exact queued
  · dsimp only
    split
    · exact State.tunSlot_of_hst slot (by simp)
    · exact State.tunSlot_of_hst slot rfl

end

section
variable {g : Fld} (h : g.offWheel = true)
include h

theorem State.queueRose_get (s : State) (n : BitVec 18) (c : Nat) : g.get (s.queueRose n).regs 0 c = g.get s.regs 0 c := by
  unfold State.queueRose
  split
  · rfl
  split
  · rfl
  split
  · exact State.unreach_get h s n c
  · exact State.placeNode_get h s n c

variable (fence : g.place ≠ Reg.SYS_FENCED_DL.place)
include fence

/-- A frame that is enqueued, refused or left waiting moves no field off CAR, NTB and SCH. -/
theorem State.postItem_get (s : State) (w : WaitItem) (c : Nat) : g.get (s.postItem w).regs 0 c = g.get s.regs 0 c := by
  have table := Fld.offTable_of_offWheel h
  have queues := Fld.offQueues_of_offWheel h
  have car : ∀ {f : Fld}, f.page = 9 → g.place ≠ f.place := fun p e => Fld.page_offQueues queues p (by rw [Fld.page, Fld.page, e])
  have refused : ∀ (t : State) (x : Hdr) (st r : Byte) (f : Fld), g.place ≠ f.place →
      g.get ((t.settle x st r).bump f).regs 0 c = g.get t.regs 0 c := fun t x st r f off => by
    rw [State.get_bump_place off, (State.settle_keeps t x st r).1]
  have node : ∀ (t : State) (n : BitVec 18) (x : Hdr) (body : List Byte),
      g.get (t.enqueueNode n x body).regs 0 c = g.get t.regs 0 c := fun t n x body => by
    have read : g.get (t.access n 5).2.regs 0 c = g.get t.regs 0 c := State.access_get table t n 5 c
    have pushed : ∀ (q : Queue) (m : Nat), g.get ((((t.access n 5).2.takeCells m).2.setNodeQ n q).noteFree).regs 0 c =
        g.get t.regs 0 c := fun q m => by
      rw [State.noteFree_get queues, State.setNodeQ_get table, (State.takeCells_keeps _ _).1, read]
    unfold State.enqueueNode
    dsimp only
    split
    · exact refused _ _ _ _ _ fence
    split
    · exact (refused _ _ _ _ _ (car rfl)).trans read
    split
    · split
      · exact pushed _ _
      · exact (refused _ _ _ _ _ (car rfl)).trans read
    · split
      · exact pushed _ _
      · exact (State.queueRose_get h _ n c).trans (pushed _ _)
  unfold State.postItem
  split
  · rfl
  unfold State.offerItem
  split
  · unfold State.enqueueItem
    dsimp only
    split
    · exact node _ _ _ _
    · split
      · exact refused _ _ _ _ _ fence
      · exact State.linkSys_get queues _ _ _ _ _ c
  · dsimp only
    split
    · exact State.get_ev_place (car rfl) ..
    · rfl

end

/-! ### The drain and the timeout (R377) -/

theorem State.drainPick_lt (s : State) {q : Nat} (pick : s.drainPick = some q) : q < 21 := by
  obtain ⟨i, -, rfl⟩ := List.mem_map.mp (List.mem_of_find?_eq_some pick)
  exact Nat.mod_lt _ (by decide)

/-- The item of queue 0x22 for the next outbound data datagram. -/
def State.outItem (s : State) (type : Byte) (payload : List Byte) (cells : List Nat) : QItem :=
  { hdr := some (devHdr 6 0 0 0 none)
    body := payload
    cells := cells
    enq := (s.sysQ 0x22).enqs
    note := .tunnel (BitVec.ofNat 32 (s.rd Reg.ETH_TUN_TX_NEXT)) type }

/-- An outbound data datagram stands last on queue 0x22 and leaves under the next SEQ. -/
theorem State.tunData_spec {s : State} {k : Key} (key : s.tunKey = some k) (type : Byte) (payload : List Byte) :
    let t := s.tunData type payload
    (∀ r ≠ 0x22, t.sysQ r = s.sysQ r) ∧ t.rd Reg.ETH_TUN_TX_NEXT = (s.rd Reg.ETH_TUN_TX_NEXT + 1) % 2 ^ 32 ∧
      t.eth.ackDue = false ∧ ∃ x o, (t.sysQ 0x22).items = (s.sysQ 0x22).items ++ [x] ∧ x.body = payload ∧
        QItem.tunnel x = some (BitVec.ofNat 32 (s.rd Reg.ETH_TUN_TX_NEXT), type) ∧ t.out = s.out ++ [.datagram o] ∧
        o.key = some k ∧ o.payload = x.body := by
  intro t
  generalize hu : ({ s.wrap Reg.ETH_TUN_TX_NEXT with eth.ackDue := false } : State) = u
  generalize hw : u.linkSys 0x22 (some (devHdr 6 0 0 0 none)) payload
    (.tunnel (BitVec.ofNat 32 (s.rd Reg.ETH_TUN_TX_NEXT)) type) = w
  have ht : t = w.tunSend type 1 (BitVec.ofNat 32 (s.rd Reg.ETH_TUN_TX_NEXT)) payload := by
    rw [← hw, ← hu]
    rfl
  obtain ⟨⟨cells, linked⟩, others⟩ := u.linkSys_sysQ 0x22 (some (devHdr 6 0 0 0 none)) payload
    (.tunnel (BitVec.ofNat 32 (s.rd Reg.ETH_TUN_TX_NEXT)) type)
  have car : u.car = s.car := by rw [← hu]; rfl
  have sent : t.car = w.car ∧ t.eth = w.eth ∧ t.regs = w.regs := by rw [ht]; exact ⟨by simp, by simp, by simp⟩
  obtain ⟨sentCar, sentEth, sentRegs⟩ := sent
  have kept : w.eth = u.eth ∧ w.out = u.out ∧ w.aon = u.aon ∧ w.otp = u.otp ∧ w.key = u.key := by
    rw [← hw]
    exact ⟨by simp, by simp, by simp, by simp, by simp⟩
  obtain ⟨eth, out, aon, otp, keys⟩ := kept
  have get : ∀ {g : Fld}, g.offQueues = true → g.get w.regs 0 0 = g.get u.regs 0 0 := fun h => by
    rw [← hw]
    exact State.linkSys_get h _ _ _ _ _ 0
  have key' : w.tunKey = some k := by
    refine (State.tunKey_of (get (by decide)) (get (by decide)) aon otp keys).trans (Eq.trans ?_ key)
    rw [← hu]
    exact State.tunKey_of (State.get_wr_place (f := Reg.ETH_TUN_TX_NEXT) (by decide) ..)
      (State.get_wr_place (f := Reg.ETH_TUN_TX_NEXT) (by decide) ..) rfl rfl rfl
  obtain ⟨o, left, -, -, secured, load, -⟩ := State.tunSend_out key' type 1 (BitVec.ofNat 32 (s.rd Reg.ETH_TUN_TX_NEXT)) payload
  refine ⟨fun r other => ?_, ?_, ?_, s.outItem type payload cells, o, ?_, rfl, rfl, ?_, secured, load⟩
  · rw [State.sysQ_of_car sentCar, ← hw, others r other]
    exact State.sysQ_of_car car r
  · rw [State.rd_get, sentRegs, get (by decide), ← hu]
    exact s.rd_wr_same Reg.ETH_TUN_TX_NEXT _
  · rw [sentEth, eth, ← hu]
  · rw [State.sysQ_of_car sentCar, ← hw, linked, State.sysQ_of_car car]
    rfl
  · rw [ht, left, out, ← hu]
    rfl

/-- Every item of a list sent again: the counters of the timeout. -/
def State.resent (s : State) (l : List QItem) : State :=
  { ((l.foldl State.tunResend s).bumpN Reg.ETH_TUN_RETX l.length) with
    eth.rtoCnt := (l.foldl State.tunResend s).eth.rtoCnt + 1
    eth.ackDue := false }

/-- The third timeout in a row raises the event. -/
def State.warned (s : State) : State := if s.eth.rtoCnt = 3 then s.ev Reg.ETH_ETH_EVT 1 128 else s

theorem State.warned_reads (s : State) : s.warned.car = s.car ∧ s.warned.eth = s.eth ∧ s.warned.out = s.out := by
  unfold State.warned
  split
  · exact ⟨by simp, by simp, by simp⟩
  · exact ⟨rfl, rfl, rfl⟩

/-! ### The commands -/

/-- The state without its waiting datagrams. -/
def State.popped (s : State) : State := { s with eth.dgrams := [] }

theorem State.dgPop_only {s : State} {x : Bool × Dgram} (only : s.eth.dgrams = [x]) : s.dgPop = s.popped := by
  unfold State.dgPop
  rw [only]
  rfl

/-- A table command alone on the queue, not withdrawn and of a defined OP, waits there. -/
theorem State.tblPost_only (s : State) (c : TblCmd) (empty : s.ntb.cmdQ = []) (live : c.aborted = false) (low : 1 ≤ c.op)
    (high : c.op ≤ 6) : s.tblPost c = { s with ntb.cmdQ := [c] } := by
  have form : s.tblPost c = (if s.runs .NTB then State.tblSkip { s with ntb.cmdQ := [c] } 1 else { s with ntb.cmdQ := [c] }) := by
    unfold State.tblPost
    rw [empty]
    rfl
  have waits : State.tblSkip { s with ntb.cmdQ := [c] } 1 = { s with ntb.cmdQ := [c] } :=
    (if_neg (by rw [live]; decide)).trans (if_neg (by simp; omega))
  rw [form, waits, ite_self]

section
variable {s : State} {d : Dgram} (runs : s.tunRuns = true) (only : s.eth.dgrams = [(true, d)]) (chan : d.chan = 2)
include runs only chan

/-- A record whose SEQ has been taken makes an ACK due and counts in TUN_DUP. -/
theorem exec_tunRecord_old (old : d.seq.toNat < s.rd Reg.ETH_TUN_RX_NEXT) :
    (d.type = 0x10 → exec .tunDown s =
      .next (State.bump { s with eth.dgrams := [], eth.ackDue := true } Reg.ETH_TUN_DUP)) ∧
    (d.type = 0x11 → exec .tunTable s =
      .next (State.bump { s with eth.dgrams := [], eth.ackDue := true } Reg.ETH_TUN_DUP)) := by
  have seq := fun room => s.popped.tunSeq_old d room old
  refine ⟨fun type => ?_, fun type => ?_⟩
  · simp only [exec, execTunDown]
    rw [State.dgFront_only only chan type (State.runs_of_tunRuns runs)]
    dsimp only
    rw [State.dgPop_only only, seq]
    rfl
  · simp only [exec, execTunTable]
    rw [State.dgFront_only only chan type (State.runs_of_tunRuns runs)]
    dsimp only
    rw [State.dgPop_only only, seq]
    rfl

variable (next : d.seq.toNat = s.rd Reg.ETH_TUN_RX_NEXT) (idle : s.tunWaits = false)
include next idle

/-- A DOWN record of the next SEQ is taken. -/
theorem exec_tunDown_next (type : d.type = 0x10) (free : s.rdB Reg.HST_RING_FENCED 0 0 = 0) :
    ∃ t, exec .tunDown s = .next t ∧ t.rd Reg.ETH_TUN_RX_NEXT = (d.seq.toNat + 1) % 2 ^ 32 ∧
      t.tunSlot d.seq (d.seq.setWidth 16) := by
  obtain ⟨taken, moved, none'⟩ := s.popped.tunSeq_next d next
  have room : (!s.popped.tunWaits && s.popped.rdB Reg.HST_RING_FENCED 0 0 = 0 && s.popped.tunRuns) = true := by
    show (!s.tunWaits && s.rdB Reg.HST_RING_FENCED 0 0 = 0 && s.tunRuns) = true
    rw [idle, runs, decide_eq_true free]
    rfl
  simp only [exec, execTunDown]
  rw [State.dgFront_only only chan type (State.runs_of_tunRuns runs)]
  dsimp only
  rw [State.dgPop_only only, room, if_neg (by rw [taken]; decide)]
  generalize (s.popped.tunSeq d true).2 = t at moved none'
  generalize hw : (t.readTx (d.payload.take 16) (d.payload.length - 16) (d.payload.drop 16) true 0 (d.seq.setWidth 16)) = w
  generalize ht : ({ t with hst.txSlots := t.hst.txSlots ++ [(0,
    ({ idx := d.seq.setWidth 16, tgt := w.1, handle := w.2.hdr.handle, hseq := w.2.hdr.seq, enqueued := false,
       done := none, tunSeq := some d.seq } : TxSlot))] } : State) = u
  have slot : u.tunSlot d.seq (d.seq.setWidth 16) := by
    rw [← ht]
    exact ⟨_, List.mem_append_right _ (List.mem_singleton_self _), rfl, rfl, rfl⟩
  have kept : (u.postItem w.2).eth.dgrams = [] := by
    have eth : (u.postItem w.2).eth = u.eth := by simp
    rw [eth, ← ht]
    exact none'
  refine ⟨_, congrArg Host.Outcome.next (State.dgDrain_none _ _ kept), ?_, State.postItem_tunSlot slot w.2⟩
  rw [State.rd_get, State.postItem_get (by decide) (by decide), ← ht]
  exact moved

/-- A TABLE record of the next SEQ is taken. -/
theorem exec_tunTable_next (type : d.type = 0x11) (free : s.rdB Reg.HST_RING_FENCED 0 tblRing = 0)
    (empty : s.ntb.cmdQ = []) (low : 1 ≤ leAt d.payload 0 1) (high : leAt d.payload 0 1 ≤ 6) :
    ∃ t, exec .tunTable s = .next t ∧ t.rd Reg.ETH_TUN_RX_NEXT = (d.seq.toNat + 1) % 2 ^ 32 ∧
      t.ntb.tblSeq = s.ntb.tblSeq + 1 ∧
      t.ntb.cmdQ = [{ seq := s.ntb.tblSeq, bytes := d.payload, tunnel := true, aborted := false }] := by
  obtain ⟨taken, moved, none'⟩ := s.popped.tunSeq_next d next
  have room : (!s.popped.tunWaits && s.popped.rdB Reg.HST_RING_FENCED 0 tblRing = 0 && s.popped.tunRuns) = true := by
    show (!s.tunWaits && s.rdB Reg.HST_RING_FENCED 0 tblRing = 0 && s.tunRuns) = true
    rw [idle, runs, decide_eq_true free]
    rfl
  have ntb : (s.popped.tunSeq d true).2.ntb = s.ntb := by simp [State.popped]
  simp only [exec, execTunTable]
  rw [State.dgFront_only only chan type (State.runs_of_tunRuns runs)]
  dsimp only
  rw [State.dgPop_only only, room, if_neg (by rw [taken]; decide)]
  generalize (s.popped.tunSeq d true).2 = t at moved none' ntb
  rw [State.tblPost_only _ { seq := t.ntb.tblSeq, bytes := d.payload, tunnel := true, aborted := false }
    (by show t.ntb.cmdQ = []; rw [ntb]; exact empty) rfl low high]
  refine ⟨_, congrArg Host.Outcome.next (State.dgDrain_none _ _ none'), moved, ?_, ?_⟩
  · show t.ntb.tblSeq + 1 = _
    rw [ntb]
  · show [({ seq := t.ntb.tblSeq, bytes := d.payload, tunnel := true, aborted := false } : TblCmd)] = _
    rw [ntb]

omit next idle

/-- An ACK releases what it covers. -/
theorem exec_tunAckRx (type : d.type = 0x1F) (run : s.runs .CAR = true) (above : s.rd Reg.ETH_TUN_TX_ACKED < d.ack.toNat)
    (sent : d.ack.toNat ≤ s.rd Reg.ETH_TUN_TX_NEXT) :
    ∃ t, exec .tunAckRx s = .next t ∧
      (t.sysQ 0x22).items = (s.sysQ 0x22).items.dropWhile (QItem.below d.ack.toNat) ∧
      t.rd Reg.ETH_TUN_TX_ACKED = d.ack.toNat ∧ t.eth.rtoCnt = 0 ∧ t.eth.dgrams = [] := by
  generalize hu : ({ s.popped.wr Reg.ETH_TUN_TX_ACKED d.ack.toNat with eth.rtoCnt := 0 } : State) = u
  have acked : u.rd Reg.ETH_TUN_TX_ACKED = d.ack.toNat := by
    rw [← hu]
    exact (s.popped.rd_wr_same Reg.ETH_TUN_TX_ACKED _).trans (Nat.mod_eq_of_lt d.ack.isLt)
  have form : s.popped.ackOut d.ack = u.trimOut := by
    unfold State.ackOut
    rw [← hu]
    exact if_pos (by rw [Bool.and_eq_true]; exact ⟨decide_eq_true above, decide_eq_true sent⟩)
  have run' : u.runs .CAR = true := by
    rw [← hu]
    exact (State.runs_of_rd (State.get_wr_place (by decide) ..) (State.get_wr_place (by decide) ..) .CAR).trans run
  have eth : u.trimOut.eth = { s.eth with dgrams := [], rtoCnt := 0 } := by
    rw [State.trimOut_eth, ← hu]
    rfl
  have ex : exec .tunAckRx s = .next u.trimOut := by
    simp only [exec, execTunAckRx]
    rw [State.dgFront_only only chan type (State.runs_of_tunRuns runs)]
    dsimp only
    rw [State.dgPop_only only, form, State.dgDrain_none _ _ (by rw [eth])]
  refine ⟨_, ex, ?_, ?_, by rw [eth], by rw [eth]⟩
  · rw [State.trimOut_items u _ run' rfl, acked, ← hu]
    rfl
  · rw [State.rd_get, State.trimOut_get (by decide)]
    exact acked

end

section
variable {s : State} {k : Key} (runs : s.tunRuns = true) (key : s.tunKey = some k)
include runs key

/-- An ACK that is due is sent. -/
theorem exec_tunAckSend (due : s.eth.ackDue = true) :
    ∃ t, exec .tunAckSend s = .next t ∧ t.eth.ackDue = false ∧ t.eth.ctlTx = s.eth.ctlTx + 1 ∧
      ∃ o, t.out = s.out ++ [.datagram o] ∧ o.dst = s.heIp6 ∧ o.dstPort = s.rd Reg.ETH_HE_PORT ∧ o.key = some k ∧
        o.payload = [] ∧ o.head = dgHeader s.eth.tunVer 2 0x9F 3 (s.rd Reg.ETH_BOOT_ID) s.eth.ctlTx
          (BitVec.ofNat 32 (s.rd Reg.ETH_TUN_RX_NEXT)) 0 s.aon.store.epoch := by
  have key' : ({ s with eth.ackDue := false, eth.ctlTx := s.eth.ctlTx + 1 } : State).tunKey = some k := key
  have eth : (State.tunSend { s with eth.ackDue := false, eth.ctlTx := s.eth.ctlTx + 1 } 0x9F 3 s.eth.ctlTx []).eth =
      { s.eth with ackDue := false, ctlTx := s.eth.ctlTx + 1 } := by simp
  exact ⟨_, if_pos (by rw [due, runs, key]; rfl), by rw [eth], by rw [eth], State.tunSend_out key' 0x9F 3 s.eth.ctlTx []⟩

variable (run : s.runs .CAR = true)
include run

/-- A drained item goes to queue 0x22 and leaves. -/
theorem exec_tunDrain {q : Nat} {it : QItem} {l : List QItem} (room : 40 ≤ s.freeCells)
    (window : (s.sysQ 0x22).items.length < s.rd Reg.ETH_TUN_WIN) (pick : s.drainPick = some q) (queue : q ≠ 0x14)
    (items : (s.sysQ q).items = it :: l) :
    ∃ t, exec .tunDrain s = .next t ∧ (t.sysQ q).items = l ∧
      t.rd Reg.ETH_TUN_TX_NEXT = (s.rd Reg.ETH_TUN_TX_NEXT + 1) % 2 ^ 32 ∧ t.eth.ackDue = false ∧
      ∃ x o, (t.sysQ 0x22).items = (s.sysQ 0x22).items ++ [x] ∧ x.body = (tunPayload q it).2 ∧
        QItem.tunnel x = some (BitVec.ofNat 32 (s.rd Reg.ETH_TUN_TX_NEXT), if q < 0x12 then 0x90 else 0x91) ∧
        t.out = s.out ++ [.datagram o] ∧ o.key = some k ∧ o.payload = x.body := by
  have gate : ¬(!s.tunRuns || s.tunKey.isNone || !s.runs .CAR || s.freeCells < 40 ||
      s.rd Reg.ETH_TUN_WIN ≤ (s.sysQ 0x22).items.length) = true := by
    rw [runs, key, run, decide_eq_false (not_lt.mpr room), decide_eq_false (not_le.mpr window)]
    simp
  have head : (s.sysQ q).items.head? = some it := by rw [items]; rfl
  have below := s.drainPick_lt pick
  have ex : exec .tunDrain s = .next ((State.releaseSys { s with eth.rot := q } q).tunData (tunPayload q it).1 (tunPayload q it).2) := by
    simp only [exec, execTunDrain]
    rw [if_neg gate, pick]
    dsimp only
    rw [if_neg queue]
    show (match (s.sysQ q).items.head? with | some it => _ | none => _) = _
    rw [head]
  have type : (tunPayload q it).1 = if q < 0x12 then 0x90 else 0x91 := by
    unfold tunPayload
    split <;> rfl
  generalize hv : State.releaseSys { s with eth.rot := q } q = v at ex
  have released : (v.sysQ q).items = l ∧ v.sysQ 0x22 = s.sysQ 0x22 := by
    rw [← hv]
    exact ⟨State.releaseSys_items _ q items, State.releaseSys_sysQ_other _ (by omega)⟩
  have get : ∀ {g : Fld}, g.offQueues = true → g.get v.regs 0 0 = g.get s.regs 0 0 := fun h => by
    rw [← hv]
    exact State.releaseSys_get h _ q 0
  have whole : v.out = s.out ∧ v.aon = s.aon ∧ v.otp = s.otp ∧ v.key = s.key := by
    rw [← hv]
    exact ⟨by simp, by simp, by simp, by simp⟩
  obtain ⟨out, aon, otp, keys⟩ := whole
  have key' : v.tunKey = some k := (State.tunKey_of (get (by decide)) (get (by decide)) aon otp keys).trans key
  obtain ⟨others, next, due, x, o, linked, body, data, left, secured, load⟩ :=
    State.tunData_spec key' (tunPayload q it).1 (tunPayload q it).2
  have count : v.rd Reg.ETH_TUN_TX_NEXT = s.rd Reg.ETH_TUN_TX_NEXT := get (by decide)
  refine ⟨_, ex, ?_, ?_, due, x, o, ?_, body, ?_, ?_, secured, load⟩
  · rw [others q (by omega)]
    exact released.1
  · rw [next, count]
  · rw [linked, released.2]
  · rw [data, count, type]
  · rw [left, out]

/-- Every unacknowledged datagram is sent again. -/
theorem exec_tunRtoExpire (some' : (s.sysQ 0x22).items ≠ []) :
    ∃ t, exec .tunRtoExpire s = .next t ∧ t.sysQ 0x22 = s.sysQ 0x22 ∧ t.eth.rtoCnt = s.eth.rtoCnt + 1 ∧
      t.eth.ackDue = false ∧
      (∀ (x : QItem) (n : Word) (ty : Byte), (s.sysQ 0x22).items = [x] → QItem.tunnel x = some (n, ty) →
        ∃ o, t.out = s.out ++ [.datagram o] ∧ o.key = some k ∧ o.payload = x.body ∧ o.dst = s.heIp6) ∧
      (s.eth.rtoCnt = 2 → (t.rd Reg.ETH_ETH_EVT).testBit 1 = true) := by
  obtain ⟨-, car, eth⟩ := s.tunResends_reads (s.sysQ 0x22).items
  have ex : exec .tunRtoExpire s = .next ((s.resent (s.sysQ 0x22).items).warned) :=
    if_neg (by rw [runs, key, run, List.isEmpty_eq_false_iff.mpr some']; simp)
  have kept : (s.resent (s.sysQ 0x22).items).car = s.car ∧
      (s.resent (s.sysQ 0x22).items).eth = { s.eth with rtoCnt := s.eth.rtoCnt + 1, ackDue := false } := by
    unfold State.resent
    exact ⟨(by simp : _ = _).trans car, by simp [eth]⟩
  obtain ⟨car', eth'⟩ := kept
  obtain ⟨warnedCar, warnedEth, warnedOut⟩ := (s.resent (s.sysQ 0x22).items).warned_reads
  refine ⟨_, ex, State.sysQ_of_car (warnedCar.trans car') _, ?_, ?_, fun x n ty only data => ?_, fun two => ?_⟩
  · rw [warnedEth, eth']
  · rw [warnedEth, eth']
  · obtain ⟨o, out, rest⟩ := State.tunResend_out key data
    refine ⟨o, ?_, rest⟩
    rw [warnedOut, only]
    exact out
  · have three : (s.resent (s.sysQ 0x22).items).eth.rtoCnt = 3 := by rw [eth', two]
    unfold State.warned
    rw [if_pos three]
    exact State.ev_testBit _ 128 (by decide)

end

/-- Settles O56: records taken or counted, acknowledgements, the drain, the timeout. -/
theorem tunnelMoves : Obligations.TunnelMoves := by
  refine fun s k runs key => ⟨fun d only chan => ⟨exec_tunRecord_old runs only chan, fun next idle =>
    ⟨exec_tunDown_next runs only chan next idle, exec_tunTable_next runs only chan next idle⟩,
    exec_tunAckRx runs only chan⟩, exec_tunAckSend runs key, fun q it l run room window pick queue items => ?_, ?_⟩
  · exact exec_tunDrain runs key run room window pick queue items
  · exact exec_tunRtoExpire runs key

end Sys2Proof.Machine

/-!
PROOF. Heartbeats, the interlock and the takeover (O57, R390 to R407).
-/

namespace Sys2Proof.Machine

/-! ### Heartbeats leave (R393, R403) -/

/-- What the sending of mirror records leaves of TWN and of the time base. -/
def State.stamps (s : State) : Word × List (Word × Nat) × Nat := (s.twn.txSeq, s.twn.sent, s.sys.timeNs)

theorem State.stamps_of {s t : State} (twn : t.twn = s.twn) (sys : unnumbered t.sys = unnumbered s.sys) :
    t.stamps = s.stamps := by
  obtain ⟨l, sys⟩ := sys_of_unnumbered sys
  simp only [State.stamps, twn, sys]

theorem State.linkMirror_stamps (s : State) (l : List (BitVec 16 × List Byte)) : (s.linkMirror l).stamps = s.stamps := by
  induction l generalizing s with
  | nil => rfl
  | cons r rest ih =>
    unfold State.linkMirror
    split
    · exact (ih _).trans (State.stamps_of (by simp) (s.linkSys_sys ..))
    · rfl

theorem State.sendRecord_stamps (s : State) : s.sendRecord.stamps = s.stamps := by
  have released : (s.releaseSys 0x28).stamps = s.stamps := State.stamps_of (by simp) (s.releaseSys_sys 0x28)
  unfold State.sendRecord
  split
  · rfl
  dsimp only
  split
  · exact released
  split
  · exact released
  · exact released

theorem State.sendRecords_stamps (n : Nat) (s : State) : (s.sendRecords n).stamps = s.stamps := by
  induction n generalizing s with
  | zero => exact s.linkMirror_stamps s.twn.toLink
  | succ n ih => exact (ih _).trans s.sendRecord_stamps

theorem State.sendMirror_stamps (s : State) : s.sendMirror.stamps = s.stamps := by
  unfold State.sendMirror
  split
  · exact State.sendRecords_stamps _ s.tick
  · rfl

/-- A unit that is not ACTIVE sends no record. -/
theorem State.sendMirror_idle {s : State} (idle : s.rd Reg.TWN_TW_STATE ≠ 2) : s.sendMirror = s := by
  have no : s.active = false := decide_eq_false idle
  exact if_neg (by rw [no]; simp)

/-- A stamp just added is among the latest sixteen. -/
theorem mem_latest {α : Type} (l : List α) (x : α) : x ∈ (l ++ [x]).drop ((l ++ [x]).length - 16) := by
  have short : (l ++ [x]).length - 16 ≤ l.length := by simp
  rw [List.drop_append_of_le_length short]
  exact List.mem_append_right _ (List.mem_singleton_self x)

/-- The end record of a cycle: the cycle has gone. -/
theorem State.sendRecord_cycle {s : State} {it : QItem} {l : List QItem} {c : MirCycle} {r : List MirCycle}
    (items : (s.sysQ 0x28).items = it :: l) (note : it.note = .mirror c.n) (last : it.body.take 1 = [3])
    (sending : s.twn.sending = c :: r) :
    Out.mirror c ∈ s.sendRecord.out ∧ s.sendRecord.rd Reg.TWN_TW_CYCLE = c.n.toNat ∧
      s.sendRecord.twn.sending = r.filter (fun x => x.n ≠ c.n) := by
  have twn : (s.releaseSys 0x28).twn = s.twn := by simp
  have form : s.sendRecord = (((({ s.releaseSys 0x28 with
      twn.sending := (s.releaseSys 0x28).twn.sending.filter (fun x => x.n ≠ c.n) } : State).wr Reg.TWN_TW_CYCLE c.n.toNat).wr
        Reg.TWN_TW_REGIME (b2n !c.full)).wr Reg.TWN_MIR_BYTES c.bytes).emit (.mirror c) := by
    have found : (s.releaseSys 0x28).twn.sending.find? (fun x => x.n = noteCycle it.note) = some c := by
      rw [twn, sending, note]
      exact List.find?_cons_of_pos (decide_eq_true rfl)
    unfold State.sendRecord
    rw [items]
    dsimp only [List.head?_cons]
    rw [found]
    dsimp only
    rw [if_pos last, note]
    rfl
  rw [form]
  refine ⟨List.mem_append_right _ (List.mem_singleton_self _), ?_, ?_⟩
  · show ((State.wr _ Reg.TWN_TW_REGIME _).wr Reg.TWN_MIR_BYTES c.bytes).rd Reg.TWN_TW_CYCLE = _
    rw [State.rd_get, State.get_wr_place (by decide), State.get_wr_place (by decide)]
    exact (State.rd_wr_same _ Reg.TWN_TW_CYCLE _).trans (Nat.mod_eq_of_lt c.n.isLt)
  · show (s.releaseSys 0x28).twn.sending.filter (fun x => x.n ≠ c.n) = _
    rw [twn, sending, List.filter_cons_of_neg (by simp)]

/-! ### Heartbeats arrive (R391 to R393) -/

/-- What a heartbeat leaves of the partner and of itself. -/
def TwnSt.heard (x : TwnSt) : BitVec 3 × Nat × Word × Nat := (x.partner, x.miss, x.rxSeq, x.rxTime)

theorem State.beginSync_heard (s : State) : s.beginSync.twn.heard = s.twn.heard := rfl

theorem State.resync_heard (s : State) : s.resync.twn.heard = s.twn.heard := by
  have twn : s.resync.twn = s.beginSync.twn := by simp [State.resync]
  rw [twn]
  exact s.beginSync_heard

theorem State.linkRise_heard (s : State) (hb : Heartbeat) : (s.linkRise hb).twn.heard = s.twn.heard := by
  have event : ((s.wr Reg.TWN_TW_LINK 1).ev Reg.TWN_TW_EVT 0 176).twn = s.twn := by simp
  unfold State.linkRise
  split
  · dsimp only
    split
    · refine (State.resync_heard _).trans ?_
      exact congrArg TwnSt.heard event
    · exact congrArg TwnSt.heard event
  · rfl

theorem State.swapOut_heard (s : State) : s.swapOut.twn.heard = s.twn.heard := by
  unfold State.swapOut
  dsimp only
  refine (State.beginSync_heard _).trans ?_
  have fell : ∀ (l : List Grp) (t : State), (l.foldl (fun s g => s.grantFell g) t).twn = t.twn := fun l t =>
    foldl_keeps (fun (t : State) => t.twn) _ _ _ (fun t g => by simp)
  rw [fell]
  simp [TwnSt.heard, State.dropSending]

theorem State.hbAct_heard (s : State) (was : BitVec 3) (hb : Heartbeat) : (s.hbAct was hb).twn.heard = s.twn.heard := by
  unfold State.hbAct
  dsimp only
  split
  · exact s.beginSync_heard
  split
  · exact s.resync_heard
  split
  · split
    · exact s.swapOut_heard
    split
    · split
      · split <;> rfl
      split <;> rfl
    · rfl
  · rfl

/-- The beginning of SYNCING shows it. -/
theorem State.beginSync_state (s : State) : s.beginSync.rd Reg.TWN_TW_STATE = 3 := by
  have regs : s.beginSync.regs = (s.wr Reg.TWN_TW_STATE 3).regs :=
    (State.dropReceived_keeps (s.wr Reg.TWN_TW_STATE 3)).1
  rw [State.rd_get, regs]
  exact s.rd_wr_same Reg.TWN_TW_STATE 3

/-- A unit that does not stand by keeps its state as the link rises, and the link is up after two good heartbeats. -/
theorem State.linkRise_state {s : State} (hb : Heartbeat) (state : s.rd Reg.TWN_TW_STATE = 1) :
    (s.linkRise hb).rd Reg.TWN_TW_STATE = 1 ∧ (2 ≤ s.twn.good → (s.linkRise hb).on Reg.TWN_TW_LINK = true) := by
  unfold State.linkRise
  split
  · have kept : ((((s.wr Reg.TWN_TW_LINK 1).ev Reg.TWN_TW_EVT 0 176).wr Reg.TWN_TW_VER (min
        ((s.wr Reg.TWN_TW_LINK 1).ev Reg.TWN_TW_EVT 0 176).twnMajor hb.verMax)).wr Reg.TWN_TW_PVER hb.verMax).rd
          Reg.TWN_TW_STATE = 1 := by
      rw [State.rd_get, State.get_wr_place (by decide), State.get_wr_place (by decide), State.get_ev_place (by decide),
        State.get_wr_place (by decide)]
      exact state
    dsimp only
    rw [if_neg (by rw [kept]; decide)]
    refine ⟨kept, fun _ => ?_⟩
    rw [State.on_get, State.get_wr_place (by decide), State.get_wr_place (by decide), State.get_ev_place (by decide)]
    exact decide_eq_true (s.rd_wr_same Reg.TWN_TW_LINK 1)
  · next closed =>
    refine ⟨state, fun two => ?_⟩
    rw [decide_eq_true two, Bool.true_and, Bool.not_eq_true', Bool.not_eq_false] at closed
    exact closed

/-- The state after a good heartbeat, before what it makes the unit do. -/
def State.heartbeatTaken (s : State) (hb : Heartbeat) : State :=
  { s.twinOfs hb with
    twn.partner := hb.state
    twn.partnerArmed := hb.armed
    twn.partnerCycle := hb.cycle
    twn.partnerTime := hb.timeSet
    twn.partnerRate := hb.rate
    twn.good := (s.twinOfs hb).twn.good + 1
    twn.miss := 0
    twn.rxSeq := hb.seq
    twn.rxTime := (s.twinOfs hb).sys.timeNs }

/-- Another epoch or another store than the partner's raises its event. -/
def State.compareKeys (s : State) (hb : Heartbeat) : State :=
  if hb.epoch ≠ s.epochCur || hb.sgen ≠ s.aon.store.sgen then s.ev Reg.TWN_TW_EVT 5 176 else s

theorem State.compareKeys_reads (s : State) (hb : Heartbeat) : (s.compareKeys hb).twn = s.twn ∧
    (s.compareKeys hb).rd Reg.TWN_TW_STATE = s.rd Reg.TWN_TW_STATE ∧
    (s.compareKeys hb).on Reg.TWN_TW_LINK = s.on Reg.TWN_TW_LINK := by
  unfold State.compareKeys
  split
  · refine ⟨by simp, State.get_ev_place (by decide) .., ?_⟩
    rw [State.on_get, State.on_get, State.get_ev_place (by decide)]
  · exact ⟨rfl, rfl, rfl⟩

theorem State.twinOfs_reads (s : State) (hb : Heartbeat) : (s.twinOfs hb).sys = s.sys ∧
    (s.twinOfs hb).twn.good = s.twn.good ∧ (s.twinOfs hb).rd Reg.TWN_TW_STATE = s.rd Reg.TWN_TW_STATE := by
  unfold State.twinOfs
  split
  · exact ⟨rfl, rfl, State.get_wr_place (by decide) ..⟩
  · exact ⟨rfl, rfl, rfl⟩

/-- A good heartbeat records the partner; the second in a row brings the link up; a unit that waits and hears an ACTIVE
one takes its full copy. -/
theorem exec_heartbeatRx_good {s : State} {hb : Heartbeat} (runs : s.twnOn = true) (good : hb.good = true) :
    ∃ t, exec (.heartbeatRx hb) s = .next t ∧ t.twn.partner = hb.state ∧ t.twn.miss = 0 ∧ t.twn.rxSeq = hb.seq ∧
      t.twn.rxTime = s.sys.timeNs ∧
      (1 ≤ s.twn.good → s.rd Reg.TWN_TW_STATE = 1 → hb.state = 1 → t.on Reg.TWN_TW_LINK = true) ∧
      (s.rd Reg.TWN_TW_STATE = 1 → hb.state = 2 → t.rd Reg.TWN_TW_STATE = 3) := by
  obtain ⟨sys, count, state⟩ := s.twinOfs_reads hb
  have ex : exec (.heartbeatRx hb) s =
      .next ((((s.heartbeatTaken hb).linkRise hb).compareKeys hb).hbAct s.twn.partner hb) :=
    if_neg (by rw [runs, good]; decide)
  obtain ⟨twn, same, link⟩ := ((s.heartbeatTaken hb).linkRise hb).compareKeys_reads hb
  have heard : ((((s.heartbeatTaken hb).linkRise hb).compareKeys hb).hbAct s.twn.partner hb).twn.heard =
      (hb.state, 0, hb.seq, s.sys.timeNs) := by
    rw [State.hbAct_heard, twn, State.linkRise_heard, ← sys]
    rfl
  obtain ⟨partner, miss, seq, time⟩ : _ ∧ _ ∧ _ ∧ _ := by simpa only [TwnSt.heard, Prod.mk.injEq] using heard
  have risen : s.rd Reg.TWN_TW_STATE = 1 → (((s.heartbeatTaken hb).linkRise hb).compareKeys hb).rd Reg.TWN_TW_STATE = 1 ∧
      (1 ≤ s.twn.good → (((s.heartbeatTaken hb).linkRise hb).compareKeys hb).on Reg.TWN_TW_LINK = true) := fun one => by
    obtain ⟨one', up⟩ := State.linkRise_state (s := s.heartbeatTaken hb) hb (state.trans one)
    rw [same, link]
    refine ⟨one', fun some' => up ?_⟩
    show 2 ≤ (s.twinOfs hb).twn.good + 1
    omega
  refine ⟨_, ex, partner, miss, seq, time, fun some' one waits => ?_, fun one active => ?_⟩
  · obtain ⟨one', up⟩ := risen one
    generalize ((s.heartbeatTaken hb).linkRise hb).compareKeys hb = u at one' up
    have still : u.hbAct s.twn.partner hb = u := by
      unfold State.hbAct
      dsimp only
      rw [one', waits]
      rfl
    rw [still]
    exact up some'
  · obtain ⟨one', -⟩ := risen one
    generalize ((s.heartbeatTaken hb).linkRise hb).compareKeys hb = u at one'
    have sync : u.hbAct s.twn.partner hb = u.beginSync := by
      unfold State.hbAct
      exact if_pos (by rw [one', active]; rfl)
    rw [sync]
    exact u.beginSync_state

/-! ### Missed heartbeats (R392, R406) -/

/-- The link goes down where it was up. -/
def State.unlinked (s : State) : State :=
  if s.on Reg.TWN_TW_LINK then (s.wr Reg.TWN_TW_LINK 0).ev Reg.TWN_TW_EVT 0 176 else s

theorem State.linkDown_regs (s : State) : s.linkDown.regs = (s.unlinked.wr Reg.TWN_TW_VER 0).regs := rfl

theorem State.unlinked_reads (s : State) : s.unlinked.on Reg.TWN_TW_LINK = false ∧
    s.unlinked.rd Reg.TWN_TW_STATE = s.rd Reg.TWN_TW_STATE := by
  unfold State.unlinked
  split
  · have zero : ((s.wr Reg.TWN_TW_LINK 0).ev Reg.TWN_TW_EVT 0 176).rd Reg.TWN_TW_LINK = 0 := by
      rw [State.rd_get, State.get_ev_place (by decide)]
      exact s.rd_wr_same Reg.TWN_TW_LINK 0
    refine ⟨decide_eq_false (by rw [zero]; decide), ?_⟩
    rw [State.rd_get, State.get_ev_place (by decide), State.get_wr_place (by decide)]
    rfl
  · next down => exact ⟨Bool.eq_false_iff.mpr down, rfl⟩

theorem State.linkDown_reads (s : State) : s.linkDown.on Reg.TWN_TW_LINK = false ∧ s.linkDown.rd Reg.TWN_TW_VER = 0 ∧
    s.linkDown.rd Reg.TWN_TW_STATE = s.rd Reg.TWN_TW_STATE := by
  obtain ⟨link, state⟩ := s.unlinked_reads
  refine ⟨?_, ?_, ?_⟩
  · rw [State.on_get, State.linkDown_regs, State.get_wr_place (by decide)]
    exact link
  · rw [State.rd_get, State.linkDown_regs]
    exact State.rd_wr_same _ Reg.TWN_TW_VER 0
  · rw [State.rd_get, State.linkDown_regs, State.get_wr_place (by decide)]
    exact state

/-- A claim is shown, with the state it came from. -/
theorem State.claim_reads (s : State) : s.claim.rd Reg.TWN_TW_STATE = 6 ∧
    s.claim.twn.from_ = BitVec.ofNat 3 (s.rd Reg.TWN_TW_STATE) ∧ s.claim.twn.claimAt = s.sys.uptime :=
  ⟨s.rd_wr_same Reg.TWN_TW_STATE 6, rfl, rfl⟩

theorem State.claim_get {g : Fld} (off : g.place ≠ Reg.TWN_TW_STATE.place) (s : State) (c : Nat) :
    g.get s.claim.regs 0 c = g.get s.regs 0 c :=
  State.get_wr_place (f := Reg.TWN_TW_STATE) off s 6 c

/-- A standby that finds XLOCK held is split. -/
def State.split (s : State) : State := ((s.wr Reg.TWN_TW_STATE 5).bump Reg.TWN_SPLITS).ev Reg.TWN_TW_EVT 2 176

theorem State.split_get {g : Fld} (state : g.place ≠ Reg.TWN_TW_STATE.place) (count : g.place ≠ Reg.TWN_SPLITS.place)
    (event : g.place ≠ Reg.TWN_TW_EVT.place) (s : State) (c : Nat) : g.get s.split.regs 0 c = g.get s.regs 0 c := by
  unfold State.split
  rw [State.get_ev_place event, State.get_bump_place count, State.get_wr_place state]

theorem State.split_state (s : State) : s.split.rd Reg.TWN_TW_STATE = 5 := by
  unfold State.split
  rw [State.rd_get, State.get_ev_place (by decide), State.get_bump_place (by decide)]
  exact s.rd_wr_same Reg.TWN_TW_STATE 5

/-- The eighth missed heartbeat takes the link down; a STANDBY claims, or is split. -/
theorem exec_heartbeatMiss_eighth {s : State} (runs : s.twnOn = true) (held : Bool) (seven : s.twn.miss = 7)
    (standby : s.rd Reg.TWN_TW_STATE = 4) :
    ∃ t, exec (.heartbeatMiss held) s = .next t ∧ t.on Reg.TWN_TW_LINK = false ∧ t.rd Reg.TWN_TW_VER = 0 ∧
      t.rd Reg.TWN_TW_STATE = (if held then 5 else 6) ∧
      (held = true → (t.rd Reg.TWN_TW_EVT).testBit 2 = true) ∧ (held = false → t.twn.from_ = 4) := by
  generalize hm : ({ s.bump Reg.TWN_HB_MISS with twn.miss := s.twn.miss + 1, twn.good := 0 } : State) = m
  obtain ⟨link, ver, state⟩ := m.linkDown_reads
  have four : m.linkDown.rd Reg.TWN_TW_STATE = 4 := by
    rw [state, ← hm]
    exact (State.get_bump_place (f := Reg.TWN_HB_MISS) (by decide) ..).trans standby
  have ex : exec (.heartbeatMiss held) s = .next (if held then m.linkDown.split else m.linkDown.claim) := by
    simp only [exec, execHeartbeatMiss]
    rw [if_neg (by rw [runs]; decide), hm, if_neg (by omega), four, if_neg (by simp)]
    cases held <;> rfl
  refine ⟨_, ex, ?_⟩
  generalize m.linkDown = d at link ver four
  cases held with
  | true =>
    refine ⟨?_, ?_, d.split_state, fun _ => State.ev_testBit _ 176 (by decide), fun no => absurd no (by decide)⟩
    · exact (congrArg (fun n => decide (n = 1)) (State.split_get (by decide) (by decide) (by decide) d 0)).trans link
    · exact (State.split_get (by decide) (by decide) (by decide) d 0).trans ver
  | false =>
    obtain ⟨six, came, -⟩ := d.claim_reads
    refine ⟨?_, ?_, six, fun no => absurd no (by decide), fun _ => ?_⟩
    · exact (congrArg (fun n => decide (n = 1)) (State.claim_get (by decide) d 0)).trans link
    · exact (State.claim_get (by decide) d 0).trans ver
    · show d.claim.twn.from_ = 4
      rw [came, four]
      rfl

/-! ### The interlock (R390, R394) -/

/-- A release that a unit senses which waits, stands by or is split begins a claim. -/
theorem exec_xlockReleaseSensed {s : State} (hold : s.sys.hold = .none)
    (stage : s.rd Reg.SYS_BOOT_STAGE = 0xB ∨ s.rd Reg.SYS_BOOT_STAGE = 0xD) (free : s.holds = false)
    (run : s.runs .TWN = true) :
    (s.on Reg.TWN_TW_EN = false →
      exec .xlockReleaseSensed s = .next { s with twn.claiming := true, twn.claimAt := s.sys.uptime }) ∧
    (∀ n : BitVec 3, s.on Reg.TWN_TW_EN = true → s.rd Reg.TWN_TW_STATE = n.toNat → (n = 1 ∨ n = 4 ∨ n = 5) →
      ∃ t, exec .xlockReleaseSensed s = .next t ∧ t.rd Reg.TWN_TW_STATE = 6 ∧ t.twn.from_ = n ∧
        t.twn.claimAt = s.sys.uptime) := by
  have up : s.up = true := decide_eq_true hold
  have gate : ¬(!(s.up && (s.rd Reg.SYS_BOOT_STAGE = 0xB || s.rd Reg.SYS_BOOT_STAGE = 0xD)) || s.holds ||
      !s.runs .TWN) = true := by
    rw [up, free, run]
    rcases stage with b | d
    · rw [b]; decide
    · rw [d]; decide
  refine ⟨fun off => (if_neg gate).trans (if_pos (by rw [off]; rfl)), fun n on state waits => ?_⟩
  obtain ⟨six, came, at_⟩ := s.claim_reads
  refine ⟨_, (if_neg gate).trans ((if_neg (by rw [on]; decide)).trans (if_pos ?_)), six, ?_, at_⟩
  · show (decide (s.rd Reg.TWN_TW_STATE = 1) || decide (s.rd Reg.TWN_TW_STATE = 4) || decide (s.rd Reg.TWN_TW_STATE = 5)) = true
    rw [state]
    rcases waits with rfl | rfl | rfl <;> rfl
  · rw [came, state]
    exact (BitVec.ofNat_toNat 3 n).trans (BitVec.setWidth_eq n)

theorem State.becomeActive_reads (s : State) : s.becomeActive.rd Reg.TWN_TW_STATE = 2 ∧
    ∀ g : Fld, g.place ≠ Reg.TWN_TW_STATE.place → g.place ≠ Reg.SYS_BOOT_STAGE.place →
      g.get s.becomeActive.regs 0 0 = g.get s.regs 0 0 := by
  unfold State.becomeActive
  dsimp only
  split
  · refine ⟨?_, fun g state stage => (State.get_wr_place stage ..).trans (State.get_wr_place state ..)⟩
    exact (State.get_wr_place (by decide) ..).trans (s.rd_wr_same Reg.TWN_TW_STATE 2)
  · exact ⟨s.rd_wr_same Reg.TWN_TW_STATE 2, fun g state _ => State.get_wr_place state ..⟩

section
variable {s : State} (idle : s.twn.claiming = false) (state : s.rd Reg.TWN_TW_STATE = 6) (free : s.holds = false)
include idle state free

/-- A claim whose check finds the line low is lost. -/
theorem exec_claimCheck_lost :
    ∃ t, exec (.claimCheck true) s = .next t ∧ t.rd Reg.TWN_TW_STATE = s.twn.from_.toNat ∧ t.holds = false := by
  refine ⟨_, (if_neg (by rw [idle]; decide)).trans ((if_neg (by rw [state, free]; decide)).trans (if_pos rfl)), ?_, ?_⟩
  · exact (State.rd_wr_same _ Reg.TWN_TW_STATE _).trans (Nat.mod_eq_of_lt s.twn.from_.isLt)
  · refine Eq.trans ?_ free
    exact congrArg (fun n => decide (n = 1)) ((State.get_wr_place (f := Reg.TWN_TW_STATE) (by decide) ..).trans
      (State.get_bump_place (f := Reg.TWN_CLAIM_LOST) (by decide) ..))

/-- A claim that holds XLOCK makes a unit that waited ACTIVE. -/
theorem exec_claimCheck_first (waited : s.twn.from_ = 1) :
    ∃ t, exec (.claimCheck false) s = .next t ∧ t.holds = true ∧ t.rd Reg.TWN_TW_STATE = 2 := by
  have ex : exec (.claimCheck false) s = .next (s.wr Reg.TWN_TW_HOLD 1).becomeActive := by
    refine (if_neg (by rw [idle]; decide)).trans ((if_neg (by rw [state, free]; decide)).trans ((if_neg (by decide)).trans ?_))
    exact congrArg Host.Outcome.next (if_pos waited)
  obtain ⟨two, kept⟩ := (s.wr Reg.TWN_TW_HOLD 1).becomeActive_reads
  refine ⟨_, ex, decide_eq_true ?_, two⟩
  exact (kept Reg.TWN_TW_HOLD (by decide) (by decide)).trans (s.rd_wr_same Reg.TWN_TW_HOLD 1)

/-- A claim that holds XLOCK lets another unit take over. -/
theorem exec_claimCheck_taker (came : s.twn.from_ ≠ 1) : exec (.claimCheck false) s = .next (s.wr Reg.TWN_TW_HOLD 1) := by
  refine (if_neg (by rw [idle]; decide)).trans ((if_neg (by rw [state, free]; decide)).trans ((if_neg (by decide)).trans ?_))
  exact congrArg Host.Outcome.next (if_neg came)

end

/-! ### Takeover (R407) -/

theorem State.reportTakeover_get {g : Fld} (swap : g.place ≠ Reg.TWN_SWAP_ST.place) (event : g.place ≠ Reg.TWN_TW_EVT.place)
    (count : g.place ≠ Reg.TWN_TAKEOVERS.place) (time : g.place ≠ Reg.TWN_TKO_TIME.place)
    (cut : g.place ≠ Reg.TWN_TKO_CUT.place) (s : State) (us c : Nat) :
    g.get (s.reportTakeover us).regs 0 c = g.get s.regs 0 c := by
  unfold State.reportTakeover
  dsimp only
  split
  · rw [State.get_ev_place event, State.get_wr_place swap]
  · rw [State.get_wr_place cut, State.get_wr_place time, State.get_bump_place count, State.get_ev_place event]

theorem State.reportTakeover_twn (s : State) (us : Nat) : (s.reportTakeover us).twn = s.twn := by
  unfold State.reportTakeover
  dsimp only
  split <;> simp

theorem State.reportTakeover_time {s : State} (us : Nat) (none' : s.rd Reg.TWN_SWAP_ST ≠ 1) :
    (s.reportTakeover us).rd Reg.TWN_TKO_TIME = min us 65535 := by
  unfold State.reportTakeover
  rw [if_neg none', State.rd_get, State.get_wr_place (by decide)]
  exact (State.rd_wr_same _ Reg.TWN_TKO_TIME _).trans (Nat.mod_eq_of_lt (by
    show min us 65535 < 65536
    omega))

theorem State.endStandby_regs (s : State) : s.endStandby.regs = (s.wr Reg.TWN_TW_STATE 2).regs :=
  (State.dropSending_keeps (s.wr Reg.TWN_TW_STATE 2)).1

/-- With nothing queued and no cycle held, a takeover settles and publishes nothing. -/
theorem State.takeover_empty {s : State} (held : s.twn.held = none) (nodes : s.car.nodeQs = []) (queues : s.car.sysQs = []) :
    s.dropHeld.settleAll.publish = { s with hst.resumed := [] } := by
  have dropped : s.dropHeld = s := by
    unfold State.dropHeld
    rw [held]
    rfl
  have blocks : ∀ i, s.settleBlock i = s := fun i => by
    unfold State.settleBlock State.sysQ
    rw [queues]
    rfl
  have settled : s.settleAll = s := by
    unfold State.settleAll
    rw [nodes]
    exact foldl_fixed_of_mem _ _ _ (fun i _ => blocks i)
  have frames : s.heldHdrs = [] := by
    unfold State.heldHdrs
    rw [nodes, queues]
    rfl
  have rings : (List.range 16).foldl (fun (s : State) r => s.publishRing [] r) s = s :=
    foldl_fixed_of_mem _ _ _ (fun r _ => rfl)
  rw [dropped, settled]
  unfold State.publish
  rw [frames]
  dsimp only
  rw [rings, nodes]
  rfl

/-- Settles O57: heartbeats as they leave, arrive and fail; claims; the takeover. -/
theorem twinLink : Obligations.TwinLink := by
  refine ⟨fun s runs => ⟨⟨_, if_neg (by rw [runs]; decide), rfl, ?_, ?_, fun idle => ?_⟩, fun it l c r items note last sending =>
      State.sendRecord_cycle items note last sending, fun hb bad => if_pos (by rw [bad]; simp), fun hb good =>
      exec_heartbeatRx_good runs good, fun held few => ?_, fun held => exec_heartbeatMiss_eighth runs held⟩,
    fun s => ⟨fun hold stage free run => exec_xlockReleaseSensed hold stage free run, fun claims => ?_,
      fun idle state free => ⟨exec_claimCheck_lost idle state free, exec_claimCheck_first idle state free,
        exec_claimCheck_taker idle state free⟩, fun us runs state holds came => ?_⟩⟩
  · exact congrArg (fun x => x + 1) (congrArg Prod.fst s.sendMirror_stamps)
  · obtain ⟨seq, sent, time⟩ : _ ∧ _ ∧ _ := by simpa only [State.stamps, Prod.mk.injEq] using s.sendMirror_stamps
    rw [← seq, ← time]
    exact mem_latest _ _
  · rw [State.sendMirror_idle idle]
    rfl
  · exact (if_neg (by rw [runs]; decide)).trans (if_pos (by omega))
  · exact ⟨if_pos claims, if_pos claims⟩
  · have ex : exec (.takeover us) s = .next ((s.dropHeld.settleAll.publish.endStandby).reportTakeover us) :=
      if_neg (by rw [runs, state, holds, decide_eq_false came]; decide)
    refine ⟨_, ex, ?_, ?_, fun held nodes queues none' => ?_⟩
    · rw [State.rd_get, State.reportTakeover_get (by decide) (by decide) (by decide) (by decide) (by decide),
        State.endStandby_regs]
      exact State.rd_wr_same _ Reg.TWN_TW_STATE 2
    · rw [State.reportTakeover_twn]
      rfl
    · rw [State.takeover_empty held nodes queues]
      refine State.reportTakeover_time us ?_
      rw [State.rd_get, State.endStandby_regs, State.get_wr_place (by decide)]
      exact none'

end Sys2Proof.Machine

/-!
PROOF. Mirroring, the swap and the relay (O58, R398 to R410).
-/

namespace Sys2Proof.Machine

/-! ### Records on the link (R266, R403) -/

/-- What the linking of records leaves: all but CAR's queues and what still waits in TWN. -/
theorem State.linkMirror_reads (s : State) (l : List (BitVec 16 × List Byte)) :
    (∃ r, (s.linkMirror l).twn = { s.twn with toLink := r }) ∧ (s.linkMirror l).ntb = s.ntb ∧
      (s.linkMirror l).phy = s.phy ∧ (s.linkMirror l).car.nodeQs = s.car.nodeQs := by
  induction l generalizing s with
  | nil => exact ⟨⟨[], rfl⟩, rfl, rfl, rfl⟩
  | cons r rest ih =>
    unfold State.linkMirror
    split
    · obtain ⟨⟨r', twn⟩, ntb, phy, nodes⟩ := ih (s.linkSys 0x28 (some (devHdr 7 0 r.1 0 none)) r.2 (.mirror r.1))
      refine ⟨⟨r', twn.trans (by simp)⟩, ntb.trans (by simp), phy.trans (by simp), nodes.trans (s.linkSys_nodeQs ..)⟩
    · exact ⟨⟨r :: rest, rfl⟩, rfl, rfl, rfl⟩

/-- The bodies on queue 0x28 and those that wait in TWN, in their order. -/
def State.onLink (s : State) : List (List Byte) := (s.sysQ 0x28).items.map (fun x => x.body) ++ s.twn.toLink.map (fun r => r.2)

/-- Linking puts records behind those on the queue, in their order, linked or waiting. -/
theorem State.linkMirror_onLink (s : State) (l : List (BitVec 16 × List Byte)) :
    (s.linkMirror l).onLink = (s.sysQ 0x28).items.map (fun x => x.body) ++ l.map (fun r => r.2) := by
  induction l generalizing s with
  | nil => rfl
  | cons r rest ih =>
    unfold State.linkMirror
    split
    · obtain ⟨⟨cells, linked⟩, -⟩ := s.linkSys_sysQ 0x28 (some (devHdr 7 0 r.1 0 none)) r.2 (.mirror r.1)
      rw [ih, linked]
      simp [Queue.push]
    · rfl

/-! ### The cut (R399 to R403) -/

/-- A table that goes whole is the table. -/
theorem cutTable_whole {α : Type} [DecidableEq α] (now old : List (Nat × α)) (copied : Nat → Bool) :
    cutTable true now old copied = now := by
  simp [cutTable]

/-- Without structures of a full copy, what goes of a table is what changed. -/
theorem cutTable_changed {α : Type} [DecidableEq α] (now old : List (Nat × α)) {copied : Nat → Bool}
    (none' : ∀ k, copied k = false) : cutTable false now old copied = now.filter (fun p => mget old p.1 ≠ some p.2) := by
  unfold cutTable
  congr 1
  funext p
  rw [none', Bool.false_or, Bool.false_or]

theorem State.cutCycle_reads (s : State) : s.cutCycle.n = BitVec.ofNat 16 (s.ms / 2) ∧ s.cutCycle.cutMs = s.ms / 2 * 2 ∧
    s.cutCycle.full = s.regimeFull :=
  ⟨rfl, rfl, rfl⟩

/-- The tables of a cycle, as they go with it. -/
theorem State.cutCycle_tables (s : State) :
    s.cutCycle.slots = cutTable s.regimeFull s.ntb.slots s.cutBase.slots (fun k => s.partsNow.contains (.slot k)) ∧
      s.cutCycle.dir = cutTable s.regimeFull s.ntb.dir s.cutBase.dir (fun k => s.partsNow.contains (.dir k)) ∧
      s.cutCycle.nodeQs = cutTable s.regimeFull s.car.nodeQs s.cutBase.nodeQs (fun k => s.partsNow.contains (.nodeQ k)) ∧
      s.cutCycle.tmaps = s.cutTmaps s.regimeFull s.cutBase s.partsNow ∧
      s.cutCycle.goneSlots = if s.regimeFull then [] else freed s.ntb.slots s.cutBase.slots :=
  ⟨rfl, rfl, rfl, rfl, rfl⟩

theorem State.cutCycle_whole {s : State} (full : s.regimeFull = true) :
    s.cutCycle.slots = s.ntb.slots ∧ s.cutCycle.dir = s.ntb.dir ∧ s.cutCycle.nodeQs = s.car.nodeQs ∧
      s.cutCycle.tmaps = s.phy.tmaps ∧ s.cutRecords s.cutCycle s.partsNow = cycleRecords s.cutCycle [] := by
  obtain ⟨slots, dir, nodes, tmaps, -⟩ := s.cutCycle_tables
  rw [slots, dir, nodes, tmaps, full]
  exact ⟨cutTable_whole _ _ _, cutTable_whole _ _ _, cutTable_whole _ _ _,
    (List.append_nil _).trans (cutTable_whole _ _ _), if_pos full⟩

theorem State.cutCycle_changed {s : State} (part : s.regimeFull = false) (copy : s.twn.copy = none) {b : MirBase}
    (base : s.twn.base = some b) : s.cutCycle.slots = s.ntb.slots.filter (fun p => mget b.slots p.1 ≠ some p.2) ∧
      s.cutCycle.goneSlots = freed s.ntb.slots b.slots := by
  have none' : s.partsNow = [] := by rw [State.partsNow, copy]
  have old : s.cutBase = b := by rw [State.cutBase, base]; rfl
  refine ⟨?_, ?_⟩
  · obtain ⟨slots, -⟩ := s.cutCycle_tables
    rw [slots, part, old]
    exact cutTable_changed _ _ (fun k => by rw [none']; rfl)
  · obtain ⟨-, -, -, -, gone⟩ := s.cutCycle_tables
    rw [gone, part, old]
    rfl

/-- A cut has been made: the base it leaves, the cycle it adds. -/
def State.cutMade (s : State) : State :=
  { (s.copyRest s.cutCycle).swapCut s.cutCycle.n with
    twn.base := some ((s.copyRest s.cutCycle).swapCut s.cutCycle.n).mirBase
    twn.cutMs := s.cutCycle.cutMs
    twn.sending := ((s.copyRest s.cutCycle).swapCut s.cutCycle.n).twn.sending ++ [s.cutCycle] }

theorem State.copyRest_swapCut_reads (s : State) (c : MirCycle) (n : BitVec 16) :
    ((s.copyRest c).swapCut n).ntb = s.ntb ∧ ((s.copyRest c).swapCut n).car = s.car ∧
      ((s.copyRest c).swapCut n).phy = s.phy ∧ ((s.copyRest c).swapCut n).regs = s.regs ∧
      ((s.copyRest c).swapCut n).twn.sending = s.twn.sending ∧ ((s.copyRest c).swapCut n).twn.toLink = s.twn.toLink := by
  have copied : (s.copyRest c).ntb = s.ntb ∧ (s.copyRest c).car = s.car ∧ (s.copyRest c).phy = s.phy ∧
      (s.copyRest c).regs = s.regs ∧ (s.copyRest c).twn.sending = s.twn.sending ∧ (s.copyRest c).twn.toLink = s.twn.toLink := by
    unfold State.copyRest
    split <;> exact ⟨rfl, rfl, rfl, rfl, rfl, rfl⟩
  generalize s.copyRest c = t at copied
  have swapped : (t.swapCut n).ntb = t.ntb ∧ (t.swapCut n).car = t.car ∧ (t.swapCut n).phy = t.phy ∧
      (t.swapCut n).regs = t.regs ∧ (t.swapCut n).twn.sending = t.twn.sending ∧ (t.swapCut n).twn.toLink = t.twn.toLink := by
    unfold State.swapCut
    split
    · split <;> exact ⟨rfl, rfl, rfl, rfl, rfl, rfl⟩
    · split <;> exact ⟨rfl, rfl, rfl, rfl, rfl, rfl⟩
  obtain ⟨ntb, car, phy, regs, sending, toLink⟩ := swapped
  rw [ntb, car, phy, regs, sending, toLink]
  exact copied

theorem State.copyBegin_reads (s : State) : ∃ f c, s.copyBegin = { s with twn.fullCopy := f, twn.copy := c } ∧
    (s.regimeFull = false → s.twn.fullCopy = false → c = s.twn.copy) := by
  unfold State.copyBegin
  split
  · next full => exact ⟨false, none, rfl, fun part => absurd (full.symm.trans part) (by decide)⟩
  split
  · next due => exact ⟨false, some s.allParts, rfl, fun _ idle => absurd (due.symm.trans idle) (by decide)⟩
  · exact ⟨s.twn.fullCopy, s.twn.copy, rfl, fun _ _ => rfl⟩

/-- A cut leaves the tables, adds its cycle, and its records go behind those of the cycles before it. -/
theorem State.cutMade_reads (s : State) : s.cutMade.ntb = s.ntb ∧ s.cutMade.car = s.car ∧ s.cutMade.phy = s.phy ∧
    s.cutMade.twn.base = some s.mirBase ∧ s.cutMade.twn.cutMs = s.ms / 2 * 2 ∧
    s.cutMade.twn.sending = s.twn.sending ++ [s.cutCycle] := by
  obtain ⟨ntb, car, phy, -, sending, -⟩ := s.copyRest_swapCut_reads s.cutCycle s.cutCycle.n
  refine ⟨ntb, car, phy, congrArg some ?_, rfl, congrArg (fun l => l ++ [s.cutCycle]) sending⟩
  simp only [State.mirBase, ntb, car, phy]

/-- The records of a cut go to the link, or wait in TWN while CAR is stopped. -/
def State.cutLinked (s : State) (run : Bool) (f : List (BitVec 16 × List Byte)) : State :=
  if run then s.linkMirror f else { s with twn.toLink := f }

theorem State.cutLinked_reads (s : State) (run : Bool) (f : List (BitVec 16 × List Byte)) :
    (∃ r, (s.cutLinked run f).twn = { s.twn with toLink := r }) ∧ (s.cutLinked run f).ntb = s.ntb ∧
      (s.cutLinked run f).phy = s.phy ∧ (s.cutLinked run f).car.nodeQs = s.car.nodeQs ∧
      (s.cutLinked run f).onLink = (s.sysQ 0x28).items.map (fun x => x.body) ++ f.map (fun r => r.2) := by
  unfold State.cutLinked
  split
  · obtain ⟨twn, ntb, phy, nodes⟩ := s.linkMirror_reads f
    exact ⟨twn, ntb, phy, nodes, s.linkMirror_onLink f⟩
  · exact ⟨⟨f, rfl⟩, rfl, rfl, rfl, rfl⟩

/-- The records of the cycle that is cut. -/
def State.cutFrames (s : State) : List (BitVec 16 × List Byte) :=
  cycleFrames s.cutCycle (s.cutRecords s.cutCycle s.partsNow)

section
variable {s : State} (runs : s.twnOn = true) (active : s.rd Reg.TWN_TW_STATE = 2) (joined : s.twn.joined = true)
  (link : s.on Reg.TWN_TW_LINK = true) (sent : s.twn.sending = []) (linked : s.twn.toLink = [])
  (empty : (s.sysQ 0x28).items = [])
include runs active joined link sent linked empty

/-- The cut of an ACTIVE unit whose link has taken all before it. -/
theorem exec_mirrorCut :
    exec .mirrorCut s = .next (s.copyBegin.cutMade.cutLinked (s.runs .CAR) s.copyBegin.cutFrames) := by
  have act : s.active = true := decide_eq_true active
  have mirror : s.sendMirror = s := if_neg (by rw [empty, linked]; simp)
  have lag : s.lagCut = s := if_neg (by rw [sent]; decide)
  obtain ⟨f, c, begun, -⟩ := s.copyBegin_reads
  have waits : s.copyBegin.twn.toLink = [] := by rw [begun]; exact linked
  have regs : s.copyBegin.regs = s.regs := by rw [begun]
  obtain ⟨-, -, -, kept, -, toLink⟩ := s.copyBegin.copyRest_swapCut_reads s.copyBegin.cutCycle s.copyBegin.cutCycle.n
  have run : s.copyBegin.cutMade.runs .CAR = s.runs .CAR := by
    simp only [State.runs, State.rd, State.rdB, State.cutMade, kept, regs]
  have nil : s.copyBegin.cutMade.twn.toLink = [] := toLink.trans waits
  simp only [exec, execMirrorCut]
  rw [if_neg (by rw [runs, act, joined, link]; decide), mirror, lag]
  show Host.Outcome.next (if s.copyBegin.cutMade.runs .CAR then s.copyBegin.cutMade.linkMirror
    (s.copyBegin.cutMade.twn.toLink ++ s.copyBegin.cutFrames)
    else { s.copyBegin.cutMade with twn.toLink := s.copyBegin.cutMade.twn.toLink ++ s.copyBegin.cutFrames }) = _
  rw [run, nil]
  rfl

/-- The cycle cut is whole, or lists what changed since the last cut. -/
theorem mirrorCut_cycle : ∃ t, exec .mirrorCut s = .next t ∧ t.twn.base = some s.mirBase ∧
    t.twn.cutMs = s.ms / 2 * 2 ∧ t.ntb = s.ntb ∧ t.car.nodeQs = s.car.nodeQs ∧ t.phy = s.phy ∧
    ∃ c, t.twn.sending = [c] ∧ c.n = BitVec.ofNat 16 (s.ms / 2) ∧ c.cutMs = s.ms / 2 * 2 ∧ c.full = s.regimeFull ∧
      (c.full = true → c.slots = s.ntb.slots ∧ c.dir = s.ntb.dir ∧ c.nodeQs = s.car.nodeQs ∧ c.tmaps = s.phy.tmaps ∧
        (t.sysQ 0x28).items.map (fun x => x.body) ++ t.twn.toLink.map (fun r => r.2) =
          (cycleFrames c (cycleRecords c [])).map (fun r => r.2)) ∧
      (c.full = false → s.twn.fullCopy = false → s.twn.copy = none → ∀ b, s.twn.base = some b →
        c.slots = s.ntb.slots.filter (fun p => mget b.slots p.1 ≠ some p.2) ∧ c.goneSlots = freed s.ntb.slots b.slots) := by
  have ex := exec_mirrorCut runs active joined link sent linked empty
  obtain ⟨f, cp, begun, same⟩ := s.copyBegin_reads
  have ntb0 : s.copyBegin.ntb = s.ntb := by rw [begun]
  have car0 : s.copyBegin.car = s.car := by rw [begun]
  have phy0 : s.copyBegin.phy = s.phy := by rw [begun]
  have ms0 : s.copyBegin.ms = s.ms := by rw [begun]; rfl
  have base0 : s.copyBegin.mirBase = s.mirBase := by rw [begun]; rfl
  have old0 : s.copyBegin.twn.base = s.twn.base ∧ s.copyBegin.twn.copy = cp := by rw [begun]; exact ⟨rfl, rfl⟩
  have regime : s.copyBegin.regimeFull = s.regimeFull := by rw [begun]; rfl
  have none' : s.copyBegin.twn.sending = [] := by rw [begun]; exact sent
  generalize s.copyBegin = u at ex ntb0 car0 phy0 ms0 base0 old0 regime none'
  obtain ⟨ntb, car, phy, base, cut, sending⟩ := u.cutMade_reads
  obtain ⟨⟨r, twn⟩, ntb', phy', nodes', onLink⟩ := u.cutMade.cutLinked_reads (s.runs .CAR) u.cutFrames
  have queue : (u.cutMade.sysQ 0x28).items = [] := by rw [State.sysQ_of_car (car.trans car0)]; exact empty
  rw [queue] at onLink
  refine ⟨_, ex, ?_, ?_, ntb'.trans (ntb.trans ntb0), nodes'.trans (by rw [car, car0]), phy'.trans (phy.trans phy0),
    u.cutCycle, ?_, ?_, ?_, regime, fun full => ?_, fun part idle copy b isBase => ?_⟩
  · rw [twn]
    exact base.trans (congrArg some base0)
  · rw [twn, ← ms0]
    exact cut
  · rw [twn]
    exact sending.trans (by rw [none']; rfl)
  · rw [← ms0]
    rfl
  · rw [← ms0]
    rfl
  · obtain ⟨slots, dir, nodes, tmaps, records⟩ := State.cutCycle_whole (s := u) full
    refine ⟨slots.trans (by rw [ntb0]), dir.trans (by rw [ntb0]), nodes.trans (by rw [car0]), tmaps.trans (by rw [phy0]), ?_⟩
    refine onLink.trans ?_
    rw [State.cutFrames, records]
    rfl
  · obtain ⟨isOld, isCopy⟩ := old0
    obtain ⟨slots, gone⟩ := State.cutCycle_changed (s := u) part (isCopy.trans ((same (regime.symm.trans part) idle).trans copy))
      (isOld.trans isBase)
    rw [slots, gone, ntb0]
    exact ⟨rfl, rfl⟩

end

/-! ### A cycle arrives (R402) -/

/-- The cycle after the last one applied loses none. -/
theorem State.skipTo_next {s : State} {c : MirCycle} (copied : s.twn.copied = true)
    (next : c.n = BitVec.ofNat 16 (s.rd Reg.TWN_TW_CYCLE) + 1) : s.skipTo c = s := by
  have gap : (c.n - BitVec.ofNat 16 (s.rd Reg.TWN_TW_CYCLE) - 1).toNat = 0 := by
    rw [next]
    generalize BitVec.ofNat 16 (s.rd Reg.TWN_TW_CYCLE) = x
    have zero : x + 1 - x - 1 = 0 := by bv_omega
    rw [zero]
    rfl
  have lost : s.cyclesLost c = 0 := by
    unfold State.cyclesLost
    dsimp only
    rw [if_pos copied, gap, ite_self]
  exact if_pos lost

/-- The registers that are not mirrored stay at a cycle. -/
theorem State.applyCycle_get {g : Fld} {b : Nat} (own : mirrored (g.key 0 b) = false) (s : State) (c : MirCycle) :
    g.get (s.applyCycle c).regs 0 b = g.get s.regs 0 b := by
  have filtered : ∀ l : List (Nat × Nat), mget (l.filter (fun p => !mirrored p.1)) (g.key 0 b) = mget l (g.key 0 b) := by
    intro l
    induction l with
    | nil => rfl
    | cons p l ih =>
      obtain ⟨k, v⟩ := p
      by_cases same : g.key 0 b = k
      · rw [List.filter_cons_of_pos (by rw [← same, own]; rfl)]
        simp [mget, same]
      · by_cases kept : (!mirrored k) = true
        · rw [List.filter_cons_of_pos (p := fun p : Nat × Nat => !mirrored p.1) kept]
          simpa [mget, same] using ih
        · rw [List.filter_cons_of_neg (p := fun p : Nat × Nat => !mirrored p.1) kept]
          simpa [mget, same] using ih
  have put : ∀ (l m : List (Nat × Nat)), mget (l.foldl (fun m p => if mirrored p.1 then mput m p.1 p.2 else m) m) (g.key 0 b) =
      mget m (g.key 0 b) := fun l m =>
    foldl_keeps (fun m => mget m (g.key 0 b)) _ _ _ (fun m p => by
      split
      · next hit => exact mget_mput_other _ _ _ _ (fun e => by rw [← e, own] at hit; cases hit)
      · rfl)
  unfold Fld.get
  exact congrArg (fun o => o.getD g.rst) ((put _ _).trans (filtered _))

theorem State.placeNode_nodeQs (s : State) (h : BitVec 18) : (s.placeNode h).car.nodeQs = s.car.nodeQs := by
  unfold State.placeNode State.placeFrom
  split
  · rfl
  split
  · rfl
  split
  · exact s.updEntry_nodeQs h _
  · exact State.putEvent_nodeQs ..

/-- The placing of mirrored entries leaves queues, maps, the twin link and the registers off NTB, SCH and CAR. -/
theorem State.placeMirrored_reads (s : State) (old : List (Nat × Slot)) :
    (s.placeMirrored old).car.nodeQs = s.car.nodeQs ∧ (s.placeMirrored old).phy = s.phy ∧
      (s.placeMirrored old).twn = s.twn ∧
      ∀ g : Fld, g.offWheel = true → g.get (s.placeMirrored old).regs 0 0 = g.get s.regs 0 0 := by
  unfold State.placeMirrored
  refine ⟨foldl_keeps (fun (t : State) => t.car.nodeQs) _ _ _ (fun t p => ?_),
    foldl_keeps (fun (t : State) => t.phy) _ _ _ (fun t p => ?_),
    foldl_keeps (fun (t : State) => t.twn) _ _ _ (fun t p => ?_),
    fun g off => foldl_keeps (fun (t : State) => g.get t.regs 0 0) _ _ _ (fun t p => ?_)⟩
  all_goals dsimp only; split
  · exact t.placeNode_nodeQs _
  · rfl
  · simp
  · rfl
  · simp
  · rfl
  · exact State.placeNode_get off t _ 0
  · rfl

/-- With no entry there is nothing to place. -/
theorem State.placeMirrored_none {s : State} (old : List (Nat × Slot)) (none' : s.ntb.slots = []) : s.placeMirrored old = s := by
  unfold State.placeMirrored
  rw [none']
  rfl

theorem State.dropReceived_get (s : State) (g : Fld) : g.get s.dropReceived.regs 0 0 = g.get s.regs 0 0 := by
  rw [(State.dropReceived_keeps s).1]

/-- The records of a cycle received in part stand on queue 0x29. -/
def State.heldPart (s : State) (c : MirCycle) (l : List (BitVec 16 × List Byte)) : State :=
  { l.foldl (fun (s : State) r => s.linkSys 0x29 (some (devHdr 7 0 r.1 0 none)) r.2 (.mirror r.1)) s with
    twn.held := some c }

/-- With cells enough a cycle received in part is held. -/
theorem State.holdCycle_room {s : State} {c : MirCycle} (room : 1024 +
    ((cycleFrames c (cycleRecords c [])).dropLast.map (fun r => cellsOf r.2.length)).sum ≤ s.dropReceived.freeCells) :
    s.holdCycle c = s.dropReceived.heldPart c (cycleFrames c (cycleRecords c [])).dropLast := by
  unfold State.holdCycle State.heldPart
  generalize (cycleFrames c (cycleRecords c [])).dropLast = l at room
  dsimp only
  rw [if_neg (not_lt.mpr room)]

/-- The linking of items on queue 0x29 leaves the node table, the node queues and the state shown. -/
theorem State.heldPart_reads (s : State) (c : MirCycle) (l : List (BitVec 16 × List Byte)) :
    (s.heldPart c l).twn.held = some c ∧ (s.heldPart c l).ntb = s.ntb ∧ (s.heldPart c l).car.nodeQs = s.car.nodeQs ∧
      (s.heldPart c l).rd Reg.TWN_TW_STATE = s.rd Reg.TWN_TW_STATE :=
  ⟨rfl, foldl_keeps (fun (t : State) => t.ntb) _ _ _ (fun t p => by simp),
    foldl_keeps (fun (t : State) => t.car.nodeQs) _ _ _ (fun t p => t.linkSys_nodeQs ..),
    foldl_keeps (fun (t : State) => t.rd Reg.TWN_TW_STATE) _ _ _ (fun t p => State.linkSys_get (by decide) t _ _ _ _ 0)⟩

theorem State.resync_reads (s : State) : s.resync.rd Reg.TWN_TW_STATE = 3 ∧ s.resync.twn.copied = false ∧
    s.resync.ntb.slots = [] ∧ s.resync.car.nodeQs = [] := by
  have kept : s.resync.twn = s.beginSync.twn ∧ s.resync.ntb = s.beginSync.ntb ∧ s.resync.car = s.beginSync.car := by
    unfold State.resync
    exact ⟨by simp, by simp, by simp⟩
  obtain ⟨twn, ntb, car⟩ := kept
  refine ⟨?_, by rw [twn]; rfl, by rw [ntb]; rfl, by rw [car]; rfl⟩
  unfold State.resync
  rw [State.rd_get, State.get_ev_place (by decide), State.get_bump_place (by decide)]
  exact s.beginSync_state

section
variable {s : State} {c : MirCycle} (runs : s.twnOn = true) (link : s.on Reg.TWN_TW_LINK = true)
  (state : s.rd Reg.TWN_TW_STATE = 4) (run : s.runs .CAR = true) (copied : s.twn.copied = true)
  (next : c.n = BitVec.ofNat 16 (s.rd Reg.TWN_TW_CYCLE) + 1)
include runs link state run

theorem mirrorCycle_gate : ¬(!s.twnOn || !s.on Reg.TWN_TW_LINK ||
    !(s.rd Reg.TWN_TW_STATE = 3 || s.rd Reg.TWN_TW_STATE = 4) || !s.runs .CAR) = true := by
  rw [runs, link, state, run]
  decide

include copied next

/-- A cycle received in part is held on a standby. -/
theorem exec_mirrorCycleApply_part (part : c.endSeen = false) (room : 1024 +
    ((cycleFrames c (cycleRecords c [])).dropLast.map (fun r => cellsOf r.2.length)).sum ≤ s.dropReceived.freeCells) :
    ∃ t, exec (.mirrorCycleApply c) s = .next t ∧ t.twn.held = some c ∧ t.ntb = s.ntb ∧ t.car.nodeQs = s.car.nodeQs ∧
      t.rd Reg.TWN_TW_STATE = 4 := by
  have gate := mirrorCycle_gate runs link state run
  have ex : exec (.mirrorCycleApply c) s =
      .next (s.dropReceived.heldPart c (cycleFrames c (cycleRecords c [])).dropLast) := by
    simp only [exec, execMirrorCycleApply]
    rw [if_neg gate, State.skipTo_next copied next, if_pos (by rw [part]; rfl), State.holdCycle_room room]
  obtain ⟨held, ntb, nodes, shown⟩ := s.dropReceived.heldPart_reads c (cycleFrames c (cycleRecords c [])).dropLast
  have kept : s.dropReceived.ntb = s.ntb := by simp
  exact ⟨_, ex, held, ntb.trans kept, nodes, shown.trans ((s.dropReceived_get _).trans state)⟩

variable (whole : c.endSeen = true)
include whole

/-- A cycle that fails its checks is dropped. -/
theorem exec_mirrorCycleApply_bad (bad : c.declared ≠ c.received ∨ c.badCrc ≠ 0) :
    exec (.mirrorCycleApply c) s = .next (s.dropReceived.dropCycle c.full 1 c.badCrc) := by
  simp only [exec, execMirrorCycleApply]
  rw [if_neg (mirrorCycle_gate runs link state run), State.skipTo_next copied next, if_neg (by rw [whole]; decide)]
  exact if_pos (by simpa using bad)

/-- A cycle that leaves cells enough is applied at once. -/
theorem exec_mirrorCycleApply_good (count : c.declared = c.received) (crc : c.badCrc = 0)
    (room : 1024 ≤ (s.dropReceived.applyCycle c).freeCells) :
    exec (.mirrorCycleApply c) s = .next (((({ (s.dropReceived.applyCycle c).placeMirrored s.dropReceived.ntb.slots with
      twn.cutMs := c.cutMs, twn.copied := s.dropReceived.twn.copied || c.full || c.completesCopy } : State).wr
        Reg.TWN_TW_CYCLE c.n.toNat).wr Reg.TWN_TW_REGIME (b2n !c.full)).wr Reg.TWN_MIR_BYTES c.bytes) := by
  simp only [exec, execMirrorCycleApply]
  rw [if_neg (mirrorCycle_gate runs link state run), State.skipTo_next copied next, if_neg (by rw [whole]; decide),
    if_neg (by simp [count, crc]), if_neg (not_lt.mpr room)]

end

/-! ### The cycle applied -/

/-- The state after a whole or selective cycle has been applied. -/
def State.cycleApplied (s : State) (c : MirCycle) : State :=
  ((({ (s.dropReceived.applyCycle c).placeMirrored s.dropReceived.ntb.slots with
    twn.cutMs := c.cutMs
    twn.copied := s.dropReceived.twn.copied || c.full || c.completesCopy } : State).wr
      Reg.TWN_TW_CYCLE c.n.toNat).wr Reg.TWN_TW_REGIME (b2n !c.full)).wr Reg.TWN_MIR_BYTES c.bytes

theorem State.cycleApplied_car (s : State) (c : MirCycle) :
    (s.cycleApplied c).car = ((s.dropReceived.applyCycle c).placeMirrored s.dropReceived.ntb.slots).car := rfl

theorem State.cycleApplied_reads (s : State) (c : MirCycle) :
    (s.cycleApplied c).twn.cutMs = c.cutMs ∧ (s.cycleApplied c).rd Reg.TWN_TW_CYCLE = c.n.toNat ∧
      (s.cycleApplied c).rd Reg.TWN_TW_STATE = s.rd Reg.TWN_TW_STATE ∧
      (s.cycleApplied c).car.nodeQs = (s.dropReceived.applyCycle c).car.nodeQs ∧
      (s.cycleApplied c).phy.tmaps = (applyTable c.full s.phy.tmaps c.tmaps []).filter (fun p => p.2 ≠ TMap.zero) := by
  obtain ⟨nodes, phy, -, get⟩ := (s.dropReceived.applyCycle c).placeMirrored_reads s.dropReceived.ntb.slots
  have own : s.dropReceived.phy = s.phy := by simp
  refine ⟨rfl, ?_, ?_, nodes, (congrArg (fun x : PhySt => x.tmaps) phy).trans ?_⟩
  · unfold State.cycleApplied
    rw [State.rd_get, State.get_wr_place (by decide), State.get_wr_place (by decide)]
    exact (State.rd_wr_same _ Reg.TWN_TW_CYCLE _).trans (Nat.mod_eq_of_lt c.n.isLt)
  · unfold State.cycleApplied
    rw [State.rd_get, State.get_wr_place (by decide), State.get_wr_place (by decide), State.get_wr_place (by decide)]
    refine (get Reg.TWN_TW_STATE (by decide)).trans ?_
    rw [State.applyCycle_get (by decide), State.dropReceived_get]
    rfl
  · show (applyTable c.full s.dropReceived.phy.tmaps c.tmaps []).filter (fun p => p.2 ≠ TMap.zero) = _
    rw [own]

/-- A whole cycle that lists nothing leaves nothing, and is the full copy. -/
theorem State.cycleApplied_empty {s : State} {c : MirCycle} (full : c.full = true) (slots : c.slots = [])
    (dir : c.dir = []) (nodes : c.nodeQs = []) :
    (s.cycleApplied c).ntb.slots = [] ∧ (s.cycleApplied c).ntb.dir = [] ∧ (s.cycleApplied c).car.nodeQs = [] ∧
      (s.cycleApplied c).twn.copied = true := by
  have none' : (s.dropReceived.applyCycle c).ntb.slots = [] ∧ (s.dropReceived.applyCycle c).ntb.dir = [] ∧
      (s.dropReceived.applyCycle c).car.nodeQs = [] := by
    simp [State.applyCycle, applyTable, full, slots, dir, nodes]
  obtain ⟨noSlots, noDir, noNodes⟩ := none'
  have placed := State.placeMirrored_none s.dropReceived.ntb.slots noSlots
  refine ⟨?_, ?_, ?_, ?_⟩
  · exact (congrArg (fun t : State => t.ntb.slots) placed).trans noSlots
  · exact (congrArg (fun t : State => t.ntb.dir) placed).trans noDir
  · exact (congrArg (fun t : State => t.car.nodeQs) placed).trans noNodes
  · show (s.dropReceived.twn.copied || c.full || c.completesCopy) = true
    rw [full]
    simp

/-! ### SYNC_DONE and the relay (R391, R410) -/

theorem exec_syncDone {s : State} (runs : s.twnOn = true) (state : s.rd Reg.TWN_TW_STATE = 3) (copied : s.twn.copied = true) :
    ∃ t, exec .syncDone s = .next t ∧ t.rd Reg.TWN_TW_STATE = 4 ∧ (t.rd Reg.TWN_TW_EVT).testBit 4 = true := by
  have shown : ((s.wr Reg.TWN_TW_STATE 4).ev Reg.TWN_TW_EVT 4 176).rd Reg.TWN_TW_STATE = 4 := by
    rw [State.rd_get, State.get_ev_place (by decide)]
    exact s.rd_wr_same Reg.TWN_TW_STATE 4
  have event : (((s.wr Reg.TWN_TW_STATE 4).ev Reg.TWN_TW_EVT 4 176).rd Reg.TWN_TW_EVT).testBit 4 = true :=
    State.ev_testBit _ 176 (by decide)
  refine ⟨_, if_pos (by rw [runs, state, copied]; rfl), ?_⟩
  generalize (s.wr Reg.TWN_TW_STATE 4).ev Reg.TWN_TW_EVT 4 176 = t at shown event
  dsimp only
  split
  · refine ⟨(State.get_wr_place (f := Reg.SYS_BOOT_STAGE) (by decide) _ _ 0).trans shown, ?_⟩
    exact (congrArg (fun n => n.testBit 4) (State.get_wr_place (f := Reg.SYS_BOOT_STAGE) (g := Reg.TWN_TW_EVT) (by decide) _ _ 0)).trans event
  · exact ⟨shown, event⟩

/-- Settles O58: the cut, the cycle that arrives, the end of SYNCING, the relay, the swap. -/
theorem mirroringAndSwap : Obligations.MirroringAndSwap := by
  refine fun s => ⟨fun runs => ⟨fun active joined link sent linked empty => ?_, fun c link state run copied next => ?_,
    exec_syncDone runs, fun r standby link ver => ?_⟩, fun may => ⟨?_, fun armed => ?_, fun idle => ?_⟩, fun armed run => ?_⟩
  · exact mirrorCut_cycle runs active joined link sent linked empty
  · refine ⟨fun part room => exec_mirrorCycleApply_part runs link state run copied next part room, fun whole full bad => ?_,
      fun whole part bad => ⟨_, (exec_mirrorCycleApply_bad runs link state run copied next whole bad).trans
        (congrArg Host.Outcome.next (if_neg (by rw [part]; decide))), State.resync_reads _⟩, fun whole count crc room =>
      ⟨s.cycleApplied c, exec_mirrorCycleApply_good runs link state run copied next whole count crc room, ?_⟩⟩
    · exact (exec_mirrorCycleApply_bad runs link state run copied next whole bad).trans
        (congrArg Host.Outcome.next (if_pos full))
    · obtain ⟨cut, cycle, shown, nodes, maps⟩ := s.cycleApplied_reads c
      exact ⟨cut, cycle, shown.trans state, nodes, maps, fun full slots dir nodes => State.cycleApplied_empty full slots dir nodes⟩
  · exact ⟨_, if_pos (by rw [runs, standby, link, ver]; rfl), _, rfl, rfl⟩
  · exact congrArg Host.Outcome.next (s.hostOp_may _ _ _ may)
  · exact congrArg Host.Outcome.next ((s.hostOp_may _ _ _ may).trans (if_pos armed))
  · exact congrArg Host.Outcome.next ((s.hostOp_may _ _ _ may).trans (if_neg idle))
  · exact if_pos (by rw [armed, run]; rfl)

end Sys2Proof.Machine

/-!
PROOF. Demand tests, fuse repair and the Percolator (O59, R448 to R459).
-/

namespace Sys2Proof.Machine

/-! ### Demand tests (R449, R459) -/

/-- A test that has ended shows what it found. -/
theorem State.bistDone_reads (s : State) (found : Bool) : (s.bistDone found).rd Reg.TST_BIST_STAT = 2 ∧
    (s.bistDone found).rd Reg.TST_BIST_FOUND = b2n found ∧ ((s.bistDone found).rd Reg.TST_TST_EVT).testBit 5 = true := by
  unfold State.bistDone
  refine ⟨?_, ?_, State.ev_testBit _ 184 (by decide)⟩
  · rw [State.rd_get, State.get_ev_place (by decide), State.get_wr_place (by decide)]
    exact s.rd_wr_same Reg.TST_BIST_STAT 2
  · rw [State.rd_get, State.get_ev_place (by decide)]
    refine (State.rd_wr_same _ Reg.TST_BIST_FOUND _).trans ?_
    cases found <;> rfl

section
variable {s : State} (hold : s.sys.hold = .none) (halt : s.testHalt = true) (idle : s.rd Reg.TST_BIST_STAT ≠ 1)
include hold halt idle

/-- In the test halt a test runs. -/
theorem State.bistHalt_runs (f : State → State) : s.bistHalt f = f s := by
  have up : s.up = true := decide_eq_true hold
  exact (if_pos (by rw [up, halt]; rfl)).trans (if_neg idle)

theorem exec_bistMemory (g : BitVec 4) (l : List MacroFault) : ∃ t, exec (.bistMemory g l) s = .next t ∧
    t.rd Reg.TST_BIST_STAT = 2 ∧ t.rd Reg.TST_BIST_FOUND = (if faultsIn (bistGrps g) l = [] then 0 else 1) ∧
    (t.rd Reg.TST_TST_EVT).testBit 5 = true := by
  refine ⟨_, congrArg Host.Outcome.next (State.bistHalt_runs hold halt idle _), ?_⟩
  unfold State.bistMem
  dsimp only
  obtain ⟨stat, found, event⟩ := State.bistDone_reads ((faultsIn (bistGrps g) l).foldl (fun (s : State) f =>
    if s.mends f then (s.mapRepairs (s.needs f 3)).logRepairs (s.needs f 3) else s.logUnrep f 3) s)
    (!(faultsIn (bistGrps g) l).isEmpty)
  refine ⟨stat, found.trans ?_, event⟩
  cases faultsIn (bistGrps g) l <;> rfl

theorem exec_bistLogic (g : BitVec 4) (x : BitVec 16) : ∃ t, exec (.bistLogic g x) s = .next t ∧
    t.rd Reg.TST_BIST_STAT = 2 ∧ t.rd Reg.TST_BIST_FOUND = (if lbistIn (bistGrps g) x = 0 then 0 else 1) ∧
    (t.rd Reg.TST_TST_EVT).testBit 5 = true := by
  refine ⟨_, congrArg Host.Outcome.next (State.bistHalt_runs hold halt idle _), ?_⟩
  obtain ⟨stat, found, event⟩ := s.bistDone_reads (lbistIn (bistGrps g) x ≠ 0)
  refine ⟨stat, found.trans ?_, event⟩
  by_cases none' : lbistIn (bistGrps g) x = 0
  · rw [if_pos none', none']
    rfl
  · rw [if_neg none', decide_eq_true none']
    rfl

end

section
variable {s : State} (may : s.hostMay .TST = true) (out : s.testHalt = false)
include may out

/-- A host's command for a test of the test halt is REFUSED elsewhere. -/
theorem State.bistHalt_refused (idle : s.rd Reg.TST_BIST_STAT ≠ 1) (f : State → State) :
    s.bistHalt f = (s.numbered 1).wr Reg.TST_BIST_STAT 3 :=
  (if_neg (by rw [out]; simp)).trans ((s.hostOp_may _ _ _ may).trans (if_neg idle))

/-- FUSE acts on the repairs in effect that OTP lacks. -/
theorem exec_fuse : exec .fuse s = .next (s.numbered 1).fuseCmd :=
  congrArg Host.Outcome.next ((if_neg (by rw [out]; simp)).trans (s.hostOp_may _ _ _ may))

end

/-! ### The log (R451) -/

/-- What the Percolator's logging leaves: the repairs in effect, the node table, the demand, every register but TST_EVT, of
which it sets LOG_FULL at most. -/
def LogOnly (s t : State) : Prop :=
  t.tst = s.tst ∧ t.ntb = s.ntb ∧ (∀ g : Fld, g.place ≠ Reg.TST_TST_EVT.place → g.get t.regs 0 0 = g.get s.regs 0 0) ∧
    ∀ c < 6, (Reg.TST_TST_EVT.get t.regs 0 0).testBit c = (Reg.TST_TST_EVT.get s.regs 0 0).testBit c

theorem LogOnly.refl (s : State) : LogOnly s s := ⟨rfl, rfl, fun _ _ => rfl, fun _ _ => rfl⟩

theorem LogOnly.trans {s t u : State} (first : LogOnly s t) (second : LogOnly t u) : LogOnly s u := by
  obtain ⟨tst, ntb, get, bits⟩ := first
  obtain ⟨tst', ntb', get', bits'⟩ := second
  exact ⟨tst'.trans tst, ntb'.trans ntb, fun g off => (get' g off).trans (get g off),
    fun c low => (bits' c low).trans (bits c low)⟩

theorem LogOnly.foldl {α : Type} {f : State → α → State} (l : List α) (each : ∀ s a, LogOnly s (f s a)) (s : State) :
    LogOnly s (l.foldl f s) := by
  induction l generalizing s with
  | nil => exact LogOnly.refl s
  | cons a l ih => exact (each s a).trans (ih _)

theorem State.logRepair_logOnly (s : State) (kind src mac index : Nat) : LogOnly s (s.logRepair kind src mac index) := by
  unfold State.logRepair
  split
  · exact LogOnly.refl s
  split
  · unfold State.logFull
    exact ⟨by simp, by simp, fun g off => State.get_ev_place off .., fun c low => s.ev_testBit_lower 184 low (by
      show c < 7
      omega)⟩
  · exact ⟨rfl, rfl, fun _ _ => rfl, fun _ _ => rfl⟩

theorem State.logRepairs_logOnly (s : State) (l : List Repair) : LogOnly s (s.logRepairs l) :=
  LogOnly.foldl l (fun t _ => t.logRepair_logOnly ..) s

theorem State.logUnrep_logOnly (s : State) (f : MacroFault) (src : Nat) : LogOnly s (s.logUnrep f src) :=
  LogOnly.foldl _ (fun t _ => t.logRepair_logOnly ..) s

/-! ### The next slice (R453, R459) -/

/-- PERC_POS moves on; a pass that ends is counted. -/
def State.percMoved (s : State) : State :=
  if s.rd Reg.TST_PERC_POS = 0x2000 then ((s.wr Reg.TST_PERC_POS 0).wrap Reg.TST_PERC_PASSES).ev Reg.TST_TST_EVT 4 184
  else s.wr Reg.TST_PERC_POS (s.rd Reg.TST_PERC_POS + 1)

/-- A demand pass counts its slices down. -/
def State.percCounted (s : State) : State :=
  match s.tst.demand with
  | 0 => s
  | n + 1 => if n = 0 then (State.wr { s with tst.demand := n } Reg.TST_BIST_STAT 2).ev Reg.TST_TST_EVT 5 184
    else { s with tst.demand := n }

theorem State.percNext_form (s : State) : s.percNext = s.percMoved.percCounted := by
  unfold State.percNext State.percCounted
  rfl

/-- A demand pass that ends shows it in BIST_STAT and TST_EVT alone. -/
theorem State.percCounted_reads (s : State) : s.percCounted.tst.repairs = s.tst.repairs ∧ s.percCounted.ntb = s.ntb ∧
    s.percCounted.nvm = s.nvm ∧
    (∀ g : Fld, g.place ≠ Reg.TST_BIST_STAT.place → g.place ≠ Reg.TST_TST_EVT.place →
      g.get s.percCounted.regs 0 0 = g.get s.regs 0 0) ∧
    ∀ c < 5, (Reg.TST_TST_EVT.get s.percCounted.regs 0 0).testBit c = (Reg.TST_TST_EVT.get s.regs 0 0).testBit c := by
  unfold State.percCounted
  split
  · exact ⟨rfl, rfl, rfl, fun _ _ _ => rfl, fun _ _ => rfl⟩
  · split
    · refine ⟨by simp, by simp, by simp, fun g stat event => ?_, fun c low => ?_⟩
      · rw [State.get_ev_place event, State.get_wr_place stat]
      · rw [State.ev_testBit_lower _ 184 low (by show c < 7; omega), State.get_wr_place (by decide)]
    · exact ⟨rfl, rfl, rfl, fun _ _ _ => rfl, fun _ _ => rfl⟩

theorem State.percMoved_reads (s : State) :
    s.percMoved.rd Reg.TST_PERC_POS = (if s.rd Reg.TST_PERC_POS = 0x2000 then 0 else s.rd Reg.TST_PERC_POS + 1) % 2 ^ 14 ∧
      s.percMoved.tst = s.tst ∧ s.percMoved.ntb = s.ntb ∧ s.percMoved.nvm = s.nvm ∧
      s.percMoved.rd Reg.TST_PERC_LAST_FAIL = s.rd Reg.TST_PERC_LAST_FAIL ∧
      (∀ c < 4, (Reg.TST_TST_EVT.get s.percMoved.regs 0 0).testBit c = (Reg.TST_TST_EVT.get s.regs 0 0).testBit c) ∧
      (s.rd Reg.TST_PERC_POS = 0x2000 → (s.percMoved.rd Reg.TST_TST_EVT).testBit 4 = true) := by
  unfold State.percMoved
  split
  · next last =>
    refine ⟨?_, by simp, by simp, by simp, ?_, fun c low => ?_, fun _ => State.ev_testBit _ 184 (by decide)⟩
    · rw [State.rd_get, State.get_ev_place (by decide), State.wrap_regs, Fld.get_put_place (by decide)]
      exact s.rd_wr_same Reg.TST_PERC_POS 0
    · rw [State.rd_get, State.get_ev_place (by decide), State.wrap_regs, Fld.get_put_place (by decide),
        State.get_wr_place (by decide)]
      rfl
    · rw [State.ev_testBit_lower _ 184 low (by show c < 7; omega), State.wrap_regs, Fld.get_put_place (by decide),
        State.get_wr_place (by decide)]
  · next inside =>
    refine ⟨s.rd_wr_same Reg.TST_PERC_POS _, rfl, rfl, rfl, State.get_wr_place (by decide) .., fun c _ => ?_,
      fun last => absurd last inside⟩
    rw [State.get_wr_place (by decide)]

/-- The end of a slice: the position moves on, and nothing else of the memories. -/
theorem State.percNext_reads (s : State) :
    s.percNext.rd Reg.TST_PERC_POS = (if s.rd Reg.TST_PERC_POS = 0x2000 then 0 else s.rd Reg.TST_PERC_POS + 1) % 2 ^ 14 ∧
      s.percNext.tst.repairs = s.tst.repairs ∧ s.percNext.ntb = s.ntb ∧ s.percNext.nvm = s.nvm ∧
      s.percNext.rd Reg.TST_PERC_LAST_FAIL = s.rd Reg.TST_PERC_LAST_FAIL ∧
      (∀ c < 4, (s.percNext.rd Reg.TST_TST_EVT).testBit c = (s.rd Reg.TST_TST_EVT).testBit c) ∧
      (s.rd Reg.TST_PERC_POS = 0x2000 → (s.percNext.rd Reg.TST_TST_EVT).testBit 4 = true) := by
  obtain ⟨pos, tst, ntb, nvm, fail, bits, pass⟩ := s.percMoved_reads
  obtain ⟨repairs, ntb', nvm', get, bits'⟩ := s.percMoved.percCounted_reads
  rw [State.percNext_form]
  refine ⟨(get _ (by decide) (by decide)).trans pos, repairs.trans (congrArg (fun x : TstSt => x.repairs) tst),
    ntb'.trans ntb, nvm'.trans nvm, (get _ (by decide) (by decide)).trans fail,
    fun c low => (bits' c (by omega)).trans (bits c low), fun last => ?_⟩
  rw [State.rd_get, bits' 4 (by decide)]
  exact pass last

/-! ### A slice (R455 to R457) -/

/-- Soft errors elsewhere leave registers, tester, node table and NVM. -/
theorem State.softErrors_reads (s : State) (l : List Upset) :
    (l.foldl State.softError s).regs = s.regs ∧ (l.foldl State.softError s).tst = s.tst ∧
      (l.foldl State.softError s).ntb = s.ntb ∧ (l.foldl State.softError s).nvm = s.nvm := by
  have each : ∀ (t : State) (u : Upset), (t.softError u).regs = t.regs ∧ (t.softError u).tst = t.tst ∧
      (t.softError u).ntb = t.ntb ∧ (t.softError u).nvm = t.nvm := fun t u => by
    unfold State.softError
    split
    · split <;> exact ⟨rfl, rfl, rfl, rfl⟩
    · exact ⟨rfl, rfl, rfl, rfl⟩
    · exact ⟨rfl, rfl, rfl, rfl⟩
  exact ⟨foldl_keeps (fun (t : State) => t.regs) _ _ _ (fun t u => (each t u).1),
    foldl_keeps (fun (t : State) => t.tst) _ _ _ (fun t u => (each t u).2.1),
    foldl_keeps (fun (t : State) => t.ntb) _ _ _ (fun t u => (each t u).2.2.1),
    foldl_keeps (fun (t : State) => t.nvm) _ _ _ (fun t u => (each t u).2.2.2)⟩

/-- Words of the node table that fail parity leave registers and tester. -/
theorem State.hurtWords_reads (s : State) (pos : Nat) (l : List Upset) :
    (s.hurtWords pos l).regs = s.regs ∧ (s.hurtWords pos l).tst = s.tst := by
  have each : ∀ (t : State) (u : Upset), (t.hurtAt pos u).regs = t.regs ∧ (t.hurtAt pos u).tst = t.tst := fun t u => by
    unfold State.hurtAt
    split
    · split
      · split <;> exact ⟨rfl, rfl⟩
      · exact ⟨rfl, rfl⟩
    · split
      · split <;> exact ⟨rfl, rfl⟩
      · exact ⟨rfl, rfl⟩
    · exact ⟨rfl, rfl⟩
  exact ⟨foldl_keeps (fun (t : State) => t.regs) _ _ _ (fun t u => (each t u).1),
    foldl_keeps (fun (t : State) => t.tst) _ _ _ (fun t u => (each t u).2)⟩

/-- The faults of a slice are counted and shown. -/
def State.percFault (s : State) : State :=
  ((s.bump Reg.TST_PERC_FAILS).wr Reg.TST_PERC_LAST_FAIL (0x8000 + s.rd Reg.TST_PERC_POS)).ev Reg.TST_TST_EVT 0 184

/-- The faults of a slice, as a demand pass shows them too. -/
def State.percFound (s : State) : State :=
  if 0 < s.percFault.tst.demand then s.percFault.wr Reg.TST_BIST_FOUND 1 else s.percFault

theorem State.percFound_reads (s : State) : s.percFound.tst = s.tst ∧ s.percFound.ntb = s.ntb ∧
    s.percFound.rd Reg.TST_PERC_POS = s.rd Reg.TST_PERC_POS ∧
    s.percFound.rd Reg.TST_PERC_LAST_FAIL = (0x8000 + s.rd Reg.TST_PERC_POS) % 65536 ∧
    (s.percFound.rd Reg.TST_TST_EVT).testBit 0 = true := by
  have tst : s.percFault.tst = s.tst := by simp [State.percFault]
  have ntb : s.percFault.ntb = s.ntb := by simp [State.percFault]
  have pos : s.percFault.rd Reg.TST_PERC_POS = s.rd Reg.TST_PERC_POS := by
    rw [State.percFault, State.rd_get, State.get_ev_place (by decide), State.get_wr_place (by decide),
      State.get_bump_place (by decide)]
    rfl
  have fail : s.percFault.rd Reg.TST_PERC_LAST_FAIL = (0x8000 + s.rd Reg.TST_PERC_POS) % 65536 := by
    rw [State.percFault, State.rd_get, State.get_ev_place (by decide)]
    exact State.rd_wr_same _ Reg.TST_PERC_LAST_FAIL _
  have event : (s.percFault.rd Reg.TST_TST_EVT).testBit 0 = true := State.ev_testBit _ 184 (by decide)
  unfold State.percFound
  split
  · refine ⟨tst, ntb, ?_, ?_, ?_⟩
    · exact (State.get_wr_place (f := Reg.TST_BIST_FOUND) (by decide) ..).trans pos
    · exact (State.get_wr_place (f := Reg.TST_BIST_FOUND) (by decide) ..).trans fail
    · rw [State.rd_get, State.get_wr_place (by decide)]
      exact event
  · exact ⟨tst, ntb, pos, fail, event⟩

/-- The repairs of a slice, mapped and counted. -/
def State.percMended (s : State) (l : List Repair) : State :=
  ((s.mapRepairs l).bump Reg.TST_PERC_REPAIRS).ev Reg.TST_TST_EVT 1 184

theorem State.mapRepairs_reads (s : State) (l : List Repair) : (s.mapRepairs l).tst.repairs = s.tst.repairs ++ l ∧
    (s.mapRepairs l).ntb = s.ntb ∧
    (∀ g : Fld, g.place ≠ Reg.TST_TST_EVT.place → g.get (s.mapRepairs l).regs 0 0 = g.get s.regs 0 0) ∧
    (Reg.TST_TST_EVT.get (s.mapRepairs l).regs 0 0).testBit 0 = (Reg.TST_TST_EVT.get s.regs 0 0).testBit 0 := by
  unfold State.mapRepairs
  dsimp only
  split
  · refine ⟨by simp, by simp, fun g off => State.get_ev_place off .., ?_⟩
    exact State.ev_testBit_lower _ 184 (by decide) (by decide)
  · exact ⟨rfl, rfl, fun _ _ => rfl, rfl⟩

theorem State.percMended_reads (s : State) (l : List Repair) : (s.percMended l).tst.repairs = s.tst.repairs ++ l ∧
    (s.percMended l).ntb = s.ntb ∧ (s.percMended l).rd Reg.TST_PERC_POS = s.rd Reg.TST_PERC_POS ∧
    (s.percMended l).rd Reg.TST_PERC_LAST_FAIL = s.rd Reg.TST_PERC_LAST_FAIL ∧
    ((s.percMended l).rd Reg.TST_TST_EVT).testBit 0 = (s.rd Reg.TST_TST_EVT).testBit 0 ∧
    ((s.percMended l).rd Reg.TST_TST_EVT).testBit 1 = true := by
  obtain ⟨repairs, ntb, get, bit⟩ := s.mapRepairs_reads l
  have kept : ∀ g : Fld, g.place ≠ Reg.TST_TST_EVT.place → g.place ≠ Reg.TST_PERC_REPAIRS.place →
      g.get (s.percMended l).regs 0 0 = g.get s.regs 0 0 := fun g event count => by
    rw [State.percMended, State.get_ev_place event, State.get_bump_place count, get g event]
  have tst : (s.percMended l).tst = (s.mapRepairs l).tst ∧ (s.percMended l).ntb = (s.mapRepairs l).ntb := by
    unfold State.percMended
    exact ⟨by simp, by simp⟩
  refine ⟨(congrArg (fun x : TstSt => x.repairs) tst.1).trans repairs, tst.2.trans ntb, kept _ (by decide) (by decide),
    kept _ (by decide) (by decide), ?_, State.ev_testBit _ 184 (by decide)⟩
  rw [State.percMended, State.rd_get, State.ev_testBit_lower _ 184 (by decide) (by decide), State.get_bump_place (by decide)]
  exact bit

theorem State.needs_of_tst {s t : State} (same : t.tst = s.tst) (f : MacroFault) (src : Nat) : t.needs f src = s.needs f src := by
  simp only [State.needs, same]

theorem State.mends_of_tst {s t : State} (same : t.tst = s.tst) : t.mends = s.mends := by
  funext f
  simp only [State.mends, State.needs_of_tst same, same]

section
variable {s : State} (may : s.sliceMay = true)
include may

/-- A slice without a fault moves the position on. -/
theorem exec_percSlice_clean (hurt : List Upset) : ∃ t, exec (.percSlice [] hurt) s = .next t ∧
    t.rd Reg.TST_PERC_POS = (if s.rd Reg.TST_PERC_POS = 0x2000 then 0 else s.rd Reg.TST_PERC_POS + 1) % 2 ^ 14 ∧
    t.tst.repairs = s.tst.repairs ∧ t.nvm = s.nvm ∧
    (s.rd Reg.TST_PERC_POS = 0x2000 → (t.rd Reg.TST_TST_EVT).testBit 4 = true) := by
  have ex : exec (.percSlice [] hurt) s = .next (hurt.foldl State.softError s).percNext :=
    (if_neg (by rw [may]; decide)).trans (if_pos rfl)
  obtain ⟨regs, tst, -, nvm⟩ := s.softErrors_reads hurt
  generalize hurt.foldl State.softError s = u at ex regs tst nvm
  obtain ⟨pos, repairs, -, nvm', -, -, pass⟩ := u.percNext_reads
  have same : u.rd Reg.TST_PERC_POS = s.rd Reg.TST_PERC_POS := by rw [State.rd_get, regs]; rfl
  rw [same] at pos pass
  exact ⟨_, ex, pos, repairs.trans (congrArg (fun x : TstSt => x.repairs) tst), nvm'.trans nvm, pass⟩

/-- A slice with a fault shows it, and repairs it where spares cover it. -/
theorem exec_percSlice_fault {l : List MacroFault} (hurt : List Upset) (some' : sliceFaults l ≠ []) :
    ∃ t, exec (.percSlice l hurt) s = .next t ∧
    t.rd Reg.TST_PERC_POS = (if s.rd Reg.TST_PERC_POS = 0x2000 then 0 else s.rd Reg.TST_PERC_POS + 1) % 2 ^ 14 ∧
    t.rd Reg.TST_PERC_LAST_FAIL = (0x8000 + s.rd Reg.TST_PERC_POS) % 65536 ∧ (t.rd Reg.TST_TST_EVT).testBit 0 = true ∧
    ((sliceFaults l).all s.mends = true → (t.rd Reg.TST_TST_EVT).testBit 1 = true ∧ t.ntb = s.ntb ∧
      t.tst.repairs = s.tst.repairs ++ (sliceFaults l).flatMap (fun f => s.needs f 2)) ∧
    ((sliceFaults l).all s.mends = false → (t.rd Reg.TST_TST_EVT).testBit 2 = true ∧ t.tst.repairs = s.tst.repairs) := by
  have gate : ¬(!s.sliceMay) = true := by rw [may]; decide
  have full : ¬(sliceFaults l).isEmpty = true := by rw [List.isEmpty_iff]; exact some'
  obtain ⟨regs, tst, ntb, -⟩ := s.softErrors_reads hurt
  have form : exec (.percSlice l hurt) s = .next (
      if (sliceFaults l).all (hurt.foldl State.softError s).percFound.mends then
        (State.logRepairs ((hurt.foldl State.softError s).percFound.percMended
          ((sliceFaults l).flatMap (fun f => (hurt.foldl State.softError s).percFound.needs f 2)))
          ((sliceFaults l).flatMap (fun f => (hurt.foldl State.softError s).percFound.needs f 2))).percNext
      else
        (State.hurtWords ((sliceFaults l).foldl (fun s f => s.logUnrep f 2)
          (((hurt.foldl State.softError s).percFound.bump Reg.TST_PERC_UNREP).ev Reg.TST_TST_EVT 2 184))
          ((hurt.foldl State.softError s).rd Reg.TST_PERC_POS) hurt).percNext) := by
    refine (if_neg gate).trans ((if_neg full).trans ?_)
    exact (apply_ite Host.Outcome.next _ _ _).symm
  have same : (hurt.foldl State.softError s).rd Reg.TST_PERC_POS = s.rd Reg.TST_PERC_POS := by rw [State.rd_get, regs]; rfl
  generalize hurt.foldl State.softError s = u at form regs tst ntb same
  obtain ⟨tst', ntb', pos, fail, zero⟩ := u.percFound_reads
  have needs : (sliceFaults l).flatMap (fun f => u.percFound.needs f 2) = (sliceFaults l).flatMap (fun f => s.needs f 2) := by
    congr 1
    funext f
    exact State.needs_of_tst (tst'.trans tst) f 2
  rw [needs, State.mends_of_tst (tst'.trans tst)] at form
  rw [same] at pos fail
  refine ⟨_, form, ?_⟩
  generalize u.percFound = v at tst' ntb' pos fail zero
  generalize (sliceFaults l).flatMap (fun f => s.needs f 2) = n
  cases all : (sliceFaults l).all s.mends with
  | true =>
    rw [if_pos rfl]
    obtain ⟨repairs, ntbM, posM, failM, zeroM, one⟩ := v.percMended_reads n
    obtain ⟨tstL, ntbL, get, bits⟩ := (v.percMended n).logRepairs_logOnly n
    obtain ⟨posN, repairsN, ntbN, -, failN, bitsN, -⟩ := ((v.percMended n).logRepairs n).percNext_reads
    have posL : ((v.percMended n).logRepairs n).rd Reg.TST_PERC_POS = s.rd Reg.TST_PERC_POS :=
      (get Reg.TST_PERC_POS (by decide)).trans (posM.trans pos)
    rw [posL] at posN
    refine ⟨posN, failN.trans ((get Reg.TST_PERC_LAST_FAIL (by decide)).trans (failM.trans fail)), ?_,
      fun _ => ⟨?_, ntbN.trans (ntbL.trans (ntbM.trans (ntb'.trans ntb))), ?_⟩, fun no => absurd no (by decide)⟩
    · rw [bitsN 0 (by decide), State.rd_get, bits 0 (by decide)]
      exact zeroM.trans zero
    · rw [bitsN 1 (by decide), State.rd_get, bits 1 (by decide)]
      exact one
    · rw [repairsN, tstL, repairs, tst', tst]
  | false =>
    rw [if_neg (by decide)]
    obtain ⟨tstL, -, get, bits⟩ := LogOnly.foldl (f := fun (s : State) f => s.logUnrep f 2) (sliceFaults l)
      (fun t f => t.logUnrep_logOnly f 2) ((v.bump Reg.TST_PERC_UNREP).ev Reg.TST_TST_EVT 2 184)
    generalize (sliceFaults l).foldl (fun s f => s.logUnrep f 2) ((v.bump Reg.TST_PERC_UNREP).ev Reg.TST_TST_EVT 2 184) = w
      at tstL get bits
    obtain ⟨regsH, tstH⟩ := w.hurtWords_reads (u.rd Reg.TST_PERC_POS) hurt
    generalize w.hurtWords (u.rd Reg.TST_PERC_POS) hurt = x at regsH tstH
    obtain ⟨posN, repairsN, -, -, failN, bitsN, -⟩ := x.percNext_reads
    have kept : ∀ g : Fld, g.place ≠ Reg.TST_TST_EVT.place → g.place ≠ Reg.TST_PERC_UNREP.place → x.rd g = v.rd g :=
      fun g event count => by
        rw [State.rd_get, regsH, get g event, State.get_ev_place event, State.get_bump_place count]
        rfl
    rw [kept _ (by decide) (by decide), pos] at posN
    have tstV : ((v.bump Reg.TST_PERC_UNREP).ev Reg.TST_TST_EVT 2 184).tst = v.tst := by simp
    refine ⟨posN, failN.trans ((kept _ (by decide) (by decide)).trans fail), ?_, fun no => absurd no (by decide), fun _ => ⟨?_, ?_⟩⟩
    · rw [bitsN 0 (by decide), State.rd_get, regsH, bits 0 (by decide), State.ev_testBit_lower _ 184 (by decide) (by decide),
        State.get_bump_place (by decide)]
      exact zero
    · rw [bitsN 2 (by decide), State.rd_get, regsH, bits 2 (by decide)]
      exact State.ev_testBit _ 184 (by decide)
    · rw [repairsN, tstH, tstL, tstV, tst', tst]

/-- A slice that is cut off is counted, and the position moves on. -/
theorem exec_percCutoff : ∃ t, exec .percCutoff s = .next t ∧
    t.rd Reg.TST_PERC_POS = (if s.rd Reg.TST_PERC_POS = 0x2000 then 0 else s.rd Reg.TST_PERC_POS + 1) % 2 ^ 14 ∧
    t.nvm = s.nvm ∧ t.tst.repairs = s.tst.repairs := by
  obtain ⟨pos, repairs, -, nvm, -⟩ := (s.bump Reg.TST_PERC_OVER).percNext_reads
  have same : (s.bump Reg.TST_PERC_OVER).rd Reg.TST_PERC_POS = s.rd Reg.TST_PERC_POS := State.get_bump_place (by decide) ..
  rw [same] at pos
  exact ⟨_, congrArg Host.Outcome.next (if_pos may), pos, nvm.trans (by simp), repairs.trans (by simp)⟩

end

/-- Settles O59: tests in and out of the test halt, FUSE, the slices of the Percolator. -/
theorem testsAndPercolator : Obligations.TestsAndPercolator := by
  refine ⟨fun s => ⟨fun hold halt idle => ⟨exec_bistMemory hold halt idle, exec_bistLogic hold halt idle⟩,
    fun may out => ⟨fun idle => ⟨fun g l => ?_, fun g x => ?_, fun lab runs => ?_, fun field => ?_⟩, fun field => ?_,
      fun l lab hl => ⟨_, exec_fuse may out, ?_⟩⟩⟩,
    fun s may => ⟨exec_percSlice_clean may, fun l hurt some' => exec_percSlice_fault may hurt some', exec_percCutoff may⟩⟩
  · exact congrArg Host.Outcome.next (State.bistHalt_refused may out idle _)
  · exact congrArg Host.Outcome.next (State.bistHalt_refused may out idle _)
  · have ex : exec .bistPercPass s = .next { ((s.numbered 1).wr Reg.TST_BIST_STAT 1).wr Reg.TST_BIST_FOUND 0 with
        tst.demand := percSlices } := by
      refine congrArg Host.Outcome.next ((s.hostOp_may _ _ _ may).trans ((if_neg idle).trans (if_pos ?_)))
      show (s.labState && s.percRuns) = true
      rw [lab, runs]
      rfl
    refine ⟨_, ex, ?_, State.rd_wr_same _ Reg.TST_BIST_FOUND 0, rfl⟩
    exact (State.get_wr_place (f := Reg.TST_BIST_FOUND) (g := Reg.TST_BIST_STAT) (by decide)
      ((s.numbered 1).wr Reg.TST_BIST_STAT 1) 0 0).trans ((s.numbered 1).rd_wr_same Reg.TST_BIST_STAT 1)
  · refine congrArg Host.Outcome.next ((s.hostOp_may _ _ _ may).trans ((if_neg idle).trans (if_neg ?_)))
    show ¬(s.labState && _) = true
    rw [field]
    simp
  · refine (exec_fuse may out).trans (congrArg Host.Outcome.next (if_neg ?_))
    show ¬(s.labState && _) = true
    rw [field]
    simp
  · by_cases fits : s.otp.repairs.length + l.length ≤ 1024
    · rw [if_pos fits]
      have form : (s.numbered 1).fuseCmd = { (s.numbered 1).wr Reg.TST_REP_STAT 2 with otp.repairs := s.otp.repairs ++ l } := by
        rw [hl] at fits ⊢
        refine if_pos ?_
        show (s.labState && _) = true
        rw [lab, Bool.true_and]
        exact decide_eq_true fits
      rw [form]
      exact ⟨State.rd_wr_same _ Reg.TST_REP_STAT 2, rfl⟩
    · rw [if_neg fits]
      refine if_neg ?_
      rw [hl] at fits
      show ¬(s.labState && _) = true
      rw [lab, Bool.true_and]
      exact fun h => fits (of_decide_eq_true h)

end Sys2Proof.Machine

/-!
PROOF. Island faults, restarts and the end of a recovery (O60, R413 to R424).
-/

namespace Sys2Proof.Machine

/-! ### Run bits (R35) -/

/-- A bit that is cleared is clear. -/
theorem testBit_clearBits (x k : Nat) : (clearBits x (2 ^ k)).testBit k = false := by
  unfold clearBits
  rw [Nat.and_two_pow]
  cases bit : x.testBit k with
  | false => simpa using bit
  | true =>
    rw [Nat.testBit_eq_decide_div_mod_eq, decide_eq_true_eq] at bit
    rw [Bool.toNat_true, one_mul, Nat.testBit_eq_decide_div_mod_eq, decide_eq_false_iff_not]
    have one : (x - 2 ^ k) / 2 ^ k = x / 2 ^ k - 1 := by
      simpa using Nat.sub_mul_div x (2 ^ k) 1
    rw [one]
    omega

theorem islNum_lt (isl : Isl) : isl.num < 16 := by
  cases isl <;> decide

/-- The run bit of an island reads what it was set to. -/
theorem State.setRun_runs (s : State) (isl : Isl) (v : Bool) : (s.setRun isl v).runs isl = v := by
  have set_ : ∀ x k, k < 8 → ((clearBits x (2 ^ k) + if v then 2 ^ k else 0) % 2 ^ 8).testBit k = v := fun x k low => by
    rw [Nat.testBit_mod_two_pow, decide_eq_true low, Bool.true_and]
    cases v with
    | false => exact testBit_clearBits x k
    | true => rw [if_pos rfl, Nat.add_comm, Nat.testBit_two_pow_add_eq, testBit_clearBits]; rfl
  have fits := islNum_lt isl
  unfold State.setRun State.runs
  dsimp only
  by_cases low : isl.num < 8
  · rw [if_pos low, if_pos low, State.rd_wr_same, Nat.mod_eq_of_lt low]
    exact set_ _ _ low
  · rw [if_neg low, if_neg low, State.rd_wr_same]
    have same : isl.num - 8 = isl.num % 8 := by omega
    rw [same]
    exact set_ _ _ (Nat.mod_lt _ (by decide))

theorem State.setRun_get {g : Fld} (low : g.place ≠ Reg.SYS_ISL_RUN_L.place) (high : g.place ≠ Reg.SYS_ISL_RUN_H.place)
    (s : State) (isl : Isl) (v : Bool) (c : Nat) : g.get (s.setRun isl v).regs 0 c = g.get s.regs 0 c := by
  unfold State.setRun
  refine State.get_wr_place ?_ ..
  split
  · exact low
  · exact high

/-! ### An island faults (R413, R419) -/

/-- A running device with no generation open, an island of which runs. -/
def State.faultReady (s : State) (isl : Isl) : Prop :=
  s.sys.hold = .none ∧ s.halted = false ∧ s.rd Reg.SYS_REC_STATE = 0 ∧ s.runs isl = true

/-- The fields that decide whether an island faults. -/
def readyFields : List Fld :=
  [Reg.SYS_BOOT_STAGE, Reg.SYS_BOOT_MODE, Reg.SYS_LC_STATE, Reg.SYS_REC_STATE, Reg.SYS_ISL_RUN_L, Reg.SYS_ISL_RUN_H]

theorem State.faultReady_of {s t : State} {isl : Isl} (ready : s.faultReady isl) (hold : t.sys.hold = s.sys.hold)
    (get : ∀ g ∈ readyFields, t.rd g = s.rd g) : t.faultReady isl := by
  obtain ⟨held, halted, closed, run⟩ := ready
  simp only [readyFields, List.forall_mem_cons] at get
  obtain ⟨stage, mode, lc, rec, low, high, -⟩ := get
  refine ⟨hold.trans held, ?_, rec.trans closed, (State.runs_of_rd low high isl).trans run⟩
  rw [← halted]
  simp only [State.halted, State.testHalt, State.testMode, stage, mode, lc]

theorem State.faultReady_wr {s : State} {isl : Isl} (ready : s.faultReady isl) {f : Fld}
    (off : ∀ g ∈ readyFields, g.place ≠ f.place) (v : Nat) : (s.wr f v).faultReady isl :=
  State.faultReady_of ready rfl (fun g mem => State.get_wr_place (off g mem) ..)

/-- The fault event of an island. -/
def State.faultShown (s : State) (isl : Isl) : State :=
  if isl.num < 8 then s.ev Reg.SYS_ISL_FLT_L isl.num 0 else s.ev Reg.SYS_ISL_FLT_H (isl.num - 8) 8

/-- The event bit of an island's fault reads 1. -/
def State.showsFault (s : State) (isl : Isl) : Prop :=
  (if isl.num < 8 then (s.rd Reg.SYS_ISL_FLT_L).testBit isl.num else (s.rd Reg.SYS_ISL_FLT_H).testBit (isl.num - 8)) = true

theorem State.faultShown_shows (s : State) (isl : Isl) : (s.faultShown isl).showsFault isl := by
  unfold State.faultShown State.showsFault
  have fits := islNum_lt isl
  split
  · next low => exact State.ev_testBit _ 0 low
  · exact State.ev_testBit _ 8 (show isl.num - 8 < 8 by omega)

theorem State.faultShown_get {g : Fld} (low : g.place ≠ Reg.SYS_ISL_FLT_L.place) (high : g.place ≠ Reg.SYS_ISL_FLT_H.place)
    (s : State) (isl : Isl) (c : Nat) : g.get (s.faultShown isl).regs 0 c = g.get s.regs 0 c := by
  unfold State.faultShown
  split
  · exact State.get_ev_place low ..
  · exact State.get_ev_place high ..

theorem State.logFault_get {g : Fld} (event : g.place ≠ Reg.TST_TST_EVT.place) (s : State) (isl cause c : Nat) :
    g.get (s.logFault isl cause).regs 0 c = g.get s.regs 0 c := by
  unfold State.logFault
  split
  · rfl
  split
  · exact State.get_ev_place event ..
  · rfl

theorem State.logFault_sys (s : State) (isl cause : Nat) : (s.logFault isl cause).sys.fltCount = s.sys.fltCount := by
  unfold State.logFault
  split
  · rfl
  split
  · obtain ⟨l, sys⟩ := sys_of_unnumbered (s.ev_sys Reg.TST_TST_EVT 6 184)
    unfold State.logFull
    rw [sys]
  · rfl

/-- A generation open, the island's run bit clear, its event set, the fault counted and logged. -/
def State.faulted (s : State) (isl : Isl) (cause : Nat) : State :=
  State.logFault { (((s.openGen isl.num cause).setRun isl false).faultShown isl) with
    sys.fltCount := (((s.openGen isl.num cause).setRun isl false).faultShown isl).sys.fltCount ++ [isl.num] } isl.num cause

/-- The registers that a fault moves. -/
def faultFields : List Fld :=
  [Reg.SYS_REC_GEN, Reg.SYS_REC_ISL, Reg.SYS_REC_CAUSE, Reg.SYS_REC_STATE, Reg.SYS_ISL_RUN_L, Reg.SYS_ISL_RUN_H,
    Reg.SYS_ISL_FLT_L, Reg.SYS_ISL_FLT_H, Reg.TST_TST_EVT]

section
variable {s : State} {isl : Isl} (closed : s.rd Reg.SYS_REC_STATE = 0) (cause : Nat)
include closed

/-- A fault opens a generation that names it. -/
theorem State.faulted_reads : (s.faulted isl cause).sys.fltCount = [isl.num] ∧ (s.faulted isl cause).rd Reg.SYS_REC_STATE = 0 ∧
    (s.faulted isl cause).rd Reg.SYS_REC_ISL = isl.num ∧ (s.faulted isl cause).rd Reg.SYS_REC_CAUSE = cause % 8 ∧
    (s.faulted isl cause).runs isl = false ∧ (s.faulted isl cause).showsFault isl ∧
    (s.faulted isl cause).car = s.car ∧
    ∀ g : Fld, (∀ f ∈ faultFields, g.place ≠ f.place) → (s.faulted isl cause).rd g = s.rd g := by
  obtain ⟨still, named, why, kept, r, e⟩ := s.openGen_new isl.num cause closed (islNum_lt isl)
  have step (g : Fld) (runL : g.place ≠ Reg.SYS_ISL_RUN_L.place) (runH : g.place ≠ Reg.SYS_ISL_RUN_H.place)
      (fltL : g.place ≠ Reg.SYS_ISL_FLT_L.place) (fltH : g.place ≠ Reg.SYS_ISL_FLT_H.place)
      (event : g.place ≠ Reg.TST_TST_EVT.place) : (s.faulted isl cause).rd g = (s.openGen isl.num cause).rd g := by
    rw [State.rd_get, State.faulted, State.logFault_get event]
    exact (State.faultShown_get fltL fltH _ isl 0).trans (State.setRun_get runL runH _ isl false 0)
  have run : (s.faulted isl cause).runs isl = false := by
    have same (g : Fld) (fltL : g.place ≠ Reg.SYS_ISL_FLT_L.place) (fltH : g.place ≠ Reg.SYS_ISL_FLT_H.place)
        (event : g.place ≠ Reg.TST_TST_EVT.place) :
        (s.faulted isl cause).rd g = ((s.openGen isl.num cause).setRun isl false).rd g := by
      rw [State.rd_get, State.faulted, State.logFault_get event]
      exact State.faultShown_get fltL fltH _ isl 0
    exact (State.runs_of_rd (same _ (by decide) (by decide) (by decide)) (same _ (by decide) (by decide) (by decide)) isl).trans
      (State.setRun_runs _ isl false)
  have shows : (s.faulted isl cause).showsFault isl := by
    have before := State.faultShown_shows ((s.openGen isl.num cause).setRun isl false) isl
    unfold State.showsFault at before ⊢
    rw [State.rd_get, State.rd_get, State.faulted, State.logFault_get (by decide), State.logFault_get (by decide)]
    exact before
  have count : (s.faulted isl cause).sys.fltCount = [isl.num] := by
    rw [State.faulted, State.logFault_sys]
    have sys : unnumbered (((s.openGen isl.num cause).setRun isl false).faultShown isl).sys =
        unnumbered (s.openGen isl.num cause).sys := by
      have set_ : ((s.openGen isl.num cause).setRun isl false).sys = (s.openGen isl.num cause).sys := by simp
      rw [← set_]
      unfold State.faultShown
      split <;> simp only [State.ev_sys]
    obtain ⟨l, sys⟩ := sys_of_unnumbered sys
    show _ ++ _ = _
    rw [sys, e]
    rfl
  have car : (s.faulted isl cause).car = s.car := by
    have shown : (((s.openGen isl.num cause).setRun isl false).faultShown isl).car = s.car := by
      unfold State.faultShown
      split <;> simp
    unfold State.faulted
    rw [(show ∀ t : State, (t.logFault isl.num cause).car = t.car from fun t => by simp)]
    exact shown
  refine ⟨count, ?_, ?_, ?_, run, shows, car, fun g off => ?_⟩
  · exact (step _ (by decide) (by decide) (by decide) (by decide) (by decide)).trans still
  · exact (step _ (by decide) (by decide) (by decide) (by decide) (by decide)).trans named
  · exact (step _ (by decide) (by decide) (by decide) (by decide) (by decide)).trans why
  · simp only [faultFields, List.forall_mem_cons] at off
    obtain ⟨gen, island, cause', -, runL, runH, fltL, fltH, event, -⟩ := off
    exact (step g runL runH fltL fltH event).trans (kept g gen island cause')

end

/-- The state of an island's first fault, as its own stop meets it. -/
def State.faultOpen (s : State) (isl : Isl) (cause : Nat) : State := (s.faulted isl cause).wr Reg.SYS_REC_STATE 1

/-- What a state shows once the first fault of an island has opened a generation. -/
def faultOpened (isl : Isl) (cause : Nat) (u : State) : Prop :=
  u.runs isl = false ∧ u.rd Reg.SYS_REC_STATE = 1 ∧ u.rd Reg.SYS_REC_ISL = isl.num ∧ u.rd Reg.SYS_REC_CAUSE = cause ∧
    u.sys.fltCount = [isl.num] ∧ u.showsFault isl

section
variable {s : State} {isl : Isl} {cause : Nat} (closed : s.rd Reg.SYS_REC_STATE = 0) (code : cause < 8)
include closed

theorem State.faultOpen_get {g : Fld} (off : ∀ f ∈ faultFields, g.place ≠ f.place) : (s.faultOpen isl cause).rd g = s.rd g := by
  obtain ⟨-, -, -, -, -, -, -, kept⟩ := State.faulted_reads (isl := isl) closed cause
  have state : g.place ≠ Reg.SYS_REC_STATE.place := off _ (by simp [faultFields])
  exact (State.get_wr_place state ..).trans (kept g off)

theorem State.faultOpen_car : (s.faultOpen isl cause).car = s.car := by
  obtain ⟨-, -, -, -, -, -, car, -⟩ := State.faulted_reads (isl := isl) closed cause
  exact car

include code

theorem State.faultOpen_opened : faultOpened isl cause (s.faultOpen isl cause) := by
  obtain ⟨count, -, named, why, run, shows, -, -⟩ := State.faulted_reads (isl := isl) closed cause
  refine ⟨?_, State.rd_wr_same _ Reg.SYS_REC_STATE 1, ?_, ?_, count, ?_⟩
  · exact (State.runs_of_rd (State.get_wr_place (f := Reg.SYS_REC_STATE) (by decide) ..)
      (State.get_wr_place (f := Reg.SYS_REC_STATE) (by decide) ..) isl).trans run
  · exact (State.get_wr_place (f := Reg.SYS_REC_STATE) (by decide) ..).trans named
  · exact (State.get_wr_place (f := Reg.SYS_REC_STATE) (by decide) ..).trans (why.trans (Nat.mod_eq_of_lt code))
  · unfold State.showsFault at shows ⊢
    unfold State.faultOpen
    rw [State.rd_get, State.rd_get, State.get_wr_place (by decide), State.get_wr_place (by decide)]
    exact shows

end

/-- The first fault of an island other than SYS and KEY. -/
theorem State.islandFault_first {s : State} {isl : Isl} (ready : s.faultReady isl) (sys : isl ≠ .SYS) (key : isl ≠ .KEY)
    (cause : Nat) : s.islandFault isl cause = (s.faultOpen isl cause).stopIsland isl := by
  obtain ⟨hold, halted, closed, run⟩ := ready
  have up : s.up = true := decide_eq_true hold
  obtain ⟨count, still, -⟩ := State.faulted_reads (isl := isl) closed cause
  have once : ¬3 ≤ (s.faulted isl cause).faults isl := by
    rw [State.faults, count]
    simp
  unfold State.islandFault
  rw [if_neg (by rw [up, halted]; decide)]
  split
  · exact absurd rfl sys
  · exact absurd rfl key
  · rw [if_neg (by rw [run]; decide)]
    refine congrArg (fun t : State => t.stopIsland isl) ((if_neg once).trans (if_neg ?_))
    show ¬(s.faulted isl cause).rd Reg.SYS_REC_STATE = 3
    rw [still]
    decide

/-! ### What makes an island fault (R16, R278, R344, R413) -/

/-- An island has stopped in its first fault. -/
def faultStopped (isl : Isl) (cause : Nat) (t : State) : Prop := ∃ u, faultOpened isl cause u ∧ t = State.stopIsland u isl

section
variable {s : State} {isl : Isl} (ready : s.faultReady isl) (sys : isl ≠ .SYS) (key : isl ≠ .KEY)
include ready sys key

theorem State.islandFault_stops {cause : Nat} (code : cause < 8) : faultStopped isl cause (s.islandFault isl cause) := by
  obtain ⟨-, -, closed, -⟩ := id ready
  exact ⟨_, State.faultOpen_opened closed code, State.islandFault_first ready sys key cause⟩

/-- A parity error, an error of the time spine and a handshake that times out stop the island. -/
theorem exec_islandErrors :
    (∃ t, exec (.islandStateParity isl) s = .next t ∧ faultStopped isl 1 t) ∧
    (∃ t, exec (.spineTapError isl) s = .next t ∧ faultStopped isl 1 t) ∧
    (∃ t, exec (.handshakeTimeout isl) s = .next t ∧ faultStopped isl 2 t) := by
  obtain ⟨hold, halted, -, run⟩ := id ready
  have up : s.up = true := decide_eq_true hold
  refine ⟨⟨_, rfl, State.islandFault_stops ready sys key (by decide)⟩, ⟨_, if_neg (by rw [up, halted]; decide), ?_⟩,
    ⟨_, if_neg (by rw [up, halted, run]; decide), ?_⟩⟩
  · exact State.islandFault_stops (State.faultReady_wr ready (f := Reg.TIM_SPINE_ERR) (by decide) _) sys key (by decide)
  · refine State.islandFault_stops (State.faultReady_wr (State.faultReady_wr (State.faultReady_wr ready
      (f := Reg.SYS_FAB_HSTO) (by decide) _) (f := Reg.SYS_FAB_LAST_SRC) (by decide) _)
      (f := Reg.SYS_FAB_LAST_CAUSE) (by decide) _) sys key (by decide)

end

/-- A double error of CAR's memories stops CAR, its location shown and kept for the restart. -/
theorem exec_carafeDoubleError {s : State} (ready : s.faultReady .CAR) (cell : BitVec 16) (mem : CarMem) :
    ∃ t, exec (.carafeDoubleError cell mem) s = .next t ∧ faultStopped .CAR 3 t ∧ t.rd Reg.CAR_DE_LOC = cell.toNat ∧
      t.car.deCells = s.car.deCells ++ [cell.toNat] := by
  obtain ⟨hold, halted, -, run⟩ := id ready
  have up : s.up = true := decide_eq_true hold
  generalize hu : ({ (s.wr Reg.CAR_DE_LOC cell.toNat).wr Reg.CAR_DE_SRC (CarMem.code mem) with
    car.deCells := s.car.deCells ++ [cell.toNat] } : State) = u
  have ready' : u.faultReady .CAR := by
    rw [← hu]
    exact State.faultReady_of (State.faultReady_wr (State.faultReady_wr ready (f := Reg.CAR_DE_LOC) (by decide) cell.toNat)
      (f := Reg.CAR_DE_SRC) (by decide) (CarMem.code mem)) rfl (fun _ _ => rfl)
  have ex : exec (.carafeDoubleError cell mem) s = .next (u.islandFault .CAR 3) := by
    rw [← hu]
    exact if_neg (by rw [up, halted, run]; decide)
  obtain ⟨-, -, closed, -⟩ := id ready'
  have form : u.islandFault .CAR 3 = u.faultOpen .CAR 3 := State.islandFault_first ready' (by decide) (by decide) 3
  refine ⟨_, ex, State.islandFault_stops ready' (by decide) (by decide) (by decide), ?_, ?_⟩
  · rw [form, State.faultOpen_get closed (by decide), ← hu]
    exact (State.get_wr_place (f := Reg.CAR_DE_SRC) (g := Reg.CAR_DE_LOC) (by decide) (s.wr Reg.CAR_DE_LOC cell.toNat) _ 0).trans
      ((s.rd_wr_same Reg.CAR_DE_LOC _).trans (Nat.mod_eq_of_lt cell.isLt))
  · rw [form, State.faultOpen_car closed, ← hu]

/-! ### A failed tag check (R18) -/

/-- What waits at an island does not depend on the registers. -/
theorem State.itemsAt_wr (s : State) (f : Fld) (v : Nat) (rcv : Isl) : (s.wr f v).itemsAt rcv = s.itemsAt rcv := by
  cases rcv <;> rfl

theorem State.tagged_wr (s : State) (f : Fld) (v : Nat) (rcv : Isl) (tag : Word64) (bad : Bool) :
    (s.wr f v).tagged rcv tag bad = s.tagged rcv tag bad := by
  unfold State.tagged
  rw [State.itemsAt_wr]

/-- An item that is taken out leaves the hold of the device and every register but KU_STAT. -/
theorem State.takeOut_reads (s : State) (x : Flying) : (s.takeOut x).sys.hold = s.sys.hold ∧
    ∀ g : Fld, g.place ≠ Reg.KEY_KU_STAT.place → (s.takeOut x).rd g = s.rd g := by
  have pulled (p : TxItem → Bool) : (s.pullItems p).sys.hold = s.sys.hold ∧ (s.pullItems p).regs = s.regs :=
    ⟨congrArg (fun y : SysSt => y.hold) (by simp), by simp⟩
  unfold State.takeOut
  cases x with
  | tx f =>
    obtain ⟨hold, regs⟩ := pulled (fun y => y = f)
    exact ⟨hold, fun g _ => by rw [State.rd_get, regs]; rfl⟩
  | msg m => exact ⟨rfl, fun g off => State.get_wr_place (f := Reg.KEY_KU_STAT) off s 0 0⟩
  | ul | tbl | prop | join | wait | sess | event | mir => exact ⟨rfl, fun g _ => rfl⟩

/-- The check is counted and its fault recorded. -/
def State.tagFailed (s : State) (snd : Isl) (tag : Word64) : State :=
  (s.bump Reg.SYS_FAB_TAGCHK).fabFault snd (if tagEven tag then 2 else 1)

theorem State.tagFailed_reads {s : State} {isl : Isl} (ready : s.faultReady isl) (snd : Isl) (tag : Word64) :
    (s.tagFailed snd tag).faultReady isl ∧ (s.tagFailed snd tag).rd Reg.SYS_FAB_LAST_SRC = snd.num ∧
      (s.tagFailed snd tag).rd Reg.SYS_FAB_LAST_CAUSE = (if tagEven tag then 2 else 1) ∧
      ∀ rcv bad, (s.tagFailed snd tag).tagged rcv tag bad = s.tagged rcv tag bad := by
  refine ⟨?_, ?_, ?_, fun rcv bad => ?_⟩
  · exact State.faultReady_wr (State.faultReady_wr (State.faultReady_wr ready (f := Reg.SYS_FAB_TAGCHK) (by decide) _)
      (f := Reg.SYS_FAB_LAST_SRC) (by decide) _) (f := Reg.SYS_FAB_LAST_CAUSE) (by decide) _
  · exact (State.get_wr_place (f := Reg.SYS_FAB_LAST_CAUSE) (by decide) ..).trans
      ((State.rd_wr_same _ Reg.SYS_FAB_LAST_SRC _).trans (Nat.mod_eq_of_lt (islNum_lt snd)))
  · refine (State.rd_wr_same _ Reg.SYS_FAB_LAST_CAUSE _).trans ?_
    split <;> rfl
  · exact ((State.tagged_wr ..).trans (State.tagged_wr ..)).trans (State.tagged_wr ..)

/-- An item whose tag check fails is lost, and its sender stops. -/
theorem exec_fabTagCheckFail {s : State} {rcv snd : Isl} (tag : Word64) (ready : s.faultReady snd) (run : s.runs rcv = true)
    (sys : snd ≠ .SYS) (key : snd ≠ .KEY) (bad : tagEven tag = false ∨ tagFits rcv tag = false) :
    ∃ t, exec (.fabTagCheckFail rcv snd tag) s = .next t ∧ ∃ u, faultOpened snd 4 u ∧ u.rd Reg.SYS_FAB_LAST_SRC = snd.num ∧
      u.rd Reg.SYS_FAB_LAST_CAUSE = (if tagEven tag then 2 else 1) ∧
      (s.tagged rcv tag (!tagEven tag) = none → t = State.stopIsland u snd) ∧
      (∀ x, s.tagged rcv tag (!tagEven tag) = some x → t = State.itemLost (State.stopIsland u snd) x) := by
  obtain ⟨hold, halted, -, runS⟩ := id ready
  have up : s.up = true := decide_eq_true hold
  have gate : ¬(!s.up || s.halted || !s.runs rcv || !s.runs snd || (tagEven tag && tagFits rcv tag)) = true := by
    rw [up, halted, run, runS]
    rcases bad with odd | off
    · rw [odd]; simp
    · rw [off]; simp
  obtain ⟨ready', src, why, same⟩ := State.tagFailed_reads ready snd tag
  have shown (u : State) (closed : u.rd Reg.SYS_REC_STATE = 0) (src' : u.rd Reg.SYS_FAB_LAST_SRC = snd.num)
      (why' : u.rd Reg.SYS_FAB_LAST_CAUSE = (if tagEven tag then 2 else 1)) :
      (u.faultOpen snd 4).rd Reg.SYS_FAB_LAST_SRC = snd.num ∧
        (u.faultOpen snd 4).rd Reg.SYS_FAB_LAST_CAUSE = (if tagEven tag then 2 else 1) :=
    ⟨(State.faultOpen_get closed (by decide)).trans src', (State.faultOpen_get closed (by decide)).trans why'⟩
  cases found : s.tagged rcv tag (!tagEven tag) with
  | none =>
    have found' : (s.tagFailed snd tag).tagged rcv tag (!tagEven tag) = none := (same ..).trans found
    have ex : exec (.fabTagCheckFail rcv snd tag) s = .next ((s.tagFailed snd tag).islandFault snd 4) := by
      simp only [exec, execFabTagCheckFail]
      rw [if_neg gate]
      unfold State.tagFailed at found' ⊢
      rw [found']
    obtain ⟨-, -, closed, -⟩ := id ready'
    obtain ⟨src', why'⟩ := shown _ closed src why
    exact ⟨_, ex, _, State.faultOpen_opened closed (by decide), src', why',
      fun _ => State.islandFault_first ready' sys key 4, fun x other => absurd other (by simp)⟩
  | some x =>
    have found' : (s.tagFailed snd tag).tagged rcv tag (!tagEven tag) = some x := (same ..).trans found
    obtain ⟨holdT, getT⟩ := (s.tagFailed snd tag).takeOut_reads x
    have readyT : ((s.tagFailed snd tag).takeOut x).faultReady snd :=
      State.faultReady_of ready' holdT (fun g mem => getT g (by revert g; decide))
    have ex : exec (.fabTagCheckFail rcv snd tag) s =
        .next ((((s.tagFailed snd tag).takeOut x).islandFault snd 4).itemLost x) := by
      simp only [exec, execFabTagCheckFail]
      rw [if_neg gate]
      unfold State.tagFailed at found' ⊢
      rw [found']
      exact congrArg Host.Outcome.next (if_neg (by simp [sys, key]))
    obtain ⟨-, -, closed, -⟩ := id readyT
    obtain ⟨src', why'⟩ := shown _ closed ((getT _ (by decide)).trans src) ((getT _ (by decide)).trans why)
    refine ⟨_, ex, _, State.faultOpen_opened closed (by decide), src', why', fun no => absurd no (by simp), fun y same' => ?_⟩
    obtain rfl : x = y := Option.some.inj same'
    rw [State.islandFault_first readyT sys key 4]

/-! ### The end of a recovery (R417 to R424) -/

/-- A stopped island restarts unless it has faulted three times. -/
theorem exec_islandRestart {s : State} {isl : Isl} (hold : s.sys.hold = .none) (halted : s.halted = false)
    (still : s.runs isl = false) :
    (s.faults isl < 3 → (s.setRun isl true).runs isl = true ∧
      exec (.islandRestart isl) s = .next (((s.setRun isl true).restartIsland isl).abortRun)) ∧
    (3 ≤ s.faults isl → exec (.islandRestart isl) s = .next s) := by
  have up : s.up = true := decide_eq_true hold
  refine ⟨fun few => ⟨s.setRun_runs isl true, if_neg ?_⟩, fun many => if_pos ?_⟩
  · rw [up, halted, still, decide_eq_false (not_le.mpr few)]
    decide
  · rw [decide_eq_true many, Bool.or_true]

theorem exec_resumePublish {s : State} (hold : s.sys.hold = .none) (opened : s.rd Reg.SYS_REC_STATE = 1)
    (all : s.allRun = true) : ∃ t, exec .resumePublish s = .next t ∧ t.rd Reg.SYS_REC_STATE = 2 ∧
      (t.rd Reg.SYS_REC_EVT).testBit 0 = true ∧ t.sys.fences = s.sys.fences ∧ t.ntb = s.ntb := by
  have up : s.up = true := decide_eq_true hold
  obtain ⟨l, sys⟩ := sys_of_unnumbered ((s.wr Reg.SYS_REC_STATE 2).ev_sys Reg.SYS_REC_EVT 0 20)
  refine ⟨_, if_pos (by rw [up, opened, all]; rfl), ?_, State.ev_testBit _ 20 (by decide), by rw [sys]; rfl, by simp⟩
  rw [State.rd_get, State.get_ev_place (by decide)]
  exact s.rd_wr_same Reg.SYS_REC_STATE 2

/-- Every ring's fence is lifted. -/
def State.ringsFreed (s : State) : State := (List.range 33).foldl (fun (s : State) r => s.wrB Reg.HST_RING_FENCED 0 r 0) s

/-- A write to every bank of a field below `n`. -/
theorem State.wrBanks_get (f : Fld) (v n : Nat) (s : State) :
    (∀ r < n, ((List.range n).foldl (fun (s : State) r => s.wrB f 0 r v) s).rdB f 0 r = v % 2 ^ f.width) ∧
      ∀ g : Fld, g.place ≠ f.place → ∀ c, g.get ((List.range n).foldl (fun (s : State) r => s.wrB f 0 r v) s).regs 0 c =
        g.get s.regs 0 c := by
  induction n with
  | zero => exact ⟨fun r low => absurd low (Nat.not_lt_zero r), fun g _ c => rfl⟩
  | succ n ih =>
    obtain ⟨banks, others⟩ := ih
    rw [List.range_succ, List.foldl_append, List.foldl_cons, List.foldl_nil]
    refine ⟨fun r low => ?_, fun g off c => ?_⟩
    · rw [State.rdB_get, State.wrB_regs]
      by_cases last : r = n
      · rw [last]
        exact Fld.get_put_same ..
      · rw [Fld.get_put_of_ne (by unfold Fld.key; omega)]
        exact banks r (by omega)
    · rw [State.wrB_regs, Fld.get_put_place off]
      exact others g off c

/-- REC_ACK lifts every fence and ends the generation. -/
theorem State.recAck_spec {s : State} (published : s.rd Reg.SYS_REC_STATE = 2) :
    s.recAck.rd Reg.SYS_REC_STATE = 0 ∧ s.recAck.sys.fences = [] ∧ s.recAck.sys.fltCount = [] ∧
      s.recAck.on Reg.SYS_REGW_FENCED = false ∧ s.recAck.on Reg.SYS_TBL_FENCED = false ∧
      ∀ r < 33, s.recAck.rdB Reg.HST_RING_FENCED 0 r = 0 := by
  have form : s.recAck = { ((s.ringsFreed.wr Reg.SYS_REGW_FENCED 0).wr Reg.SYS_TBL_FENCED 0).wr Reg.SYS_REC_STATE 0 with
      sys.fences := [], sys.fltCount := [] } := if_neg (not_not.mpr published)
  obtain ⟨banks, -⟩ := State.wrBanks_get Reg.HST_RING_FENCED 0 33 s
  have regs : s.recAck.regs = (((s.ringsFreed.wr Reg.SYS_REGW_FENCED 0).wr Reg.SYS_TBL_FENCED 0).wr Reg.SYS_REC_STATE 0).regs := by
    rw [form]
  refine ⟨?_, by rw [form], by rw [form], ?_, ?_, fun r low => ?_⟩
  · rw [State.rd_get, regs]
    exact State.rd_wr_same _ Reg.SYS_REC_STATE 0
  · rw [State.on_get, regs, State.get_wr_place (by decide), State.get_wr_place (by decide)]
    exact decide_eq_false (by rw [State.wr_regs, Fld.get_put_same]; decide)
  · rw [State.on_get, regs, State.get_wr_place (by decide)]
    exact decide_eq_false (by rw [State.wr_regs, Fld.get_put_same]; decide)
  · rw [State.rdB_get, regs, State.get_wr_place (by decide), State.get_wr_place (by decide), State.get_wr_place (by decide)]
    exact banks r low

/-- REC_ACK acts for a host, under a register fence too, and for the firmware in headless mode. -/
theorem exec_recAck {s : State} (may : s.headless = false ∧ s.hostMay .SYS = true ∨
      s.headless = false ∧ s.sys.linkUp = true ∧ s.live = true ∧ s.runs .HST = true ∧ s.on Reg.SYS_REGW_FENCED = true ∨
      s.headless = true ∧ s.sys.hold = .none ∧ s.live = true) :
    exec .recAck s = .next s.recAck ∨ exec .recAck s = .next (s.numbered 1).recAck := by
  rcases may with ⟨host, may⟩ | ⟨host, link, live, run, fence⟩ | ⟨head, hold, live⟩
  · have free : s.on Reg.SYS_REGW_FENCED = false := by
      simp only [State.hostMay, Bool.and_eq_true, Bool.not_eq_true'] at may
      obtain ⟨⟨⟨-, free⟩, -⟩, -⟩ := may
      exact free
    refine .inr (congrArg Host.Outcome.next ((if_neg (by rw [host]; decide)).trans ?_))
    exact (if_neg (by rw [free]; simp)).trans (s.hostOp_may _ _ _ may)
  · refine .inl (congrArg Host.Outcome.next ((if_neg (by rw [host]; decide)).trans (if_pos ?_)))
    rw [link, live, run, fence]
    rfl
  · have up : s.up = true := decide_eq_true hold
    exact .inl (congrArg Host.Outcome.next ((if_pos head).trans (if_pos (by rw [up, live]; rfl))))

/-! ### The fence list (R424, R430) -/

/-- The head of the fence list in its window. -/
def State.fncShown (s : State) (e : FncEntry) (rest : List FncEntry) : State :=
  (((({ s with sys.fenceList := rest } : State).wr Reg.SYS_FNC_HANDLE e.handle.toNat).wr Reg.SYS_FNC_VALID 1).wr
    Reg.SYS_FNC_HSEQ e.hseq.toNat).wr Reg.SYS_FNC_GEN e.gen.toNat |>.wr Reg.SYS_FNC_EMPTY (b2n rest.isEmpty)

/-- A window, captured. -/
def State.fncTaken (s : State) : State := { s.capture 0x18 s.fncBytes with hostData := s.fncBytes.headD 0 }

theorem State.fncTaken_reads (s : State) : s.fncTaken.regs = s.regs ∧ s.fncTaken.sys = s.sys := by
  obtain ⟨regs, -, -, sys, -⟩ := s.capture_keeps 0x18 s.fncBytes
  exact ⟨regs, sys⟩

theorem exec_fncPop_head {s : State} (reads : s.hostReads .SYS = true) {e : FncEntry} {l : List FncEntry}
    (list : s.sys.fenceList = e :: l) :
    ∃ t, exec .fncPop s = .next t ∧ t.sys.fenceList = l ∧ t.rd Reg.SYS_FNC_VALID = 1 ∧
      t.rd Reg.SYS_FNC_HANDLE = e.handle.toNat ∧ t.rd Reg.SYS_FNC_HSEQ = e.hseq.toNat ∧
      t.rd Reg.SYS_FNC_GEN = e.gen.toNat ∧ t.hostData = BitVec.ofNat 8 e.handle.toNat := by
  have ex : exec .fncPop s = .next (s.fncShown e l).fncTaken := by
    refine congrArg Host.Outcome.next ((if_pos reads).trans ?_)
    unfold State.fncPop
    rw [list]
    rfl
  obtain ⟨regs, sys⟩ := (s.fncShown e l).fncTaken_reads
  have valid : (s.fncShown e l).rd Reg.SYS_FNC_VALID = 1 := by
    rw [State.fncShown, State.rd_get, State.get_wr_place (by decide), State.get_wr_place (by decide),
      State.get_wr_place (by decide)]
    exact State.rd_wr_same _ Reg.SYS_FNC_VALID 1
  have handle : (s.fncShown e l).rd Reg.SYS_FNC_HANDLE = e.handle.toNat := by
    rw [State.fncShown, State.rd_get, State.get_wr_place (by decide), State.get_wr_place (by decide),
      State.get_wr_place (by decide), State.get_wr_place (by decide)]
    exact (State.rd_wr_same _ Reg.SYS_FNC_HANDLE _).trans (Nat.mod_eq_of_lt e.handle.isLt)
  have hseq : (s.fncShown e l).rd Reg.SYS_FNC_HSEQ = e.hseq.toNat := by
    rw [State.fncShown, State.rd_get, State.get_wr_place (by decide), State.get_wr_place (by decide)]
    exact (State.rd_wr_same _ Reg.SYS_FNC_HSEQ _).trans (Nat.mod_eq_of_lt e.hseq.isLt)
  have gen : (s.fncShown e l).rd Reg.SYS_FNC_GEN = e.gen.toNat := by
    rw [State.fncShown, State.rd_get, State.get_wr_place (by decide)]
    exact (State.rd_wr_same _ Reg.SYS_FNC_GEN _).trans (Nat.mod_eq_of_lt e.gen.isLt)
  have same (f : Fld) : (s.fncShown e l).fncTaken.rd f = (s.fncShown e l).rd f := by
    rw [State.rd_get, regs]
    rfl
  refine ⟨_, ex, by rw [sys]; rfl, (same _).trans valid, (same _).trans handle, (same _).trans hseq, (same _).trans gen, ?_⟩
  show BitVec.ofNat 8 ((s.fncShown e l).rd Reg.SYS_FNC_HANDLE + 2 ^ 23 * (s.fncShown e l).rd Reg.SYS_FNC_VALID) = _
  rw [valid, handle]
  apply BitVec.eq_of_toNat_eq
  rw [BitVec.toNat_ofNat, BitVec.toNat_ofNat]
  omega

theorem exec_fncPop_empty {s : State} (reads : s.hostReads .SYS = true) (list : s.sys.fenceList = []) :
    ∃ t, exec .fncPop s = .next t ∧ t.sys = s.sys ∧ t.rd Reg.SYS_FNC_VALID = 0 ∧ t.rd Reg.SYS_FNC_EMPTY = 1 := by
  have ex : exec .fncPop s = .next ((s.wr Reg.SYS_FNC_VALID 0).wr Reg.SYS_FNC_EMPTY 1).fncTaken := by
    refine congrArg Host.Outcome.next ((if_pos reads).trans ?_)
    unfold State.fncPop
    rw [list]
    rfl
  obtain ⟨regs, sys⟩ := ((s.wr Reg.SYS_FNC_VALID 0).wr Reg.SYS_FNC_EMPTY 1).fncTaken_reads
  refine ⟨_, ex, sys, ?_, ?_⟩
  · rw [State.rd_get, regs, State.get_wr_place (by decide)]
    exact s.rd_wr_same Reg.SYS_FNC_VALID 0
  · rw [State.rd_get, regs]
    exact State.rd_wr_same _ Reg.SYS_FNC_EMPTY 1

/-- Settles O60: the faults of islands, their restarts, the end of a generation, the fence list. -/
theorem faultsAndRecovery : Obligations.FaultsAndRecovery := by
  refine ⟨fun s hold halted => ⟨fun isl sys key closed run => ?_, fun cell mem closed run => ?_,
      fun rcv snd tag sys key closed runR runS bad => ?_, ?_, ?_⟩,
    fun s => ⟨fun isl hold halted still => exec_islandRestart hold halted still, exec_resumePublish,
      fun published may => ?_, fun reads => ⟨fun e l list => exec_fncPop_head reads list, exec_fncPop_empty reads⟩⟩⟩
  · exact exec_islandErrors ⟨hold, halted, closed, run⟩ sys key
  · exact exec_carafeDoubleError ⟨hold, halted, closed, run⟩ cell mem
  · exact exec_fabTagCheckFail tag ⟨hold, halted, closed, runS⟩ runR sys key bad
  · have up : s.up = true := decide_eq_true hold
    exact congrArg Host.Outcome.next (if_neg (by rw [up, halted]; decide))
  · have up : s.up = true := decide_eq_true hold
    exact congrArg Host.Outcome.next (if_neg (by rw [up, halted]; decide))
  · rcases exec_recAck may with ex | ex
    · exact ⟨_, ex, State.recAck_spec published⟩
    · exact ⟨_, ex, State.recAck_spec (s := s.numbered 1) published⟩

end Sys2Proof.Machine
